-- ==== Sys2Proof/Word.lean ====
section
/-! DEFINITION. The word type and the small types that name operands: ports, cores, packets, access sizes,
who makes an access, roles and modes. Plain data only. -/

namespace Sys2Proof

/-- A 32-bit word: every register of the part is one (R10). -/
abbrev Word := BitVec 32

/-- One byte of memory. -/
abbrev Byte := BitVec 8

/-- A sparse map from Nat keys, kept in one canonical form (keys strictly rising, no entry equal to the
default an unlisted key reads as); `Machine/Bits.lean` holds its operations. -/
abbrev KV (α : Type) := List (Nat × α)

/-- A Trellis port P0 to P5. -/
abbrev Port := Fin 6

/-- A Zynul core ZC0 to ZC3. -/
abbrev CoreId := Fin 4

/-- The number of a general register g0 to g31. -/
abbrev GReg := Fin 32

/-- The number of a predicate p0 to p7. -/
abbrev PReg := Fin 8

/-- The guard every Zynul instruction carries: PRED in [25:23] and PN in [22] (R270). -/
structure Pred where
  p   : PReg
  inv : Bool
  deriving DecidableEq, Repr, Inhabited

/-- The access sizes of Zynul loads and stores (sz of format F3). -/
inductive Size where
  | b | h | w | q
  deriving DecidableEq, Repr, Inhabited

/-- Bytes of an access size. -/
def Size.bytes : Size → Nat
  | .b => 1
  | .h => 2
  | .w => 4
  | .q => 16

/-- The roles of Table 0-1; every strap value of the form 0b1xx is reserved (R3). -/
inductive Role where
  | cell | arm | pole | station | reserved
  deriving DecidableEq, Repr, Inhabited

/-- The role a strap value names (Table 0-1). -/
def Role.ofStrap (v : BitVec 3) : Role :=
  if v = 0 then .cell else if v = 1 then .arm else if v = 2 then .pole else if v = 3 then .station else .reserved

/-- The strap code of a role, two bits, as ordered sets, CAPS and IDENT carry it. -/
def Role.code : Role → Nat
  | .cell => 0
  | .arm => 1
  | .pole => 2
  | .station => 3
  | .reserved => 0

/-- The six operating modes of Table 0-2. -/
inductive Mode where
  | boot | precharge | ready | run | degraded | safe
  deriving DecidableEq, Repr, Inhabited

/-- The MODE field's code (Table 17-9). -/
def Mode.code : Mode → Nat
  | .boot => 0
  | .precharge => 1
  | .ready => 2
  | .run => 3
  | .degraded => 4
  | .safe => 5

/-- Who makes a register access: firmware on a core, the host through XHP at this part, a fabric request
(its SRC endpoint address), or the loading of a cell table set (pass 2 of R306). -/
inductive Origin where
  | core (n : CoreId)
  | xhp
  | fabric (src : BitVec 20)
  | table
  deriving DecidableEq, Repr, Inhabited

/-- A fabric packet (Table 4-3). LEN is the length of the payload. -/
structure Packet where
  dest    : BitVec 20
  src     : BitVec 20
  typ     : BitVec 6
  cls     : BitVec 2
  seq     : BitVec 8
  payload : List Word
  deriving DecidableEq, Repr, Inhabited

/-- LEN of a packet in words. -/
def Packet.len (p : Packet) : Nat := p.payload.length

/-- How a packet's arrival ended on its link: whole with a good CRC, whole with a failed CRC, aborted (K30.7), or cut
off because the link left ACTIVE before its end (R122). -/
inductive Arrival where
  | good | badCrc | aborted | linkLost
  deriving DecidableEq, Repr, Inhabited

/-- What a RENUMBER packet announces: a new period or a renumbering (R45, R49). Both take effect at the
boundary of tick k; a renumbering carries the grid number that boundary then bears. -/
inductive Announce where
  | period (units : BitVec 8) (k : BitVec 40)
  | renumber (k grid : BitVec 40)
  deriving DecidableEq, Repr, Inhabited

/-- Why a port in ACTIVE is lost (R102); a RETRAIN write has a row of its own. -/
inductive LossCause where
  | codeErrors | rxcLoss | pllLoss | idleUnannounced
  deriving DecidableEq, Repr, Inhabited

/-- What asks for a chip reset (R442, Table 17-10), besides RST_N and the mode command. -/
inductive ChipCause where
  | reaction (source : BitVec 9)
  | command
  | jtag
  deriving DecidableEq, Repr, Inhabited

/-- The outcome of one CAN frame attempt (R464, R465). `ack` is an acknowledgement error with no dominant
bit seen in the passive error flag, which raises TEC only while the node is error-active. -/
inductive CanEnd where
  | sent | lost | ack | error
  deriving DecidableEq, Repr, Inhabited

/-- What sets the safe-state latch (R398); a failed self-test has a row of its own. -/
inductive LatchCause where
  | lockstep | clock | watchdog | memory
  deriving DecidableEq, Repr, Inhabited

/-- What the part's pins and feeds show at a tick application: the level on INTL_IN (R421) and the feed
power measured over the tick that ends, in mW (Table 7-4). -/
structure TickIn where
  intlIn : Bool
  feedMw : BitVec 16
  deriving DecidableEq, Repr, Inhabited

/-- A received Ethernet frame (R318 to R326): its bytes from the destination address up to its frame check sequence, and
whether that sequence is good. -/
structure EthFrame where
  fcsOk   : Bool
  bytes   : List Byte
  deriving DecidableEq, Repr, Inhabited

/-- Its length with the frame check sequence, in bytes. -/
def EthFrame.len (f : EthFrame) : Nat := f.bytes.length + 4

/-- A sampled-value frame of a subscribed stream, decoded to what R325 to R328 speak of. -/
structure SvFrame where
  rateOk : Bool
  nasdu  : Nat
  smpCnt : BitVec 16
  synch  : BitVec 8
  values : List (Word × Word)
  deriving DecidableEq, Repr, Inhabited

/-- A GOOSE frame, decoded to what R331 and R332 speak of. -/
structure GooseFrame where
  stNum  : Word
  sqNum  : Word
  sim    : Bool
  nds    : Bool
  ttlMs  : Word
  data   : List Byte
  deriving DecidableEq, Repr, Inhabited

/-- A received or queued CAN frame: control bits, identifier, data length code, LT at start of frame, data
(Table 18-3). -/
structure CanFrame where
  ide  : Bool
  rtr  : Bool
  fdf  : Bool
  brs  : Bool
  esi  : Bool
  ident : BitVec 29
  dlc  : BitVec 4
  lt   : Word
  data : List Byte
  deriving DecidableEq, Repr, Inhabited

/-- What the part receives of a frame of another node (R465, R469): a valid frame, or an error that it detects, with the
first bit after its error flag dominant or not. -/
inductive CanRx where
  | valid (f : CanFrame)
  | error (dominant : Bool)
  deriving DecidableEq, Repr, Inhabited

end Sys2Proof
end

