-- ==== Sys2Proof/Syntax.lean ====
section
/-! DEFINITION. The commands of the part: one constructor for each row of the spec's table of operations and
events, with the operands the row's rule speaks of. -/

namespace Sys2Proof

/-- The commands. Each docstring names the row's rule. An `Origin` says who writes a register; a `val` is the
word written; a level, count or time that only the pins or the links know is an operand. -/
inductive Instr where
  /-- R438: Both feeds fall below 2.70 V and the part enters power-on reset, which returns every register to reset except MRAM and fuses. -/
  | powerOnReset
  /-- R443: Reset is released once rails, VAON and REFCLK have held for 1 ms with RST_N high, and the boot ROM runs its steps. -/
  | resetRelease (straps : BitVec 3) (testmode : Bool)
  /-- R441: RST_N held low for 1 µs or longer causes a chip reset held while the pin stays low. -/
  | rstNLow
  /-- R442: A chip reset from a reaction, command or JTAG returns registers to reset except the state of Table 17-2. -/
  | chipReset (c : ChipCause)
  /-- R435: A feed that has stayed inside FEED_UV to FEED_OV for 1 ms becomes valid. -/
  | feedValid (f : Fin 2) (span : BitVec 24) (mvA mvB : BitVec 16)
  /-- R437: A feed stops being valid, its gate opens, and SUP sets LOSS or OV and reports FEED_LOSS or FEED_OV. -/
  | feedLoss (f : Fin 2) (span : BitVec 24) (mvA mvB : BitVec 16)
  /-- R10: A write to a register without a row of its own acts on each field by its access code, mode gates and the RWL rule. -/
  | registerWrite (o : Origin) (sz : Size) (addr val : Word)
  /-- R41: A read of the lowest word of a multi-word time value latches its higher words for later reads. -/
  | timeLowWordRead (o : Origin) (addr : Word)
  /-- R449: A SYS_MODE_CMD with TARGET PRECHARGE is checked against Table 17-5 and accepted or refused with a REFUSE code. -/
  | modeCmdPrecharge (o : Origin)
  /-- R453: A SYS_MODE_CMD with TARGET READY is checked, including the conditions for leaving SAFE and the XHP origin rule. -/
  | modeCmdReady (o : Origin)
  /-- R449: A SYS_MODE_CMD with TARGET RUN is checked against QUARANTINE, pruning and Saffron demand and accepted or refused. -/
  | modeCmdRun (o : Origin)
  /-- R450: A SYS_MODE_CMD with TARGET SAFE takes the part into SAFE in the cycle of the write without a Cayenne. -/
  | modeCmdSafe (o : Origin)
  /-- R450: A SYS_MODE_CMD with TARGET chip reset asserts a chip reset within 100 ns with SOURCE 0x1FF. -/
  | modeCmdChipReset (o : Origin)
  /-- R449: An accepted command to PRECHARGE, READY or RUN takes effect at the next tick application if its conditions still hold. -/
  | modeCmdTakeEffect
  /-- R9: The DEGRADED timer of the named fault expires and the part enters SAFE. -/
  | degradedTimerExpiry
  /-- R370: A block held in reset by a fault-hub reaction is released 1,000 ns after assertion at its reset values. -/
  | blockResetRelease (b : Fin 15)
  /-- R47: The STATION part reaches a tick boundary from its oscillator or the PT0 grid and applies the tick. -/
  | stationTickBoundary (x : TickIn)
  /-- R56: The STATION part launches the tick symbol on every active down-port TMK_TICK_LEAD before the boundary. -/
  | tickSymbolLaunch
  /-- R57: A node receives a tick symbol on an up-port, stamps it and schedules its application. -/
  | tickSymbolRx (p : Port) (tt : BitVec 6) (dly : BitVec 2) (at_ps : Nat)
  /-- R58: A node applies the tick at the compensated instant, latching snapshots and running every tick-aligned action. -/
  | tickApply (x : TickIn)
  /-- R65: No valid tick symbol has arrived 50 ns before the expected instant, so the node applies the tick there and counts MISS_RUN. -/
  | tickExpectedTimeout (x : TickIn)
  /-- R67: 200 ns before the expected tick symbol a node starts the fast exit from idle on every idle down-port. -/
  | tickIdleWake
  /-- R44: A write of TMK_TICK_PERIOD at the STATION part is checked and, if accepted, announced in a RENUMBER packet. -/
  | tickPeriodWrite (o : Origin) (val : Word)
  /-- R45: A node receives a RENUMBER announcement of a new period or renumbering and holds it for boundary k. -/
  | renumberRx (p : Port) (ann : Announce)
  /-- R45: At the announced boundary every node starts the tick with the new period, or keeps the old one if it lacks the announcement. -/
  | periodBoundary
  /-- R49: At the announced boundary every node sets its tick number to the grid value, COUPLED becomes 1 and TT compares are cancelled. -/
  | renumberBoundary
  /-- R50: A parent receives a TICKNO_REQ from a child lacking a consistent tick number or period and answers it. -/
  | ticknoReqRx (p : Port)
  /-- R48: A write of COUPLE is accepted or refused by the STATION part and, if accepted, starts a renumbering. -/
  | couple (o : Origin)
  /-- R48: A write of DECOUPLE sets COUPLED to 0 at the STATION part in BOOT, PRECHARGE or READY. -/
  | decouple (o : Origin)
  /-- R53: Firmware sets or clears PT0_VALID, which resumes or suspends slewing toward the PT0 grid. -/
  | pt0ValidSet (o : Origin) (on : Bool)
  /-- R61: A write of REMEASURE repeats the hop-delay measurement on the up-ports, applied at the next tick boundary. -/
  | remeasure (o : Origin)
  /-- R40: A write of TMK_PTn_STEP steps the PT instance by a signed offset in one 2 ns cycle. -/
  | ptStep (o : Origin) (n : Fin 3) (val : Word)
  /-- R69: A write of CMPm_LO checks the target and arms the compare unit or refuses it with PAST, FAR or PHASE. -/
  | cmpArm (o : Origin) (m : Fin 8) (val : Word)
  /-- R70: An armed compare unit matches its target, takes state FIRED and performs its ACT actions. -/
  | cmpFire (m : Fin 8)
  /-- R70: A write of CANCEL or of BASE to an armed unit cancels its target with state 0xD. -/
  | cmpCancel (o : Origin) (m : Fin 8) (val : Word)
  /-- R72: A write of TMK_LCHj_NS arms a launch slot or refuses it as PAST or FAR. -/
  | launchArm (o : Origin) (j : Fin 4) (val : Word)
  /-- R73: An armed launch slot sends its frame so its timestamp point leaves within 16 ns of the target. -/
  | launchFire (j : Fin 4)
  /-- R82: A write of TRL_PpCFG changes DIR only where the role and mode permit and applies the other fields. -/
  | portCfgWrite (o : Origin) (p : Port) (val : Word)
  /-- R102: A write of RETRAIN returns the port to DETECT in reference mode with LINK_LOSS. -/
  | portRetrain (o : Origin) (p : Port)
  /-- R93: A port has seen valid RXC and RXD for 100 µs and enters TRAIN. -/
  | portDetectDone (p : Port)
  /-- R60: A TQ or TR timing-exchange set is received and a hop-delay result is formed. -/
  | timingExchangeRx (p : Port) (t1 t2 t3 t4 : Nat)
  /-- R93: A port completes TRAIN with locks, T2 sets and 64 timing exchanges and enters LOCK. -/
  | portTrainDone (p : Port) (inverted : Bool) (deskew : BitVec 6)
  /-- R93: A port holds symbol lock for 1,024 clean symbols and enters CAPS or, in a forwarded pass, ACTIVE. -/
  | portLockDone (p : Port)
  /-- R101: A CAPS block is received and checked, and its fields are compared with the first good block. -/
  | capsBlockRx (p : Port) (block : List Byte)
  /-- R101: Both ends have exchanged acknowledged CAPS blocks and the port enters ACTIVE. -/
  | portActive (p : Port)
  /-- R503: An ACTIVE reference-mode port enters the forwarded pass through TRAIN and LOCK at a packet boundary. -/
  | forwardedPassStart (p : Port)
  /-- R93: A bring-up stage exceeds its timeout and the port returns to DETECT in reference mode. -/
  | stageTimeout (p : Port)
  /-- R95: The 100 ms hold after a failure ends and the port may leave DETECT again. -/
  | portRetryHoldEnd (p : Port)
  /-- R102: An ACTIVE port sees code errors, RXC or PLL loss or unannounced idle and returns to DETECT reporting LINK_LOSS. -/
  | linkLoss (p : Port) (c : LossCause)
  /-- R104: A forwarded ACTIVE port with nothing to send for IDLE_AFTER symbols sends K28.6 and enters electrical idle. -/
  | idleEntry (p : Port)
  /-- R106: A transmitter leaves idle with a fast training burst, completing within 160 ns. -/
  | idleExit (p : Port)
  /-- R108: A write of START begins an eye scan on one port after its checks and ledger admission. -/
  | eyeStart (o : Origin) (val : Word)
  /-- R108: A write of ABORT, or a retrain of the scanned port, ends the scan with STATE ABORTED. -/
  | eyeAbort (o : Origin) (val : Word)
  /-- R109: A scan point completes its dwell and its disagreement count is written, ending the scan at the last point. -/
  | eyePointDone (count : Nat)
  /-- R132: A transmitter starts the next packet by class order, credit and the C1 window. -/
  | packetTxStart (p : Port)
  /-- R479: 200 ns before the C1 window idle ports start their fast exit, and no C3 flit starts within the window. -/
  | c1WindowStart
  /-- R134: The C1 window ends and a held C2 packet starts at the first packet boundary. -/
  | c1WindowEnd
  /-- R123: A packet that is not the node's own is routed by range entries, up-route or dropped as NO_ROUTE. -/
  | packetRoute (src : Option Port) (pk : Packet) (arr : Arrival)
  /-- R112: A packet whose DEST node ID is the node's own is handed to the function of its endpoint index. -/
  | packetAcceptLocal (src : Option Port) (pk : Packet) (arr : Arrival)
  /-- R113: A WR_REQ whole and CRC-good is checked against its endpoint range and committed, with a WR_CPL or ERR_CPL returned. -/
  | wrReqRx (pk : Packet)
  /-- R113: A RD_REQ is checked against its endpoint range and answered with RD_CPL or ERR_CPL. -/
  | rdReqRx (pk : Packet)
  /-- R293: A WR_CPL is delivered to the requesting core by SEQ[7:6] or to the XHP engine. -/
  | wrCplRx (pk : Packet)
  /-- R293: A RD_CPL is delivered to the requesting core by SEQ[7:6] or to the XHP engine. -/
  | rdCplRx (pk : Packet)
  /-- R293: An ERR_CPL is delivered to the requesting core by SEQ[7:6] or to the XHP engine. -/
  | errCplRx (pk : Packet)
  /-- R136: A tracked request without completion within TRR_CPL_TIMEOUT is answered with ERR_CPL status TIMEOUT. -/
  | cplTimeout (ep : Fin 3) (seq : BitVec 8)
  /-- R135: A CREDIT packet returns buffer space per class and queue to the transmitter. -/
  | creditRx (p : Port) (c2 c3d c3m : BitVec 16)
  /-- R500: An ALIGN packet on the selected up-port updates PATH for the TT_ALIGN condition. -/
  | alignRx (p : Port) (pk : Packet)
  /-- R128: A write of START at the STATION part in BOOT starts the discovery walk, or is refused. -/
  | discStart (o : Origin) (val : Word)
  /-- R128: A PROBE received on a link is answered with IDENT. -/
  | probeRx (p : Port)
  /-- R128: A PROBE_VIA makes the target probe one of its ports and return the IDENT. -/
  | probeViaRx (pk : Packet)
  /-- R128: A probe without IDENT within 10 µs is retried, and after 3 attempts the port is recorded SILENT. -/
  | probeTimeout
  /-- R114: The walker takes an IDENT, checks the wiring rules and assigns an ID or writes an ALT entry. -/
  | identRx (pk : Packet)
  /-- R114: A node receiving ASSIGN loads its node ID and, with QUAR set, holds QUARANTINE. -/
  | assignRx (p : Port) (pk : Packet)
  /-- R128: An ARM part receiving DELEGATE walks its own and its partner's down-ports within the given block. -/
  | delegateRx (pk : Packet)
  /-- R128: The walker receives the cell count of a delegation, and the walk ends with DONE when all have returned. -/
  | delegateReturnRx (src : BitVec 20) (cells : BitVec 14)
  /-- R131: A walker receiving NEW_LINK probes the new peer and gives it its former or the lowest free ID and entries. -/
  | newLinkHandle (reporter : BitVec 14) (p : Port) (expect : BitVec 2) (ident : Packet)
  /-- R126: The active ARM part writes repair entries toward the secondary parents of a lost cell's children within 200 µs. -/
  | routeRepair (lost : BitVec 14)
  /-- R137: A write of LAUNCH in TRR_CAY_CTRL launches a Cayenne of scope SCOPE. -/
  | cayLaunchWrite (o : Origin) (val : Word)
  /-- R138: A Cayenne received on a live port is applied, recorded and forwarded unless absorbed. -/
  | cayenneRx (ports : BitVec 6) (scope : BitVec 2) (hops : BitVec 6) (at_ps : Nat)
  /-- R139: The absorption hold of TRR_CAY_HOLD expires and later Cayennes are forwarded again. -/
  | cayHoldExpiry
  /-- R142: A write of 1 to SEEN clears every field of the Cayenne record. -/
  | cayStatClear (o : Origin) (val : Word)
  /-- R147: A write of 1 to ENABLE in RDL_CTRL starts the Riddle with full-scale bins. -/
  | rdlEnableWrite (o : Origin) (val : Word)
  /-- R150: A node receives a RAKE input, checks its SEQ and merges its counts into the plane histogram as they stream. -/
  | rakeRx (p : Port) (pk : Packet) (arr : Arrival)
  /-- R151: A node starts its plane output after the last expected input has begun or at RAKE_WAIT. -/
  | rakeOutputStart (planeB : Bool)
  /-- R153: ZC0 writes RDL_LEVEL with GO, validating N and FDUTY for the tick. -/
  | levelGoWrite (o : Origin) (val : Word)
  /-- R155: The selection unit computes boundary class, bin, quota and fraction once the histogram is complete and GO is written. -/
  | selectionRun
  /-- R153: GO is not written by LEVEL_DL, so the selection runs with the previous N and FDUTY and LEVEL_LATE is reported. -/
  | levelDeadline
  /-- R150: A node keeps a BINS whose SEQ is its TT plus 1 and forwards it on every DOWN port. -/
  | binsRx (p : Port) (pk : Packet)
  /-- R160: A node receives DESCENT, takes its own state, splits Q among participants and forwards the shares. -/
  | descentRx (p : Port) (pk : Packet)
  /-- R165: A cell without DESCENT by the first edge phase holds its full state, counts HOLD_RUN and reports DESCENT_MISSING. -/
  | descentDeadline
  /-- R177: At its edge instant a cell takes the state decided for the tick, or a forced state, and changes its gate commands. -/
  | edgeInstant
  /-- R178: A full-bridge cell moves leg B at t_e plus LEG_GAP when both legs change. -/
  | legBEdge
  /-- R180: The fractional cell returns to state 0 at t_e plus the final T_on. -/
  | fracOffEdge
  /-- R187: A cell receives INSERT and accepts it in READY with INSERT_EN, or refuses it with INSERT_REFUSED. -/
  | insertRx (pk : Packet)
  /-- R194: A channel turns on once DEADT has elapsed since the partner's turn-off and the partner's GFB reads off. -/
  | deadtimeTurnOn (m : Fin 8)
  /-- R196: At the end of FB_TMO after a GCMD change the guard checks GFB and on mismatch reports FB_FAULT and trips. -/
  | fbCheck (m : Fin 8) (pin : Bool)
  /-- R196: A GFB change while GCMD is steady sets FB_FAULT, and a first on-reading activates the hard-short comparator. -/
  | gfbChange (m : Fin 8) (pin : Bool)
  /-- R197: BLANK after the rising edge of GCMD elapses and the desaturation comparator becomes active. -/
  | desatBlankEnd (m : Fin 8)
  /-- R197: GDS above DESAT_TH for DESAT_FILT sets DESAT, reports it and starts the protective turn-off. -/
  | desatDetect (m : Fin 8)
  /-- R198: GDS above HS_TH for 150 ns sets HARD_SHORT, reports it and starts the protective turn-off. -/
  | hardShortDetect (m : Fin 8)
  /-- R206: SOFT_HOLD after the origin SOFTOFF is released and the guard keeps GCMD low. -/
  | softoffRelease
  /-- R208: At SOFT_HOLD plus FB_TMO every enabled GFB is checked for off and OFF_FAIL is reported where it is not. -/
  | offCheck (pins : BitVec 8)
  /-- R201: A gate supply above UV_TH plus UV_HYS for 10 µs makes the channel ARMED. -/
  | uvArm (m : Fin 8)
  /-- R203: An ARMED supply below UV_TH for UV_FILT trips the cell in RUN with an arm Cayenne, and locks the channel out. -/
  | uvTrip (m : Fin 8)
  /-- R221: Before the first tick the part latches tick-group snapshots at every 10 µs of LT. -/
  | preTickSnapshot
  /-- R219: TG_LEAD before the expected tick the SAR converter starts the tick-group conversions back to back. -/
  | tickGroupStart
  /-- R218: A SAR conversion completes, its value is scaled and the next tick-group or scan conversion starts. -/
  | sarConversionDone (c : Fin 17) (raw : BitVec 15)
  /-- R227: After 256 dithered samples S is compared with DITH_MIN, setting or clearing STUCK and FROZEN. -/
  | ditherBlockEnd (c : Fin 17)
  /-- R230: A sigma-delta channel completes a decimated frame and delivers RESULT after skew delay. -/
  | sdResult (n : Fin 8) (bits : BitVec 256)
  /-- R232: A bitstream without transition for 64 modulator clocks sets SD_LOSS, clears SD_VALID and reports. -/
  | sdLoss (n : Fin 8)
  /-- R235: An accepted edge on PULSE_A or PULSE_B updates the count, period or quadrature position. -/
  | pulseEdge (a b : Bool)
  /-- R237: No rising edge for TMO ms sets SNS_PULSE_PER to 0 and NO_PULSE. -/
  | noPulse
  /-- R242: At phase START an enabled Class S instance runs its job on the bank in force and updates states and outputs. -/
  | classSJob (ix : Fin 4)
  /-- R246: A write of 1 to SWAP requests a bank change at the next tick application. -/
  | swapRequest (o : Origin) (ix : Fin 4)
  /-- R247: A write of ENABLE checks the instance configuration and enables it into SETTLE or reports LPE_CFG. -/
  | lpeEnableWrite (o : Origin) (ix : Fin 4) (val : Word)
  /-- R262: A write of EN, FIRST or COUNT to a cascade is checked against section, rate and load limits. -/
  | cascadeEnWrite (o : Origin) (c : Fin 16) (val : Word)
  /-- R261: At its trigger a cascade runs its sections on the scaled input and forms OUT. -/
  | cascadeRun (c : Fin 16)
  /-- R267: Integer add modulo 2^32. -/
  | add (n : CoreId) (q : Pred) (gd ga gb : GReg)
  /-- R267: Integer subtract modulo 2^32. -/
  | sub (n : CoreId) (q : Pred) (gd ga gb : GReg)
  /-- R267: Bitwise AND of two registers. -/
  | and (n : CoreId) (q : Pred) (gd ga gb : GReg)
  /-- R267: Bitwise OR of two registers. -/
  | or (n : CoreId) (q : Pred) (gd ga gb : GReg)
  /-- R267: Bitwise XOR of two registers. -/
  | xor (n : CoreId) (q : Pred) (gd ga gb : GReg)
  /-- R267: Shift left by gb[4:0]. -/
  | shl (n : CoreId) (q : Pred) (gd ga gb : GReg)
  /-- R267: Logical shift right by gb[4:0]. -/
  | shr (n : CoreId) (q : Pred) (gd ga gb : GReg)
  /-- R267: Arithmetic shift right by gb[4:0]. -/
  | sra (n : CoreId) (q : Pred) (gd ga gb : GReg)
  /-- R267: Signed saturated add setting OV when clamped. -/
  | adds (n : CoreId) (q : Pred) (gd ga gb : GReg)
  /-- R267: Signed saturated subtract setting OV when clamped. -/
  | subs (n : CoreId) (q : Pred) (gd ga gb : GReg)
  /-- R267: Signed minimum. -/
  | min (n : CoreId) (q : Pred) (gd ga gb : GReg)
  /-- R267: Signed maximum. -/
  | max (n : CoreId) (q : Pred) (gd ga gb : GReg)
  /-- R267: Unsigned minimum. -/
  | minu (n : CoreId) (q : Pred) (gd ga gb : GReg)
  /-- R267: Unsigned maximum. -/
  | maxu (n : CoreId) (q : Pred) (gd ga gb : GReg)
  /-- R267: Low 32 bits of the product. -/
  | mul (n : CoreId) (q : Pred) (gd ga gb : GReg)
  /-- R267: High 32 bits of the signed product. -/
  | mulh (n : CoreId) (q : Pred) (gd ga gb : GReg)
  /-- R267: High 32 bits of the unsigned product. -/
  | mulhu (n : CoreId) (q : Pred) (gd ga gb : GReg)
  /-- R272: Rounded saturated Q15 product of the low halves. -/
  | mulq15 (n : CoreId) (q : Pred) (gd ga gb : GReg)
  /-- R272: Rounded saturated Q31 product. -/
  | mulq31 (n : CoreId) (q : Pred) (gd ga gb : GReg)
  /-- R272: Signed division toward zero with defined divide-by-zero and overflow results. -/
  | div (n : CoreId) (q : Pred) (gd ga gb : GReg)
  /-- R272: Unsigned division with defined divide-by-zero result. -/
  | divu (n : CoreId) (q : Pred) (gd ga gb : GReg)
  /-- R272: Signed remainder with the sign of ga. -/
  | rem (n : CoreId) (q : Pred) (gd ga gb : GReg)
  /-- R272: Unsigned remainder. -/
  | remu (n : CoreId) (q : Pred) (gd ga gb : GReg)
  /-- R267: Count of leading zeros. -/
  | clz (n : CoreId) (q : Pred) (gd ga : GReg)
  /-- R267: Absolute value, saturating −2^31 with OV. -/
  | abs (n : CoreId) (q : Pred) (gd ga : GReg)
  /-- R267: Add a sign-extended immediate. -/
  | addi (n : CoreId) (q : Pred) (gd ga : GReg) (imm : BitVec 12)
  /-- R267: AND with a zero-extended immediate. -/
  | andi (n : CoreId) (q : Pred) (gd ga : GReg) (imm : BitVec 12)
  /-- R267: OR with a zero-extended immediate. -/
  | ori (n : CoreId) (q : Pred) (gd ga : GReg) (imm : BitVec 12)
  /-- R267: XOR with a zero-extended immediate. -/
  | xori (n : CoreId) (q : Pred) (gd ga : GReg) (imm : BitVec 12)
  /-- R267: Shift left by an immediate. -/
  | shli (n : CoreId) (q : Pred) (gd ga : GReg) (imm : BitVec 5)
  /-- R267: Logical shift right by an immediate. -/
  | shri (n : CoreId) (q : Pred) (gd ga : GReg) (imm : BitVec 5)
  /-- R267: Arithmetic shift right by an immediate. -/
  | srai (n : CoreId) (q : Pred) (gd ga : GReg) (imm : BitVec 5)
  /-- R267: Load a zero-extended 16-bit immediate. -/
  | movl (n : CoreId) (q : Pred) (gd : GReg) (imm : BitVec 16)
  /-- R267: Load the upper half with a 16-bit immediate keeping the lower half. -/
  | movh (n : CoreId) (q : Pred) (gd : GReg) (imm : BitVec 16)
  /-- R273: fp32 addition. -/
  | fadd (n : CoreId) (q : Pred) (gd ga gb : GReg)
  /-- R273: fp32 subtraction. -/
  | fsub (n : CoreId) (q : Pred) (gd ga gb : GReg)
  /-- R273: fp32 multiplication. -/
  | fmul (n : CoreId) (q : Pred) (gd ga gb : GReg)
  /-- R273: fp32 division. -/
  | fdiv (n : CoreId) (q : Pred) (gd ga gb : GReg)
  /-- R273: fp32 minimum with defined NaN and signed-zero handling. -/
  | fmin (n : CoreId) (q : Pred) (gd ga gb : GReg)
  /-- R273: fp32 maximum with defined NaN and signed-zero handling. -/
  | fmax (n : CoreId) (q : Pred) (gd ga gb : GReg)
  /-- R273: Clear the sign bit without flags. -/
  | fabs (n : CoreId) (q : Pred) (gd ga : GReg)
  /-- R273: Invert the sign bit without flags. -/
  | fneg (n : CoreId) (q : Pred) (gd ga : GReg)
  /-- R273: fp32 square root. -/
  | fsqrt (n : CoreId) (q : Pred) (gd ga : GReg)
  /-- R273: Signed integer to fp32. -/
  | itof (n : CoreId) (q : Pred) (gd ga : GReg)
  /-- R273: Unsigned integer to fp32. -/
  | utof (n : CoreId) (q : Pred) (gd ga : GReg)
  /-- R274: fp32 to signed integer rounding to nearest even, saturating. -/
  | ftoiN (n : CoreId) (q : Pred) (gd ga : GReg)
  /-- R274: fp32 to signed integer toward zero, saturating. -/
  | ftoiZ (n : CoreId) (q : Pred) (gd ga : GReg)
  /-- R274: fp32 to signed integer by floor, saturating. -/
  | ftoiFl (n : CoreId) (q : Pred) (gd ga : GReg)
  /-- R274: fp32 to signed integer by ceiling, saturating. -/
  | ftoiCe (n : CoreId) (q : Pred) (gd ga : GReg)
  /-- R273: Fused multiply-add into gd. -/
  | fmac (n : CoreId) (q : Pred) (gd ga gb : GReg)
  /-- R273: Fused multiply-subtract from gd. -/
  | fmsc (n : CoreId) (q : Pred) (gd ga gb : GReg)
  /-- R277: Load of a byte, half-word, word or quad, sign-extended, with access timing by region. -/
  | ld (n : CoreId) (q : Pred) (gt base : GReg) (sz : Size) (off : BitVec 10)
  /-- R277: Zero-extended load of a byte or half-word. -/
  | ldu (n : CoreId) (q : Pred) (gt base : GReg) (sz : Size) (off : BitVec 10)
  /-- R280: Store of a byte, half-word, word or quad. -/
  | st (n : CoreId) (q : Pred) (gt base : GReg) (sz : Size) (off : BitVec 10)
  /-- R280: Atomic swap of a shared-SRAM word within one slot. -/
  | amoSwap (n : CoreId) (q : Pred) (gd ga gb : GReg)
  /-- R280: Atomic add to a shared-SRAM word within one slot. -/
  | amoAdd (n : CoreId) (q : Pred) (gd ga gb : GReg)
  /-- R275: Integer compare of two registers setting pd and its complement pc. -/
  | cmp (n : CoreId) (q : Pred) (pd pc : PReg) (cond : BitVec 4) (ga gb : GReg)
  /-- R275: Integer compare with a signed immediate setting two predicates. -/
  | cmpi (n : CoreId) (q : Pred) (pd pc : PReg) (cond : BitVec 4) (ga : GReg) (imm : BitVec 7)
  /-- R275: fp32 compare setting two predicates with unordered handling. -/
  | fcmp (n : CoreId) (q : Pred) (pd pc : PReg) (cond : BitVec 4) (ga gb : GReg)
  /-- R270: Logical combination of two predicates. -/
  | plog (n : CoreId) (q : Pred) (pd pc : PReg) (cond : BitVec 4) (pa pb : PReg)
  /-- R270: PC-relative branch, conditional by predication. -/
  | br (n : CoreId) (q : Pred) (off : BitVec 22)
  /-- R270: PC-relative branch writing the return address to g31. -/
  | call (n : CoreId) (q : Pred) (off : BitVec 22)
  /-- R270: Register-indirect jump. -/
  | jr (n : CoreId) (q : Pred) (ga : GReg) (imm : BitVec 12)
  /-- R270: Register-indirect jump with link. -/
  | jalr (n : CoreId) (q : Pred) (gd ga : GReg) (imm : BitVec 12)
  /-- R276: Starts a zero-overhead loop over the next imm12 instructions ga times. -/
  | loop (n : CoreId) (q : Pred) (ga : GReg) (imm : BitVec 12)
  /-- R284: Clears TICK and suspends the core until the next tick application. -/
  | twait (n : CoreId) (q : Pred)
  /-- R284: A tick application ends a TWAIT, which completes 3 cycles later. -/
  | twaitWake (n : CoreId)
  /-- R283: Suspends the core until an event flag in the mask is set. -/
  | wait (n : CoreId) (q : Pred) (gd ga : GReg)
  /-- R283: A masked event flag is set, the WAIT writes and clears the flags and completes. -/
  | waitWake (n : CoreId)
  /-- R287: Returns from a trap to EPC and restores IE from PIE. -/
  | rte (n : CoreId) (q : Pred)
  /-- R279: Waits until just before the core's next shared-SRAM slot. -/
  | syncslot (n : CoreId) (q : Pred)
  /-- R286: Sets the SIG event flag of the named core. -/
  | sig (n : CoreId) (q : Pred) (ga : GReg)
  /-- R271: The SYS HALT instruction halts the executing core. -/
  | halt (n : CoreId) (q : Pred)
  /-- R271: Reads a control register into gd. -/
  | mfc (n : CoreId) (q : Pred) (gd : GReg) (cr : BitVec 12)
  /-- R271: Writes a control register from ga. -/
  | mtc (n : CoreId) (q : Pred) (ga : GReg) (cr : BitVec 12)
  /-- R292: Queues a packet image for the router or returns a non-queued status. -/
  | fsend (n : CoreId) (q : Pred) (gd ga : GReg)
  /-- R294: Moves the oldest queued packet into the scratchpad image. -/
  | frecv (n : CoreId) (q : Pred) (gd ga : GReg)
  /-- R295: Interpolating lookup in a scratchpad table. -/
  | lut (n : CoreId) (q : Pred) (gd ga gb : GReg)
  /-- R291: A pending enabled interrupt line with IE 1 makes the core take the INTERRUPT trap at an instruction boundary. -/
  | interruptEntry (n : CoreId)
  /-- R290: The fault hub's NMT reaction makes every core with NMTEN take the non-maskable trap. -/
  | nmtEntry (n : CoreId)
  /-- R297: A write of HALT requests the core to halt at the next instruction boundary. -/
  | coreHalt (o : Origin) (n : CoreId)
  /-- R297: The core reaches the instruction boundary or its wait and takes state HALTED. -/
  | coreHalted (n : CoreId)
  /-- R297: A write of RUN starts the core at ZCC_CnPC. -/
  | coreRun (o : Origin) (n : CoreId)
  /-- R297: A write of STEP executes one instruction from the halted state. -/
  | coreStep (o : Origin) (n : CoreId)
  /-- R296: An access to ZCC_CnWDATA reads or writes a halted core's scratchpad and advances ZCC_CnWADDR by 4. -/
  | scratchpadWindowAccess (o : Origin) (n : CoreId) (wr : Option Word)
  /-- R299: At phase BUDGET a tick core not in TWAIT sets TP_LATE and reports it. -/
  | tpBudgetCheck
  /-- R301: A whole REFERENCE with matching SEQ enters the LPE reference buffer, otherwise REF_STALE is reported. -/
  | referenceRx (pk : Packet)
  /-- R304: A TICK_REPORT is received and delivered to the core named by ZCC_RXMAP. -/
  | tickReportRx (pk : Packet)
  /-- R305: A WR_REQ to SYS_TBL_BUF in BOOT stages table-set words at a cell. -/
  | tblBufWrite (pk : Packet)
  /-- R306: A write of COMMIT in BOOT starts a three-pass load of the staged table set. -/
  | tableCommit (o : Origin)
  /-- R307: The table load finishes, either loaded or rejected with every register returned to reset. -/
  | tableLoadDone
  /-- R312: A GO with OP PROGRAM writes one page from SYS_QSPI_BUF, refused on the booted slot or misalignment. -/
  | qspiProgram (o : Origin)
  /-- R312: A GO with OP ERASE erases one sector, refused on the booted slot or misalignment. -/
  | qspiErase (o : Origin)
  /-- R312: A flash program or erase completes and BUSY clears. -/
  | qspiOpDone
  /-- R318: A frame is received on E0 or E1, checked, de-duplicated, stamped and passed to its function or the ring. -/
  | ethFrameRx (e : Fin 2) (f : EthFrame) (freed : Fin 65)
  /-- R319: A waiting frame starts on a port in priority order. -/
  | ethFrameTx (e : Fin 2) (desc : Option (BitVec 8))
  /-- R317: An enabled Ethernet port loses link and reports ETH_LINK. -/
  | ethLinkDown (e : Fin 2)
  /-- R326: An accepted sampled-value frame stores the values of its last ASDU within 1 µs. -/
  | svFrameRx (e : Fin 2) (raw : EthFrame) (k : Fin 16) (f : SvFrame)
  /-- R328: A subscription without an accepted frame for TMO µs sets TIMEOUT. -/
  | svTimeout (k : Fin 16)
  /-- R329: At each sample instant a publication sends one ASDU within 2 µs. -/
  | svPublish (k : Fin 4)
  /-- R330: A write of CHANGE sends the publication at once with a new stNum. -/
  | gooseChange (o : Origin) (g : Fin 32)
  /-- R330: The repetition interval expires and the publication is resent with a higher sqNum. -/
  | gooseRepeat (g : Fin 32)
  /-- R331: A matching GOOSE frame is accepted or discarded by stNum, sqNum and simulation. -/
  | gooseFrameRx (e : Fin 2) (raw : EthFrame) (g : Fin 64) (f : GooseFrame)
  /-- R332: timeAllowedToLive of a subscription expires and TTL_EXP is set and reported. -/
  | gooseTtl (g : Fin 64)
  /-- R333: An XHP datagram from an allowed host is queued, or answered with BUSY or FORMAT. -/
  | xhpCommandRx (e : Fin 2) (raw : EthFrame) (ip : Word) (port : BitVec 16) (bytes : List Byte)
  /-- R334: XHP READ returns words from a local address. -/
  | xhpRead
  /-- R334: XHP WRITE writes words to a local address. -/
  | xhpWrite
  /-- R334: XHP FREAD issues a fabric RD_REQ and returns its data or status. -/
  | xhpFread
  /-- R334: XHP FWRITE issues a fabric WR_REQ and returns its status. -/
  | xhpFwrite
  /-- R334: XHP ECHO returns its payload. -/
  | xhpEcho
  /-- R363: Waiting log entries are sent to the host as NOTIFY when 16 wait or 1 ms after the first. -/
  | xhpNotifySend
  /-- R338: A write of ARM runs the arming checks and starts a capture, or refuses it with CAP_ERR. -/
  | capArm (o : Origin) (val : Word)
  /-- R347: A write of STOP ends the capture at the next row, closing a record or returning to IDLE. -/
  | capStop (o : Origin) (val : Word)
  /-- R342: A write of TRIG raises trigger source 9 on the next row. -/
  | capTrigWrite (o : Origin) (val : Word)
  /-- R337: A capture row is latched at a tick or PER phase and written, compared and triggered. -/
  | capRow
  /-- R345: A write of 1 to VALID frees a record slot, re-arming a capture held in FULL. -/
  | capSlotFree (o : Origin) (r : Fin 8)
  /-- R351: Stream blocks are sent as XHP STREAM datagrams or fabric STREAM packets. -/
  | capStreamSend
  /-- R352: A STREAM packet at endpoints 48 to 55 is relayed to the XHP host or dropped when the queue is full. -/
  | streamRx (pk : Packet)
  /-- R358: The hub captures fault messages of a cycle and records, forwards and applies their reactions within 8 ns. -/
  | faultMsgCapture (raw : List (BitVec 64))
  /-- R362: A received EVENT is logged with REMOTE 1 and its node ID without reaction. -/
  | eventRx (pk : Packet)
  /-- R359: A W1C write to FLT_PENDk clears source bits, with their SAFE mask bits and DEGRADED conditions. -/
  | pendClear (o : Origin) (k : Fin 16) (val : Word)
  /-- R366: A write of 1 to VALID in FLT_FIRST_INFO clears the first-fault record. -/
  | firstFaultClear (o : Origin) (val : Word)
  /-- R377: A write of ARM in FLT_INJ prepares corruption of the next item of TARGET, or is refused. -/
  | injectArm (o : Origin) (val : Word)
  /-- R379: At each multiple of 100 µs of LT after leaving BOOT the ALIVE pin toggles. -/
  | aliveEdge
  /-- R381: A write of FLT_KICK by a core counts for that core's kick window. -/
  | aliveKickWrite (o : Origin) (val : Word)
  /-- R381: A core named in KICK_MASK misses its window and ALIVE_KICK is raised. -/
  | kickWindowExpiry
  /-- R382: A temperature monitor samples and raises TEMP_WARN or TEMP_TRIP on two samples at its limit. -/
  | tempSample (ix : Fin 4) (t : BitVec 16)
  /-- R383: A rail monitor samples and raises VOLT_WARN or VOLT_TRIP after four samples outside its window. -/
  | railSample (r : Fin 7) (mv : BitVec 16)
  /-- R384: Every 10 ms the ring oscillators are counted and PROC_DRIFT raised outside the window. -/
  | roMeasure (c0 c1 c2 c3 : BitVec 16)
  /-- R389: The Saffron self-test completes, passing or setting the safe-state latch. -/
  | selfTestDone (pass : Bool)
  /-- R391: A demand input low for IN_FILT is recognised as a Saffron demand. -/
  | demandInput (ch : Fin 2) (lowFor : BitVec 24)
  /-- R391: The two demand inputs differ for more than 10 ms and IN_DISCREP is set and reported. -/
  | inDiscrep
  /-- R392: A channel feedback differs from its output for longer than FB_DLY and FB_DISCREP is reported. -/
  | fbDiscrep (ch : Fin 2) (level : Bool) (span : BitVec 24)
  /-- R395: FB_DLY after a cell demand a feedback not reading high sets and reports ACT_FAIL. -/
  | actFbCheck (fbA fbB : Bool)
  /-- R395: At the end of ACT_TIME the outputs drop and BYPASSED, and ACT_FAILED if due, are written to MRAM. -/
  | actTimeEnd
  /-- R397: A host write of the key to SAF_REQ is a bypass demand, or is refused for energy or a wrong value. -/
  | bypassRequest (o : Origin) (val : Word)
  /-- R398: A lockstep, clock, watchdog, self-test or memory fault sets the safe-state latch as an ISLAND demand. -/
  | islandLatch (c : LatchCause)
  /-- R399: In upper roles ALIVE without an edge for 300 µs causes a SILENT demand. -/
  | aliveSilent
  /-- R400: A test falls due and starts step 1 in READY, RUN or DEGRADED, or is postponed. -/
  | testStart
  /-- R400: A write of TEST_NOW starts a test at once in the permitted modes. -/
  | testNow (o : Origin) (val : Word)
  /-- R402: A test step ends and is judged, ending the test on failure or after the last step. -/
  | testStepEnd (fbA fbB : Bool) (tst : BitVec 8)
  /-- R402: The 100 µs gap after a step ends and the next step starts. -/
  | testGapEnd
  /-- R404: No test has completed for 2 × TP_INT and TEST_OVERDUE is set and reported. -/
  | testOverdue
  /-- R406: A write of SAF_PW_LO compares the password and unlocks or counts a failure. -/
  | unlockAttempt (o : Origin) (val : Word)
  /-- R407: The password lockout time expires and attempts are compared again. -/
  | lockoutEnd
  /-- R408: A write of LOCK locks Saffron and logs the lock. -/
  | safLockCmd (o : Origin) (val : Word)
  /-- R408: 600 s after the unlock or last RWL write Saffron locks again. -/
  | unlockTimeout
  /-- R409: A write of SET while unlocked takes the new password, refusing 0. -/
  | passwordSet (o : Origin) (val : Word)
  /-- R413: A service code written while unlocked in SAFE is logged and clears BYPASSED and ACT_FAILED. -/
  | serviceRecord (o : Origin) (val : Word)
  /-- R412: A write of SAF_LOG_ACK acknowledges change-log entries up to that SEQ. -/
  | logAck (o : Origin) (val : Word)
  /-- R422: 100 ns after asserting INTL_OUT the part samples INTL_IN and side B withdraws with PAIR_CONTEND on contention. -/
  | intlRecheck (level : Bool)
  /-- R423: A standby receives a mirrored BINS, REFERENCE, TICK_REPORT or DESCENT from the active partner. -/
  | mirrorRx (pk : Packet)
  /-- R427: A YIELD_REQ makes the active part yield when a confirming first fault is recorded, else it is refused. -/
  | yieldReq (o : Origin)
  /-- R427: A write of RELINQUISH makes the active part yield while PEER_SYNCED is 1. -/
  | relinquish (o : Origin)
  /-- R428: At period minus 200 ns the yielding part drops INTL_OUT, discards work and becomes an unsynchronised standby. -/
  | yieldDrop
  /-- R433: A write of SYNC_REQ at a standby in RUN asks the active partner for a state image. -/
  | syncReq (o : Origin)
  /-- R433: The active part takes the state image after the Class S jobs of the next tick and sends it on C2. -/
  | stateImageSend
  /-- R434: The standby receives the state image packets for loading at the next tick. -/
  | stateImageRx (words : List (Word × Word)) (last : Bool)
  /-- R434: A write of PEER_UPD loads PEER_SYNCED from PEER_VAL. -/
  | peerUpd (o : Origin) (val : Word)
  /-- R460: A write of INIT 0 checks the bit rates and TDC and keeps INIT at 1 on failure. -/
  | canInitClear (o : Origin) (val : Word)
  /-- R460: After 11 consecutive recessive bits the controller joins the bus. -/
  | canBusJoin
  /-- R462: A write of REQ makes a mailbox pending, refused with FDF and RTR both set. -/
  | canTxReq (o : Origin) (mb : Fin 8) (val : Word)
  /-- R463: At the start of a frame attempt the highest-ranking pending mailbox is sent. -/
  | canTxAttempt (delay : BitVec 16)
  /-- R464: An attempt ends sent, lost in arbitration or with an error counted toward RETRY_LIM. -/
  | canAttemptEnd (r : CanEnd)
  /-- R467: A write of RECOVER while bus-off starts the recovery sequence. -/
  | canRecover (o : Origin) (val : Word)
  /-- R467: The recovery sequence ends, clearing BUSOFF, the counters and every RETRIES. -/
  | canRecoveryDone
  /-- R468: A write of CANCEL clears PENDING at the end of any attempt in progress. -/
  | canCancel (o : Origin) (mb : Fin 8)
  /-- R469: A valid received frame is stored in the FIFO with its start-of-frame LT, or dropped on overflow. -/
  | canFrameRx (f : CanRx)
  /-- R470: A write of SVB_RX_POP removes the oldest FIFO entry. -/
  | rxPop (o : Origin) (val : Word)
  /-- R472: A key level stable for DEB ms is accepted and sets PRESS or RELEASE. -/
  | keyAccept (k : Fin 8) (pressed : Bool)
  /-- R473: Each 1 ms a touch electrode is measured and TOUCHED set or cleared. -/
  | touchMeasure (t : Fin 4) (c : BitVec 16)
  /-- R473: Every 256 ms an untouched electrode's baseline moves one count toward C. -/
  | touchBaselineDrift (t : Fin 4)
  /-- R473: A touch held 30 s resets the baseline, clears TOUCHED and sets STUCK. -/
  | touchStuck (t : Fin 4)
  /-- R474: A blinking LED changes state on the LT timebase. -/
  | ledBlink (l : Fin 4)
  /-- R475: SVC_DET stable for 50 ms sets or clears PRESENT and sets CHANGED. -/
  | svcDetChange (present : Bool)
  /-- R436: A still-valid feed falls more than 200 mV below the other valid feed, or returns to within 100 mV of it, and SUP turns its gate off or on. -/
  | feedImbalance (mvA mvB : BitVec 16)
  /-- R503: During a forwarded pass of the selected up-port, with the other up-port not ACTIVE, the node sends its own tick symbol with DLY 0 on its active down-ports at the expected instant minus LEAD plus D_acc plus F. -/
  | passTickSymbolSend
  /-- R85: A receiver sees three commas in succession at a new alignment and realigns its symbol boundaries. -/
  | symbolRealign (p : Port)
  /-- R84: A receiver decodes a code violation, an unlisted K-code or a disparity error, sets CODE_ERR, counts it in TRL_PpCODE_ERR and restarts any clean-symbol count. -/
  | codeViolation (p : Port)
  /-- R317: An enabled E0 or E1 port completes auto-negotiation or SGMII link-up, and its link-up bit in STP_STATUS is set. -/
  | ethLinkUp (e : Fin 2)
  /-- R391: A SAFE_INA or SAFE_INB that was demanding returns high, clearing its demanding status and ending any input discrepancy. -/
  | demandInputRelease (ch : Fin 2)
  /-- R402: During a test step, SAFE_TST reaches TST_MIN in step 1 or 2 or exceeds TST_MAX in step 3, and the test ends at once as failed. -/
  | testCurrentFail (fbA fbB : Bool) (tst : BitVec 8)
  /-- R271: A core issues an instruction word with an unassigned opcode, fn or SYS code, and takes the ILLEGAL trap before any effect. -/
  | illegalInstruction (n : CoreId) (w : Word)
  deriving DecidableEq, Repr

end Sys2Proof
end

