-- ==== Sys2Proof/Decode.lean ====
section
/-! DEFINITION. The commands that a word spells by the bits of the spec's table: the table gives no row bits, so
no word spells one. -/

namespace Sys2Proof

/-- The command spelled by a word of nbits bits: none, since no row of the table has bits. -/
def decodeTableWord (_nbits _w : Nat) : Option Instr := none

end Sys2Proof
end

