-- ==== Sys2Proof/Config.lean ====
section
/-! DEFINITION. What an implementation fixes and the spec leaves open: free values, constants without a body. -/

namespace Sys2Proof.Config

/-- Forwarding latency of a tick symbol from an up-port to a down-port, before it is brought into the range of
R57 by `Ops.fwdLat`; ps. FREE VALUE: the spec gives a range only. -/
opaque fwdLatency : Nat → Nat → Nat

/-- From the arrival of a Cayenne, or its launch, to its departure at a port, before it is brought into the range
of R138 or R137; ps. FREE VALUE: the spec gives bounds only. -/
opaque cayLatency : Nat → Nat → Nat

/-- Access cycles of the capture RAM (10 to 26) and of a QSPI read (40 and more): Table 10-6 gives ranges.
FREE VALUE, applied to the state's counter. -/
opaque accessCycles : Nat → Nat

/-- KEYHASH, the fuses' SHA-256 of the public key (R309). FREE VALUE: fixed at manufacture. -/
opaque keyHash : Nat → BitVec 256

/-- The factory window of the ring-oscillator counts, held in fuses (R384). FREE VALUE. -/
opaque roWindow : Nat → Word

/-- What a byte of the QSPI flash that nothing has programmed reads as: the spec does not state it. FREE VALUE. -/
opaque erasedByte : Nat → Byte

/-- The frame that a transmit descriptor of the station port stands for, up to its frame check sequence: the descriptors lie
in shared SRAM, in a form the spec does not give. FREE VALUE, applied to the descriptor and the memory. -/
opaque txFrame : Nat → List Host.Cell → List Byte

/-- The arm current in A that the selection unit takes from the snapshots of the two arm-current channels, SD0 and SD1: their
scale is not in the spec (R154, Table 8-1). FREE VALUE, applied to the snapshots. -/
opaque armCurrent : Word → Word → Int

/-- The step of the 31-bit pseudo-random sequence of the SAR dither: its polynomial is not in the spec (R226). FREE VALUE. -/
opaque ditherNext : BitVec 31 → BitVec 31

/-- A result the spec does not state, by a counter of the state. FREE VALUE. -/
opaque freeWord : Nat → Word

/-- Whether a fused multiply-add of 0 and an infinity with a NaN addend sets NV: IEEE 754 leaves it to the
implementation (R273). FREE VALUE. -/
opaque fmaNv : Nat → Bool

end Sys2Proof.Config
end

