-- ==== Sys2Proof/Machine/State.lean ====
section
/-! DEFINITION. The state of one MRV7200 part as plain data: the register file, the memories, the engines of
every block, the queue of waiting commands, and the state after power-on reset. -/

namespace Sys2Proof.Machine

open Sys2Proof

/-- Why a step stops with a fault. No command of the table stops: the spec gives each an effect. -/
inductive Fault where
  /-- Raised by no meaning; safe. It stands only so that the reasons are a closed inductive. -/
  | none
  deriving DecidableEq, Repr

/-- Why a step gives no meaning. -/
inductive Refusal where
  /-- Raised by exec's arm of a command that has no meaning yet; safe. -/
  | notModelled (mnemonic : String)
  deriving DecidableEq, Repr

/-- The bring-up stages of Table 3-3 and OFF (STAGE of Table 3-8). -/
inductive Stage where
  | detect | train | lock | caps | active | off
  deriving DecidableEq, Repr, Inhabited

/-- A symbol on a link (Table 3-2): control symbol Kx.y, or a data byte. -/
inductive Sym where
  | ctl (x y : Nat)
  | dat (b : Byte)
  deriving DecidableEq, Repr, Inhabited

/-- A C3 packet in transmission, or cut into by a C1 packet (R133): whether it uses the data queue, how many of its
flits had left at the cut, whether it waits to resume, and whether its CRC was good. -/
structure Resume where
  pk   : Packet
  data : Bool
  gone : Nat
  held : Bool
  good : Bool
  deriving DecidableEq, Repr, Inhabited

/-- One Trellis port: its bring-up (R93), its receiver and its transmit queues (R132). Its configuration and
its W1C flags stand in the register file. -/
structure PortSt where
  stage     : Stage
  fwd       : Bool          -- MODE: forwarded
  fwdPass   : Bool          -- in the second pass of R92
  since     : Nat           -- LT at which the stage was entered
  fails     : Nat           -- FAILS: timeouts since power-on
  retries   : Nat           -- timeouts in succession (R95)
  holdUntil : Nat           -- LT before which DETECT may not be left (R95)
  polInv    : Bool
  peerOk    : Bool
  peerId    : Option (BitVec 14)  -- node ID of the peer, from the SRC of a link-local packet (R120)
  idleRx    : Bool
  idleTx    : Bool
  idleTill  : Nat           -- LT at which a running idle exit completes (R106)
  deskew    : BitVec 6
  cleanFrom : Nat           -- LT from which symbols have been clean (R93, LOCK)
  errs      : List Nat      -- LT of the violations within the last 1,024 symbols (R102)
  hop       : List Int      -- hop-delay results of the measurement in progress, in units of 1/2 ps (R60)
  hopDelay  : Int           -- mean hop delay in ps
  capsGood  : Nat           -- good CAPS blocks received in this exchange that agree (R98)
  capsFirst : List Byte     -- the first good block of this exchange (R101)
  capsAck   : Bool          -- a block with ACK set has been received (R101)
  powered   : Bool          -- the lane is powered (R444 to R446)
  crC2      : Nat           -- credit: C2 packets (R135)
  crC3d     : Nat           -- credit: C3 flits, data queue
  crC3m     : Nat           -- credit: C3 flits, management queue
  q1        : List Packet   -- waiting C1 packets
  q2        : List Packet
  q3d       : List Packet
  q3m       : List Packet
  qx        : List Packet   -- packets to be ended with K30.7 (R122)
  capsN     : Nat           -- blocks repeated in the present CAPS stage (R101)
  turn      : Nat           -- C3 packets sent in the present weighted round (R132)
  cut       : Option Resume -- a C3 packet in transmission or pre-empted (R133)
  alignTick : Nat           -- ticks since the last ALIGN on this port (R500)
  lastTx    : Nat           -- LT at which the packet in transmission ends
  quietFrom : Nat           -- LT from which nothing but fill has left (R104)
  cayBusy   : Nat × Nat     -- the span in which the last Cayennes occupy the transmitter, ps (R87)
  skipAt    : Nat           -- LT of the last skip set (R88)
  deriving DecidableEq, Repr, Inhabited

/-- A running eye scan (R108, R109): its port, whether it sweeps, its point and the LT at which that point began. -/
structure Eye where
  port  : Nat
  sweep : Bool
  pt    : Nat
  begun : Nat
  deriving DecidableEq, Repr, Inhabited

/-- A tick symbol received for a coming tick (R57, R58): its number's low bits, DLY and arrival in ps. -/
structure TickSym where
  tt    : BitVec 6
  dly   : BitVec 2
  at_ps : Nat
  deriving DecidableEq, Repr, Inhabited

/-- The timekeeper's state beyond its registers (R38 to R79, R500, R501). -/
structure Tmk where
  tick     : BitVec 40
  phase    : BitVec 15
  period   : Nat             -- period in force, units of 0.5 µs
  lastPs   : Nat             -- instant of the last applied tick, ps on the LT scale
  ticked   : Bool            -- a tick has been applied since reset
  held     : Bool            -- a tick number and period are held from CAPS (R99) or generated
  okNo     : Bool            -- the tick number is consistent (R45, R50)
  pt       : KV Nat          -- PT instances, units of 2^-32 ns
  latch    : KV Word         -- latched higher words (R41), by register address
  coupled  : Bool
  slewing  : Bool
  slewAcc  : Int             -- exact place of the last boundary beyond its 2 ns grid point, 2^-20 ps (R47)
  rate     : Int             -- PT0 rate last in effect while PT0_VALID was 1 (R53)
  follow   : Bool            -- STATION: it takes its tick from its PARTNER port (R432)
  nextPs   : Nat             -- STATION: instant of the next boundary, ps
  second   : Bool            -- PARENT: the secondary parent is selected
  sym      : KV (Option TickSym) -- symbols received per port for the coming tick
  annPer   : Option (Nat × BitVec 40)        -- announced period and its k
  annNum   : Option (BitVec 40 × BitVec 40)  -- announced renumbering: k and the grid number
  missRun  : Nat
  path     : Bool            -- PATH of the last ALIGN on the selected up-port (R500)
  dacc     : Nat             -- D_acc of the selected path, ps
  daccPort : KV Nat          -- D_acc by up-port, ps
  daccNew  : KV (Option Nat) -- measured, applied at the next boundary (R61)
  dout     : KV Nat          -- D_out received from the peer, ps (R99)
  align    : Bool            -- TT_ALIGN as last evaluated
  passSent : Bool            -- the own tick symbol of a forwarded pass is sent for this tick (R503)
  launched : Bool            -- STATION: the symbol of the coming tick is launched (R56)
  deriving DecidableEq, Repr, Inhabited

/-- A request tracked by the router (R136): its endpoint index (0 a core's, 1 the XHP engine's, 2 the discovery walker's),
its core, SEQ and class, when it was sent, to whom. -/
structure Req where
  ep   : Fin 3
  core : CoreId
  seq  : BitVec 8
  cls  : BitVec 2
  sent : Nat
  dest : BitVec 20
  deriving DecidableEq, Repr, Inhabited

/-- A node a walk has numbered (R114, R115, R131). -/
structure NodeRec where
  uid    : BitVec 64
  node   : BitVec 14
  role   : Nat
  parent : BitVec 14
  port   : Nat
  alt    : Bool             -- numbered over its secondary link
  depth  : Nat
  last   : BitVec 14        -- last ID of its primary subtree
  sideB  : Bool             -- an ARM part of side B
  second : Option (BitVec 14 × Nat)  -- its secondary parent, with the port toward it (R126)
  deriving DecidableEq, Repr, Inhabited

/-- A range entry that a walker has written: node, port and place, its range, and whether it is a repair (R126). -/
structure Ent where
  node   : BitVec 14
  port   : Nat
  k      : Nat
  lo     : BitVec 14
  hi     : BitVec 14
  alt    : Bool
  repair : Bool
  deriving DecidableEq, Repr, Inhabited

/-- The discovery walker (R128): what it still has to probe and what it has numbered. -/
structure Walk where
  running : Bool
  done    : Bool
  arm     : Bool                          -- a delegated walk of an arm's block
  base    : BitVec 14
  size    : Nat
  next    : Nat                           -- next ID to give
  nextBlk : Nat                           -- next arm block (STATION)
  count   : Nat                           -- nodes numbered
  todo    : List (BitVec 14 × Nat)        -- (node, port) still to probe, in order; 8 + port: PARTNER; 16 + port: UP;
                                          -- 6: the node's end
  cur     : Option (BitVec 14 × Nat)
  tries   : Nat
  askedAt : Nat                           -- LT of the last PROBE
  known   : List NodeRec
  later   : List (BitVec 14 × Nat)        -- secondary links to walk after the primary ones (R115)
  phase   : Nat                           -- 0 primary links; 1 cells without an ACTIVE primary link; 2 the other ones
  mark    : Nat                           -- nodes known when the present pass over secondary links began
  ents    : List Ent                      -- range entries written
  silent  : List (BitVec 14 × Nat)        -- ports recorded as SILENT
  deleg   : List (BitVec 20)              -- delegations that have not returned
  blocks  : List (BitVec 14 × BitVec 14)  -- arm parts (by ID) and the block base of their pair
  client  : BitVec 20                     -- who delegated this walk
  deriving DecidableEq, Repr, Inhabited

/-- The router's state beyond its registers. -/
structure Trr where
  nodeId  : Option (BitVec 14)
  reqs    : List Req
  orphans : List (Nat × Packet)  -- packets held on a port that has left ACTIVE, with that port (R103, R111)
  cayAt   : Nat               -- arrival of the recorded Cayenne, ps, at 5 ps resolution (R86)
  hold    : KV (Option Nat)   -- absorption holds: by scope, the LT at which each ends (R139)
  walk    : Walk
  via     : List (Nat × BitVec 20 × BitVec 8)  -- ports being probed for a remote walker (PROBE_VIA)
  wseq    : BitVec 8                  -- SEQ of the walker's next request
  deriving DecidableEq, Repr, Inhabited

/-- One Rake histogram (Table 5-3). -/
structure Hist where
  held : Nat
  c2r  : Nat
  c2x  : Nat
  cnt  : KV Nat               -- counts 0 to 63
  deriving DecidableEq, Repr, Inhabited

/-- The bins a node holds for a tick (Table 5-2). -/
structure Bins where
  base  : Nat
  width : Nat
  hold  : Nat
  deriving DecidableEq, Repr, Inhabited

/-- The cell states of Table 6-1. -/
inductive Cell where
  | zero | plus | minus | blocked | bypassed
  deriving DecidableEq, Repr, Inhabited

/-- What a cell has decided for its coming edge: the state, and for a fractional cell the duty's T_on in
2 ns units (R177, R180). -/
structure Decision where
  st   : Cell
  frac : Bool
  ton  : Nat
  deriving DecidableEq, Repr, Inhabited

/-- The quota a descent carries (Table 5-4). -/
structure Quota where
  plane : Bool
  hold  : Bool
  cb    : Nat
  dir   : Bool
  neg   : Bool
  frac  : Bool
  bin   : Nat
  q     : Nat
  fduty : Nat
  deriving DecidableEq, Repr, Inhabited

/-- A forced state in test (R187 to R189). -/
structure Forced where
  st    : Cell
  left  : Nat               -- edge instants for which it still holds the state
  deriving DecidableEq, Repr, Inhabited

/-- A fractional pulse in progress (R180 to R183): the LT of its off edge, its final T_on in 2 ns units, and
whether the edge was limited or moved. -/
structure Pulse where
  offAt : Nat
  ton   : Nat
  clip  : Bool
  defer : Bool
  deriving DecidableEq, Repr, Inhabited

/-- The Riddle's state beyond its registers: the cell node, the merge and the selection unit. -/
structure Rdl where
  cls     : Nat               -- 0, 1, 2 (2R), 3 (2X)
  cause   : BitVec 7
  bin     : Nat
  bins    : Option Bins       -- in force this tick
  binsNew : Option Bins       -- kept for the next tick
  hot     : Bool              -- the temperature cause is held (Table 5-1)
  state   : Cell              -- the state the cell holds
  fracNow : Bool              -- it holds it as the fractional cell
  dec     : Option Decision   -- decided for this tick
  gotDesc : Bool              -- a DESCENT has arrived in this tick, or its deadline has passed
  holdRun : Nat
  edgeDone : Bool             -- the edge of this tick has been placed
  legB    : Option Cell       -- leg B still to move to this state (R178)
  pulse   : Option Pulse
  forced  : Option Forced     -- the forced state in effect
  forceNow : Option Forced    -- takes effect at the edge instant of this tick
  forceNew : Option Forced    -- accepted, waits for the next tick application
  limit   : Nat               -- HOLD_LIMIT of the last BINS in force
  first   : Bool              -- the Riddle starts: full-scale bins are sent (R147)
  lastN   : Int               -- N and FDUTY of the last selection
  lastF   : Nat
  inp     : KV (Option Hist)  -- inputs of this tick by plane*8 + port
  prev    : List Nat          -- plane*8 + port that delivered in the previous tick
  heldCnt : KV Nat            -- full-state count of each port's subtree (R164)
  heldRun : KV Nat            -- ticks in succession each port has been held (R166)
  heldNow : List Nat          -- ports counted as held in this tick
  bad     : List Nat          -- plane*8 + port whose input has begun and failed its CRC in this tick (R151)
  quiet   : KV Nat            -- ticks in succession in which each port delivered nothing (R167)
  late    : Bool              -- LEVEL_DL has passed without GO in this tick (R153)
  iArm    : Int               -- arm current of the snapshot, A (R154)
  sentA   : Bool              -- plane A output sent this tick
  sentB   : Bool
  hist    : Option Hist       -- ARM: merged histogram of the own plane, when complete
  selDone : Bool              -- the selection has run this tick
  quota   : Quota             -- the last selection
  starve  : Bool              -- a run of 2R boundaries is in progress (R156)
  swTemp  : Option (Nat × List Word)  -- switch-temperature curve: channel and LUT words
  deriving DecidableEq, Repr, Inhabited

/-- The switch guard's state beyond its registers (R190 to R209). -/
structure Swg where
  gcmd    : BitVec 8
  want    : BitVec 8          -- switches the cell state requires on
  waitOn  : BitVec 8          -- turn-ons that wait under R194
  shoot   : BitVec 4          -- legs held low by R193
  own     : BitVec 8          -- channels whose next turn-on counts its dead time from their own last turn-off (R195)
  mute    : BitVec 8          -- channels whose GCMD the turn-off dropped: R208 alone judges them until its check (R196)
  gfb     : BitVec 8          -- gate state after GFB_INV
  softoff : Bool
  tripped : Bool
  seqAt   : Option Nat        -- LT origin of the running turn-off sequence
  offChk  : Bool              -- the check of R208 is still to come
  asked   : Bool              -- Safe Bypass has been requested for it
  offLt   : KV Nat            -- LT at which each GCMD last went low
  onLt    : KV Nat            -- LT at which each GCMD last rose
  fbDue   : KV (Option Nat)   -- LT of the pending feedback check
  desat   : BitVec 8          -- desaturation comparators active
  hs      : BitVec 8          -- hard-short comparators active
  armed   : BitVec 8
  cyc     : KV Nat            -- on-off cycles in this tick, by channel
  onTick  : BitVec 8          -- GCMD was high at some time in this tick
  deriving DecidableEq, Repr, Inhabited

/-- The supply keeper's state beyond its registers (R210 to R216, R435 to R446). -/
structure Sup where
  validA  : Bool
  validB  : Bool
  seenA   : Bool              -- the feed has been valid since power-on (R484)
  seenB   : Bool
  gateA   : Bool
  gateB   : Bool
  mvA     : BitVec 16
  mvB     : BitVec 16
  eAvail  : Nat
  head    : Int
  low     : Bool
  capIn   : Bool
  resRun  : Bool              -- a run of recomputes with H below 0
  pow     : List Nat          -- feed power of the last ticks, newest first (at most 64)
  cycs    : List (List Nat)   -- on-off cycles per channel of the last ticks (at most 64)
  vbs     : KV Nat            -- V_BS by channel, mV
  tRem    : KV Nat
  vTicks  : KV Nat            -- µV drawn below vbs by extrapolation
  stage   : BitVec 6          -- bit n: stage n powered (bit 0 unused)
  waiting : Nat               -- stage that waits for admission
  holdLow : Bool              -- HOLDUP_LOW has been reported and not recovered
  wake    : Bool              -- PRECHARGE has been entered since the last chip reset (R444)
  rails   : KV (Option Bool)  -- whether the last sample of each rail lay inside nominal +- TRIP_PCT (R440, R485)
  deriving DecidableEq, Repr, Inhabited

/-- A sinc3 decimation filter: three integrators, and the words its three combs hold (R230). -/
structure Sinc where
  i1 : Word
  i2 : Word
  i3 : Word
  d1 : Word
  d2 : Word
  d3 : Word
  deriving DecidableEq, Repr, Inhabited

/-- A sigma-delta result: RESULT, the LT at which its frame ended, and SD_VALID with it. -/
structure SdWas where
  res : Word
  lt  : Nat
  ok  : Bool
  deriving DecidableEq, Repr, Inhabited

/-- One SAR conversion list and the results waiting for the tick (R219 to R223). -/
structure Sns where
  running : Bool              -- a tick group is being converted
  begun   : Bool              -- the group of the coming tick has been started (R219)
  groupAt : Nat               -- LT at which its first slot started
  convAt  : Nat               -- LT at which the last conversion ended (R218)
  entry   : Nat               -- its entry in conversion
  done    : KV (Option Word)  -- converted VALUE by channel, waiting for the tick
  doneLt  : KV Nat            -- LT at which each was converted (R21)
  late    : KV (Option Word)  -- converted VALUE that became valid in the cycle of the last tick (R21)
  prbs    : BitVec 31         -- the pseudo-random sequence of the dither (R226)
  scan    : Nat               -- next scan channel
  stale   : List Nat          -- channels stale in this tick
  frozen  : BitVec 17
  tFrozen : BitVec 17         -- FROZEN at the last tick (R20)
  dSum    : KV Int            -- S of the running block (R227)
  dCnt    : KV Nat
  dLast   : KV Int            -- r of the sample before
  sinc    : KV Sinc           -- the filters of the sigma-delta channels
  sdBit   : KV Bool           -- the last modulator bit taken
  sdRaw   : KV Int            -- y of the sigma-delta frame before
  sdFrm   : KV Nat            -- complete frames since enable or loss
  sdAt    : KV Nat            -- LT of the end of the latest frame
  sdWas   : KV SdWas          -- the result before the latest (R21)
  sdValid : BitVec 8
  sdLost  : BitVec 8          -- in loss: no result until three complete frames with transitions (R232)
  tSd     : BitVec 8          -- SD_VALID at the last tick (R20)
  sdSame  : KV Nat            -- identical results in succession (Table 9-5)
  rawA    : Bool              -- level on PULSE_A, and the LT of its last change (R234)
  rawAAt  : Nat
  rawB    : Bool
  rawBAt  : Nat
  pa      : Bool              -- accepted level on PULSE_A
  pb      : Bool
  edgeLt  : Option Nat        -- LT of the last rising edge of PULSE_A
  noPulse : Bool
  tQuiet  : Bool              -- NO_PULSE at the last tick (R20)
  pFrom   : Nat               -- LT from which the pulse timeout runs (R237)
  pPrev   : Word              -- count or period before the last change, and the LT of that change (R21)
  pLt     : Nat
  limRun  : KV Nat            -- limit checkers: results in succession above TH
  limOk   : KV Nat            -- results in succession at or below TH
  limUp   : KV Bool           -- LIMIT has been raised and is not re-armed
  deriving DecidableEq, Repr, Inhabited

/-- The states of a Class S instance (STATE of Table 9-11). -/
inductive LoopSt where
  | off | settle | normal | coast | hold | stopped
  deriving DecidableEq, Repr, Inhabited

/-- A Class S instance beyond its registers and state memory. -/
structure Inst where
  st      : LoopSt
  runCnt  : Nat
  feCnt   : Nat
  loss    : Nat
  seeded  : Bool              -- the directly measured states are set (R256)
  okRun   : Bool              -- HOLD: the tick before had every measurement valid (R254)
  bank    : Bool
  setHold : BitVec 8          -- set-points held (R250)
  rsrc    : KV Word           -- set-point selectors in force
  ran     : Bool              -- the job of this tick has run, or none is due in it
  deriving DecidableEq, Repr, Inhabited

/-- A trigger of a cascade; the sigma-delta channel and RESULT that gave it, if one did (Table 9-4). -/
structure QTrig where
  c   : Nat
  hit : Option (Nat × Word)
  deriving DecidableEq, Repr, Inhabited

/-- A run of a cascade under way: the LT at which it completes, and what it leaves then. -/
structure QRun where
  c     : Nat
  hit   : Option (Nat × Word)
  till  : Nat
  out   : Word
  sat   : Bool
  first : Nat                 -- its first section, and S1 and S2 of each
  secs  : List (Word × Word)
  deriving DecidableEq, Repr, Inhabited

/-- The loop engine beyond its registers. -/
structure Lpe where
  inst    : KV Inst
  pend    : List QTrig        -- triggers of cascades that have not been run
  runs    : List QRun         -- runs that have not completed
  hreg    : KV Word           -- LPE_HREGn as latched at the tick application (R241)
  ref     : Option (BitVec 8 × List Word)  -- reference buffer (R301)
  refRun  : Bool              -- a run of ticks without a REFERENCE
  deriving DecidableEq, Repr, Inhabited

/-- The states of a core (STATE of Table 10-12). -/
inductive CoreSt where
  | off | halted | running | waiting | double | pruned
  deriving DecidableEq, Repr, Inhabited

/-- What a waiting core waits for: TWAIT, or WAIT with its mask and destination. -/
inductive WaitFor where
  | tick
  | flags (gd : GReg) (mask : Word)
  deriving DecidableEq, Repr, Inhabited

/-- One Zynul core: its programming model, its scratchpads and its receive queue. -/
structure Core where
  st      : CoreSt
  g       : KV Word
  p       : BitVec 8
  pc      : Word
  ie      : Bool
  exl     : Bool
  pie     : Bool
  epc     : Word
  cause   : Nat
  nested  : Bool
  ev      : Word
  evNew   : Word              -- flags that events have set in this clock cycle (R282)
  fpsr    : BitVec 8
  loopCnt : Word
  loopEnd : Word
  loopTop : Word              -- first instruction of the active loop body
  cycle   : Word
  frame   : Nat               -- shared-SRAM frame cycle, 0 to 15
  wait    : Option WaitFor
  woken   : Bool              -- a tick has been applied since the TWAIT issued
  stepOne : Bool              -- STEP: one instruction from the halted state
  rxq     : List Packet
  txq     : List Packet       -- packets of this core waiting for the router, at most 4 (R292)
  dropRun : Bool              -- a run of drops at the full queue
  iscr    : List Host.Cell
  dscr    : List Host.Cell
  nmtReq  : Bool              -- an NMT waits for an instruction boundary
  deriving DecidableEq, Repr, Inhabited

/-- An XHP command in the queue (Table 12-5, R333). -/
structure XCmd where
  ip   : Word
  port : BitVec 16
  op   : Nat
  tag  : Word
  data : List Word
  deriving DecidableEq, Repr, Inhabited

/-- A frame waiting on an Ethernet port: its group in the order of R319 (1 to 5), its length in bytes, the UDP
address and port it goes to where it is an XHP datagram, its content, and the port and LT of its arrival where it is
forwarded. -/
structure EthTx where
  group : Nat
  len   : Nat
  dest  : Option (Word × BitVec 16)
  what  : List Byte
  rx    : Option (Nat × Nat)
  deriving DecidableEq, Repr, Inhabited

/-- The receive stamps of a PTP event message (R322): LT, and each bound PT instance with its value. -/
structure Stamp where
  at_lt : Nat
  pts   : List (Nat × Nat)
  deriving DecidableEq, Repr, Inhabited

/-- A descriptor of the firmware receive ring: the frame without its redundancy tag, and its stamps. -/
structure RxDesc where
  bytes : List Byte
  stamp : Option Stamp
  deriving DecidableEq, Repr, Inhabited

/-- A stored sample of a subscription (R326): values with qualities, smpCnt, smpSynch. -/
structure SvSample where
  values : List (Word × Word)
  cnt    : BitVec 16
  synch  : BitVec 8
  deriving DecidableEq, Repr, Inhabited

/-- The station port beyond its registers. -/
structure Stp where
  link    : BitVec 2          -- link up, by port
  dup     : List (BitVec 48 × BitVec 16 × Nat)  -- duplicate table: source, sequence, LT
  fwdSeen : List (Nat × BitVec 48 × BitVec 16)  -- HSR: forwarded (direction, source, sequence)
  ring    : List RxDesc       -- firmware receive ring
  stamp   : KV (Option Stamp) -- stamps of the last PTP event message of each port
  pdReq   : KV (Option (Nat × Nat × Nat))  -- last Pdelay_Req by 256 * port + domain: sequenceId, source port identity, LT
  lchAt   : KV (Option Nat)   -- LT of the target of the last frame launched on each port (R75)
  supAt   : Nat               -- LT of the last supervision frame, and their number (Table 12-1)
  supNo   : Nat
  txq     : KV (List EthTx)   -- waiting frames by port
  busyTil : KV Nat            -- LT until which each port sends
  xq      : List XCmd         -- queued XHP commands
  xfly    : List (BitVec 8 × XCmd)  -- FREAD and FWRITE outstanding, by SEQ
  xseq    : BitVec 8
  svNow   : KV SvSample       -- latest sample of each subscription, and the one before it (R21)
  svPrev  : KV SvSample
  svAt    : KV Nat            -- LT of the last accepted frame
  svSeen  : KV Bool           -- a frame has been accepted since EN was set
  svLate  : KV Bool           -- TIMEOUT
  svGood  : KV (BitVec 32)    -- good quality of each snapshot value (R327)
  svHad   : KV Bool           -- a snapshot of an accepted sample has been taken
  svIdle  : KV Nat            -- ticks in succession without an advance of smpCnt
  svSame  : KV Nat            -- identical values in succession, by 32*s + v
  pubNo   : KV Nat            -- samples published, per publication
  gSt     : KV Nat            -- stNum of GOOSE publication g
  gSq     : KV Nat
  gStep   : KV Nat            -- repetitions since CHANGE
  gDue    : KV (Option Nat)   -- LT of the next repetition
  gsSeen  : KV Bool           -- a frame of GOOSE subscription g has been accepted
  gsDue   : KV (Option Nat)   -- LT at which timeAllowedToLive expires
  notify  : List (Nat × List Word)  -- log entries waiting for NOTIFY, each with its LT
  deriving DecidableEq, Repr, Inhabited

/-- The capture states (STATE of CAP_STATUS). -/
inductive CapSt where
  | idle | pre | post | full | stream
  deriving DecidableEq, Repr, Inhabited

/-- The capture engine beyond its registers and the capture RAM. -/
structure Cap where
  st      : CapSt
  err     : Nat
  slot    : Nat
  preCnt  : Nat               -- pre-trigger rows written since arming
  postCnt : Nat
  trig    : BitVec 11         -- triggers waiting for a row (sources 8 to 10)
  src     : BitVec 11         -- sources of the record's trigger row
  stamp   : List Word         -- stamp words of the trigger row
  up      : BitVec 8          -- armed_up of each comparator
  dn      : BitVec 8
  stop    : Bool
  rearm   : Bool              -- re-arm at the next row
  rseq    : BitVec 16
  bseq    : BitVec 16
  rows    : List (List Word)  -- rows of the open stream block
  rowHdr  : List Word         -- its header words 1 to 4 and the flags
  fifo    : List (Nat × List Word)  -- closed stream blocks not yet sent, each with the LT at which it was queued
  gap     : Nat               -- rows lost in the running overflow
  gapHdr  : List Word
  rowN    : Nat               -- rows taken in this tick
  relay   : List (List Word × BitVec 14)  -- relayed blocks waiting for the XHP port
  deriving DecidableEq, Repr, Inhabited

/-- The fault hub beyond its registers. -/
structure Flt where
  bus     : List (Nat × BitVec 64)   -- messages reported and not yet captured, with their LT
  capLt   : Option Nat               -- LT of the last capture, and the messages it captured (R366)
  capMsgs : List (BitVec 64)
  degTil  : Option Nat               -- LT at which the DEGRADED timer expires (R373)
  degSrc  : List Nat                 -- sources that took or kept the part DEGRADED
  degNow  : Nat                      -- source of the timer in force
  alive   : Bool                     -- level on ALIVE
  running : Bool                     -- it has begun to toggle (R379)
  stopped : Bool                     -- ALIVE-stop (R380)
  lastEdge : Nat                     -- LT of the last edge
  kickBeg : KV Nat                   -- LT at which each core's kick window began
  kicked  : BitVec 4
  tCnt    : KV Nat                   -- TEMP: consecutive samples at WARN (n) and TRIP (4 + n)
  tUp     : KV Bool
  vCnt    : KV Nat                   -- RAIL: consecutive samples outside WARN (r) and TRIP (7 + r)
  vIn     : KV Nat
  vUp     : KV Bool
  hub     : Nat                      -- index of the next log entry
  rstBlk  : KV (Option Nat)          -- LT at which a block was put in reset (R370)
  first   : List (Nat × Nat)         -- (source, kind) reported since the source's PEND bit was cleared
  ecc     : KV Nat                   -- inverted check bits of injected words, by word address / 16
  deriving DecidableEq, Repr, Inhabited

/-- The Saffron island, which a chip reset does not touch (R386). -/
structure Saf where
  tested  : Bool              -- the self-test has passed
  testRun : Bool              -- the self-test has completed
  outA    : Bool
  outB    : Bool
  fbA     : Bool
  fbB     : Bool
  inA     : Bool              -- SAFE_INA demanding
  inB     : Bool
  lowA    : Option Nat        -- LT since which each input has been low (R391)
  lowB    : Option Nat
  inChg   : Nat               -- LT of the last change of either input
  demand  : BitVec 8
  latched : Bool
  act     : Option Nat        -- LT at which an actuation ends
  actChk  : Option Nat        -- LT of its feedback check
  actErr  : Bool              -- ACT_FAIL of the running actuation
  risen   : Bool              -- the outputs have risen for the first time (R390)
  leftSafe : Bool             -- the part has left SAFE since the demand (R394)
  outAt   : Nat               -- LT of the last change of an output
  test    : Option (Nat × Bool × Nat)  -- step, in its gap, LT at which it ends
  chFault : BitVec 2
  last    : Nat
  due     : Option Nat        -- LT at which the next test falls due
  okAt    : Nat               -- LT from which the time in READY, RUN and DEGRADED without a completed test counts (R404)
  okAcc   : Nat               -- that time, outside these modes
  unlocked : Bool
  lockAt  : Nat               -- LT at which it locks again (R408)
  pwHi    : Word
  newHi   : Word
  newLo   : Word
  refused : Nat
  lockTil : Nat               -- LT at which the lockout ends (R407)
  fullRun : Bool              -- a run of refusals at a full log (R412)
  closed  : Option Bool       -- the bypass switch has closed since power-on, or power-on found it so (R7, R413);
                              -- whether its actuation failed
  deriving DecidableEq, Repr, Inhabited

/-- The island's and the part's fields kept in MRAM, outside the addressed array (R387, R407, R413, R443). -/
structure Nv where
  uid     : BitVec 64
  pwrCnt  : Word
  bypassed  : Bool
  actFailed : Bool
  fails   : Nat
  digest  : BitVec 256
  default : Bool              -- the factory password is in force
  log     : KV Word           -- change log, 8 words an entry, key 8*i + w
  logSeq  : Word              -- SEQ of the newest entry
  logNext : Nat               -- index of the next entry
  unack   : Nat               -- unacknowledged entries
  deriving DecidableEq, Repr, Inhabited

/-- The pair logic (R416 to R434). -/
structure Pair where
  intlOut : Bool
  intlIn  : Bool
  active  : Bool
  gap     : Bool
  synced  : Bool
  syncing : Bool
  peerSyn : Bool
  mmRun   : Nat
  lowRun  : Nat
  wasAct  : Bool              -- active since the last chip reset
  bWait   : Nat               -- further low readings seen by side B
  asked   : Bool              -- YIELD_REQ sent and MM_RUN not yet back at 0
  yieldTk : Option (BitVec 40)  -- tick at whose end the part yields
  recheck : Option Nat        -- LT of the assertion whose re-check is to come
  own     : List Packet       -- own packets held back for comparison
  peer    : List Packet       -- mirrored packets of this tick
  passed  : List Packet       -- packets of the partner routed in this tick whose mirrored copy is still to come (R423)
  match_  : Nat               -- compared ticks that matched since the image was loaded
  imgReq  : Bool              -- ACTIVE: an image is asked for
  imgTick : Bool              -- it is taken in this tick
  image   : List (Word × Word)  -- STANDBY: image words received (address, value)
  imgEnd  : Bool              -- the image is whole
  loaded  : Bool              -- an image has been loaded and SYNCED is not yet set
  deriving DecidableEq, Repr, Inhabited

/-- What a mode transition changed, for the rest of its 2 ns cycle: a demand for SAFE in that cycle drops the
transition (R8). -/
structure Undo where
  at_lt  : Nat
  mode   : Mode
  cause  : BitVec 7
  alive  : Bool × Nat         -- ALIVE has begun to toggle, and its last edge
  saf    : Saf
  nv     : Nv
  trip   : Bool
  first  : Bool               -- the Riddle starts
  active : Bool               -- of the pair
  wake   : Bool
  inst   : KV Inst
  words  : List Word          -- state memory of the Class S instances
  deriving DecidableEq, Repr, Inhabited

/-- A loading or loaded table set (R306 to R308). -/
structure Tbl where
  busyTil : Option Nat        -- LT at which the running load ends
  result  : Nat               -- the result it ends with
  record  : Nat
  setId   : Word
  touched : List Nat          -- registers the loaded set's pass 2 wrote
  loaded  : Bool
  deriving DecidableEq, Repr, Inhabited

/-- SYS beyond its registers. -/
structure Sys where
  strap   : BitVec 3
  mode    : Mode
  refuse  : Nat
  cause   : BitVec 7          -- SAFE_CAUSE
  cmd     : Option (Nat × Bool)  -- accepted TARGET waiting for the tick, and whether the host wrote it
  cmdDue  : Bool              -- a tick has been applied since it was accepted
  inReset : Bool
  porRst  : Bool              -- the reset in force is a power-on reset
  pinLow  : Bool              -- RST_N holds it
  stopped : Bool              -- the boot ROM has stopped (R3, R311, R488)
  barred  : Bool              -- the part behaves as R3 gives: a reserved strap, or TESTMODE high (R488)
  testmode : Bool             -- TESTMODE was high at reset release: JTAG takes factory test instructions only (R488)
  bootOk  : Bool              -- a core runs from a valid slot
  lateTold : Bool             -- TP_LATE has been reported in this tick (R299)
  discLt  : Option Nat        -- LT of the last discard event (R35)
  discPri : Nat               -- its breadth: 4 chip reset, 3 switch-over, 2 Pruning, 1 block reset
  qspi    : Option (Nat × Nat)  -- operation and offset in progress
  undo    : Option Undo       -- the last mode transition (R8)
  tbl     : Tbl
  pair    : Pair
  deriving DecidableEq, Repr, Inhabited

/-- The service bus and the panel beyond their registers. -/
structure Svb where
  tec     : Nat
  recErr  : Nat
  busOff  : Bool
  recov   : Bool
  joined  : Bool
  pend    : BitVec 8          -- PENDING by mailbox
  cancel  : BitVec 8          -- cancels that wait for the end of an attempt
  cur     : Option (Fin 8)    -- mailbox whose attempt is in progress
  ssp     : Option Nat        -- secondary sample point of the attempt, in quanta after the transmitted edge (R461)
  idleAt  : Nat               -- LT before which no attempt starts: intermission and suspend time (R465)
  fifo    : List CanFrame
  rxAt    : Option Nat        -- LT at which the last frame was stored (R470)
  rxLost  : Option (Nat × CanFrame × Word × Word)  -- the last frame dropped: its LT, and SVB_RX_STAT and SVB_STAT before
  tcnt    : KV Nat            -- touch: consecutive measurements toward TOUCHED
  tclr    : KV Nat
  touched : BitVec 4
  base    : KV Nat            -- touch baselines B
  tLt     : KV Nat            -- LT at which each electrode was touched
  bAt     : KV Nat            -- LT from which the next move of each baseline counts
  rawKey  : BitVec 8          -- key pins as sampled, 1 pressed, and the LT of the last change of each (R472)
  keyAt   : KV Nat
  level   : BitVec 8          -- accepted key levels, 1 pressed
  led     : BitVec 4          -- LED currents flowing
  svcRaw  : Bool              -- SVC_DET low, and the LT of its last change (R475)
  svcAt   : Nat
  present : Bool
  deriving DecidableEq, Repr, Inhabited

/-- What leaves the part: the model's own record, newest last, for the environment to read. -/
inductive Sent where
  | tick (p : Port) (tt : BitVec 6) (dly : BitVec 2) (at_ps : Nat)
  | cayenne (p : Port) (scope : BitVec 2) (hops : BitVec 6) (at_ps : Nat)
  | skip (p : Port)
  | packet (p : Port) (pk : Packet) (resumed crcOk : Bool) (line : List Sym)
  | aborted (p : Port) (pk : Packet) (line : List Sym)
  | broken (p : Port)
  | eth (e : Fin 2) (f : EthTx)
  | can (mb : Fin 8) (f : CanFrame)
  | caps (p : Port) (ack : Bool) (block : List Byte)
  | idle (p : Port) (enter : Bool)
  deriving DecidableEq, Repr, Inhabited

/-- The whole state of the part. -/
structure State where
  lt      : BitVec 64         -- local time, 2 ns (R39)
  regs    : KV Word           -- every register that holds a value of its own, by address
  mem     : List Host.Cell    -- shared SRAM, capture RAM, MRAM and flash, by local address (Table 1-2)
  ports   : KV PortSt
  eye     : Option Eye
  cores   : KV Core
  sys     : Sys
  tmk     : Tmk
  trr     : Trr
  rdl     : Rdl
  swg     : Swg
  sup     : Sup
  sns     : Sns
  lpe     : Lpe
  stp     : Stp
  cap     : Cap
  flt     : Flt
  saf     : Saf
  nv      : Nv
  svb     : Svb
  hwSet   : List (Nat × Word) -- W1C bits hardware has set in this 2 ns cycle (R12)
  swSet   : List (Nat × Word) -- W1S bits software has set in this 2 ns cycle (R13)
  rdata   : Word              -- what the last read command returned
  sent    : List Sent         -- what has left the part
  free    : Nat               -- the model's own counter of free values
  pending : List Instr        -- the commands that wait, first in, first out
  deriving DecidableEq, Repr, Inhabited

/-- A port before its part is out of reset: STAGE OFF (Table 3-8), its counters zero. (Log 2 DESIGN CHOICE unsafe.) -/
def PortSt.init : PortSt := { (default : PortSt) with stage := .off }

/-- A core before the boot ROM starts it: HALTED at PC 0 (Table 17-7). (Log 2 DESIGN CHOICE unsafe.) -/
def Core.init : Core := { (default : Core) with st := .halted }

/-- The state of the part at power-on: power-on reset in force, straps not yet sampled, LT at 0, every register
at its reset value, every queue empty, memories cleared. Every field not named is zero, false, empty or none. (Log 2 DESIGN CHOICE unsafe.) -/
def State.reset : State :=
  { (default : State) with
    sys := { (default : Sys) with inReset := true, porRst := true }
    tmk := { (default : Tmk) with period := 20 }
    rdl := { (default : Rdl) with cls := 3, state := .blocked }
    swg := { (default : Swg) with softoff := true }
    nv := { (default : Nv) with
      digest := 0xaf5570f5a1810b7af78caf4bc70a660f0df51e42baf91d4de5b2328de0e83dfc#256
      default := true } }

end Sys2Proof.Machine
end

