-- ==== Sys2Proof/Machine/Bits.lean ====
section
/-! DEFINITION. Bit fields, sparse maps in canonical form, byte order, and the codes the spec names:
CRC-8 (R354), CRC-32C (R30) and SHA-256 (R309, R407). -/

namespace Sys2Proof.Machine

open Sys2Proof

/-- What a sparse map reads at key k: its entry, or the default d. -/
def kget {α : Type} (d : α) : KV α → Nat → α
  | [], _ => d
  | (k', v) :: m, k => if k' = k then v else kget d m k

/-- A sparse map without key k. -/
def kdel {α : Type} : KV α → Nat → KV α
  | [], _ => []
  | (k', v) :: m, k => if k' = k then kdel m k else (k', v) :: kdel m k

/-- A sparse map with v at key k, in its place by rising keys. -/
def kins {α : Type} : KV α → Nat → α → KV α
  | [], k, v => [(k, v)]
  | (k', v') :: m, k, v =>
    if k' < k then (k', v') :: kins m k v else if k' = k then (k, v) :: m else (k, v) :: (k', v') :: m

/-- A write to a sparse map: the default is not listed. -/
def kput {α : Type} [DecidableEq α] (d : α) (m : KV α) (k : Nat) (v : α) : KV α :=
  if v = d then kdel m k else kins m k v

/-- An update of one entry of a sparse map. -/
def kmod {α : Type} [DecidableEq α] (d : α) (m : KV α) (k : Nat) (f : α → α) : KV α :=
  kput d m k (f (kget d m k))

/-- Keys strictly rising from lo. -/
def kvAbove {α : Type} : Nat → KV α → Bool
  | _, [] => true
  | lo, (k, _) :: m => decide (lo ≤ k) && kvAbove (k + 1) m

/-- The canonical form of a sparse map: keys strictly rising, and no entry equal to what d gives its key. -/
def kvWf {α : Type} [DecidableEq α] (d : Nat → α) (m : KV α) : Bool :=
  kvAbove 0 m && m.all fun e => decide (e.2 ≠ d e.1)

/-- The field [hi:lo] of a word as a number. -/
def fld (w : Word) (hi lo : Nat) : Nat := w.toNat / 2 ^ lo % 2 ^ (hi + 1 - lo)

/-- Bit i of a word. -/
def bitOf (w : Word) (i : Nat) : Bool := w.toNat / 2 ^ i % 2 == 1

/-- The mask of the field [hi:lo]. -/
def maskOf (hi lo : Nat) : Word := BitVec.ofNat 32 (2 ^ (hi + 1) - 2 ^ lo)

/-- The word with v in the field [hi:lo]. -/
def setFld (w : Word) (hi lo v : Nat) : Word :=
  (w &&& ~~~ maskOf hi lo) ||| (BitVec.ofNat 32 (v * 2 ^ lo) &&& maskOf hi lo)

/-- The word with bit i set or cleared. -/
def setBit (w : Word) (i : Nat) (b : Bool) : Word :=
  if b then w ||| BitVec.ofNat 32 (2 ^ i) else w &&& ~~~ BitVec.ofNat 32 (2 ^ i)

/-- A number as a word, modulo 2^32. -/
def wd (n : Nat) : Word := BitVec.ofNat 32 n

/-- An integer as a word, modulo 2^32. -/
def wdI (i : Int) : Word := BitVec.ofInt 32 i

/-- A Bool as 0 or 1. -/
def b2n (b : Bool) : Nat := if b then 1 else 0

/-- A field of width n read as a two's complement number. -/
def sext (n v : Nat) : Int := if v % 2 ^ n < 2 ^ (n - 1) then (v % 2 ^ n : Nat) else ((v % 2 ^ n : Nat) : Int) - 2 ^ n

/-- An integer brought into [lo, hi]. -/
def clampI (lo hi v : Int) : Int := if v < lo then lo else if hi < v then hi else v

/-- A number brought into [lo, hi]. (Log 13 DESIGN CHOICE unsafe.) -/
def clampN (lo hi v : Nat) : Nat := if v < lo then lo else if hi < v then hi else v

/-- A quotient rounded up. -/
def divUp (a b : Nat) : Nat := (a + b - 1) / b

/-- Division rounded to nearest of an integer, halves away from zero. (Log 46 DEDUCED unsafe.) -/
def rdivAway (a : Int) (b : Nat) : Int :=
  if 0 ≤ a then ((2 * a.toNat + b) / (2 * b) : Nat) else - ((2 * (-a).toNat + b) / (2 * b) : Nat)

/-- The bits of x from bit n - 1 down to bit 0. -/
def bitsDown : Nat → Nat → List Bool
  | 0, _ => []
  | n + 1, x => (x / 2 ^ n % 2 == 1) :: bitsDown n x

/-- The numbers k below n for which bit k of x is set, rising. -/
def bitsUp (n x : Nat) : List Nat := (List.range n).filter fun k => x / 2 ^ k % 2 == 1

/-- The bytes of a word, most significant first. -/
def wordBytes (w : Word) : List Byte :=
  [BitVec.ofNat 8 (w.toNat / 2 ^ 24), BitVec.ofNat 8 (w.toNat / 2 ^ 16), BitVec.ofNat 8 (w.toNat / 2 ^ 8),
   BitVec.ofNat 8 w.toNat]

/-- Bytes as words, most significant byte first; a short last word is filled with zeros. -/
def bytesWords : List Byte → List Word
  | [] => []
  | [a] => [wd (a.toNat * 2 ^ 24)]
  | [a, b] => [wd (a.toNat * 2 ^ 24 + b.toNat * 2 ^ 16)]
  | [a, b, c] => [wd (a.toNat * 2 ^ 24 + b.toNat * 2 ^ 16 + c.toNat * 2 ^ 8)]
  | a :: b :: c :: d :: r =>
    wd (a.toNat * 2 ^ 24 + b.toNat * 2 ^ 16 + c.toNat * 2 ^ 8 + d.toNat) :: bytesWords r

/-- One bit through a CRC register of n bits, shifted left. -/
def crcBit (n poly : Nat) (c : Nat) (b : Bool) : Nat :=
  let t := (c / 2 ^ (n - 1) % 2 == 1) != b
  let c' := c * 2 % 2 ^ n
  if t then Nat.xor c' poly else c'

/-- CRC-8 of the seven bytes [63:8] of a fault message (R354). -/
def crc8 (hi56 : Nat) : Nat := (bitsDown 56 hi56).foldl (crcBit 8 0x07) 0

/-- One bit through the reflected CRC-32C register. -/
def crc32cStep : Nat → Nat → Nat
  | 0, c => c
  | n + 1, c => crc32cStep n (if c % 2 = 1 then Nat.xor (c / 2) 0x82F63B78 else c / 2)

/-- CRC-32C of bytes: reflected, initial value and final inversion all ones. -/
def crc32c (bs : List Byte) : Nat :=
  Nat.xor (bs.foldl (fun c b => crc32cStep 8 (Nat.xor c b.toNat)) 0xFFFFFFFF) 0xFFFFFFFF

/-- The greatest x below 2^36 with x^k at most v, found bit by bit from bit n - 1 down. -/
def rootDown (k v : Nat) : Nat → Nat → Nat
  | 0, x => x
  | n + 1, x => rootDown k v n (if (x + 2 ^ n) ^ k ≤ v then x + 2 ^ n else x)

/-- The first n primes, n at most 64: those numbers with no smaller prime divisor. -/
def firstPrimes (n : Nat) : List Nat :=
  ((List.range 310).map (· + 2)).filter (fun q => [2, 3, 5, 7, 11, 13, 17].all fun d => q == d || q % d != 0) |>.take n

/-- SHA-256 takes its constants (FIPS 180-4) from the first 32 bits of the fractional parts of the k-th roots of
the first n primes: square roots for the start, cube roots for the rounds. -/
def rootWords (k n : Nat) : List Word := (firstPrimes n).map fun q => wd (rootDown k (q * 2 ^ (32 * k)) 37 0)

/-- The exclusive or of a word turned right by three amounts; the last shifts where `sh` is set. -/
def turns (x : Word) (i j k : Nat) (sh : Bool) : Word :=
  x.rotateRight i ^^^ x.rotateRight j ^^^ (if sh then x >>> k else x.rotateRight k)

/-- SHA-256 within a block: its chain of eight words and the sixteen schedule words still to come. -/
structure ShaSt where
  chain : List Word
  win   : List Word
  deriving DecidableEq, Repr

/-- One round under the constant k: the chain moves down by one, and the schedule by one word. -/
def ShaSt.round (z : ShaSt) (k : Word) : ShaSt :=
  let v (i : Nat) : Word := z.chain.getD i 0
  let w (i : Nat) : Word := z.win.getD i 0
  let pick := v 6 ^^^ (v 4 &&& (v 5 ^^^ v 6))
  let most := (v 0 &&& v 1) ||| (v 2 &&& (v 0 ||| v 1))
  let mix := k + w 0 + v 7 + pick + turns (v 4) 6 11 25 false
  let next := w 0 + w 9 + turns (w 1) 7 18 3 true + turns (w 14) 17 19 10 true
  { chain := (mix + most + turns (v 0) 2 13 22 false) :: ((z.chain.take 7).set 3 (v 3 + mix)), win := z.win.drop 1 ++ [next] }

/-- Blocks of sixteen words into a chain, `n` of them. -/
def shaFold (ks : List Word) : Nat → List Word → List Word → List Word
  | 0, h, _ => h
  | n + 1, h, ws => shaFold ks n (List.zipWith (· + ·) h (ks.foldl ShaSt.round ⟨h, ws.take 16⟩).chain) (ws.drop 16)

/-- SHA-256 of bytes: padded with 0x80, zeros and the length in bits. -/
def sha256 (bs : List Byte) : BitVec 256 :=
  let n := bs.length
  let fill := (119 - n % 64) % 64
  let ws := bytesWords (bs ++ 0x80 :: List.replicate fill 0) ++ [wd (8 * n / 2 ^ 32), wd (8 * n)]
  (shaFold (rootWords 3 64) (ws.length / 16) (rootWords 2 8) ws).foldl (fun a w => a <<< 32 ||| w.setWidth 256) 0

/-- A list with entry i replaced. -/
def setAt {α : Type} (l : List α) (i : Nat) (v : α) : List α := l.take i ++ (match l.drop i with | [] => [] | _ :: r => v :: r)

end Sys2Proof.Machine
end

