-- ==== Sys2Proof/Machine/Frame.lean ====
section
/-! DEFINITION. A packet as it stands on a link: its header (Table 4-3), its flits with padding and CRC-32C (R118),
and the symbols that frame it (R121). -/

namespace Sys2Proof.Machine

open Sys2Proof

/-- The two header words of a packet (Table 4-3). -/
def headerHi (pk : Packet) : Word := wd (pk.dest.toNat * 4096 + pk.src.toNat / 256)
def headerLo (pk : Packet) : Word :=
  wd (pk.src.toNat % 256 * 2 ^ 24 + pk.typ.toNat * 2 ^ 18 + pk.cls.toNat * 2 ^ 16 + pk.len % 256 * 256 + pk.seq.toNat)

/-- Flits of a packet (R118). -/
def flits (pk : Packet) : Nat := divUp (12 + 4 * pk.len) 16

/-- Flits on the link in units of LT, 51.2 ns a flit. -/
def flitTime (n : Nat) : Nat := divUp (n * 256) 10

/-- The time of a packet on the link. -/
def linkTime (pk : Packet) : Nat := flitTime (flits pk)

/-- Header, payload and padding, most significant byte of each word first (R117, R118). (Log 117 DESIGN CHOICE unsafe.) -/
def packetBody (pk : Packet) : List Byte :=
  let b := (headerHi pk :: headerLo pk :: pk.payload).flatMap wordBytes
  b ++ List.replicate (16 * flits pk - 4 - b.length) 0

/-- The flits of a packet as bytes: the body and its CRC-32C, inverted where an injection damages it (R377). (Log 117 DESIGN CHOICE unsafe.) -/
def packetBytes (pk : Packet) (good : Bool) : List Byte :=
  let c := crc32c (packetBody pk)
  packetBody pk ++ wordBytes (wd (if good then c else 0xFFFFFFFF - c))

/-- The descriptor symbol after K27.7 (R121). -/
def descriptor (pk : Packet) (resume : Bool) : Byte := BitVec.ofNat 8 (pk.cls.toNat * 64 + b2n resume * 32)

/-- The symbols of a packet from its flit n onward, ended with K29.7; after a cut (n above 0) with RESUME = 1 (R121, R133). -/
def packetLine (pk : Packet) (n : Nat) (good : Bool) : List Sym :=
  .ctl 27 7 :: .dat (descriptor pk (n != 0)) :: ((packetBytes pk good).drop (16 * n)).map .dat ++ [.ctl 29 7]

/-- The symbols of a packet that its sender aborts (R121, R122): its header and the end. -/
def abortLine (pk : Packet) : List Sym :=
  .ctl 27 7 :: .dat (descriptor pk false) :: ((packetBytes pk true).take 8).map .dat ++ [.ctl 30 7]

end Sys2Proof.Machine
end

