-- ==== Sys2Proof/Machine/Kinds.lean ====
section
/-! DEFINITION. The fault kinds of Table 14-4, Table 15-7 and Table 16-2, with their codes and severities. -/

namespace Sys2Proof.Machine

/-- The kinds of fault messages. -/
inductive Kind where
  | access | memCorr | memUncorr | msgCrc
  | imageNone | imageFallback | tblReject | versionUntested | roleMismatch | qspiRefused | tpLate | tickOverrun | tpStall
  | pairMismatch | switchover | pairContend
  | tickLate | tickSkew | tickMissing | tickLost | tickJump | leadShort | ttNumber | coupleRefused
  | procDrift | busOff | retryExhausted | limit
  | portConfig | linkFail | linkLoss
  | topoRule | topoDepth | idExhausted | discSilent | newLink | noRoute | fabCrc | badType | rangeFull | cayenneRx
  | binsMissing | levelLate | levelRange | heldExcess | cellsShort | refreshStarved | rakeHold | rakeLost
  | descentMissing | edgeCfg | insertRefused
  | swgCfg | shootCmd | fbFault | desat | hardShort | uvTrip | uvWarn | offFail | reserveShort | ledgerReserve
  | ledgerRefuse | bsExtrap | feedLoss | feedOv | holdupLow
  | snsCfg | snsStale | adcStuck | sdLoss | quadErr
  | lpeCfg | lpeNan | lpeOverrun | setpLost | followErr | fbLost | qInput | refStale | refMissing
  | zcDouble | zcRxqFull
  | svTimeout | svLen | svSync | gooseTtl | ethLink
  | capRefused | capOverflow | aliveKick | tempWarn | tempTrip | voltWarn | voltTrip
  | safLockstep | safClock | safWdog | safMem | safSelftest | testFail | testOverdue | fbDiscrep | inDiscrep | demand
  | actFail | pwFail | logFull | cfgChange
  deriving DecidableEq, Repr

/-- Code and severity of a kind. -/
def Kind.info : Kind → Nat × Nat
  | .access => (0x01, 2) | .memCorr => (0x02, 1) | .memUncorr => (0x03, 5) | .msgCrc => (0x04, 7)
  | .imageNone => (0x08, 6) | .imageFallback => (0x09, 3) | .tblReject => (0x0A, 4) | .versionUntested => (0x0B, 4)
  | .roleMismatch => (0x0C, 4) | .qspiRefused => (0x0D, 2) | .tpLate => (0x0E, 3) | .tickOverrun => (0x0F, 5) | .tpStall => (0x10, 7)
  | .pairMismatch => (0x11, 3) | .switchover => (0x12, 4) | .pairContend => (0x13, 4)
  | .tickLate => (0x14, 2) | .tickSkew => (0x15, 3) | .tickMissing => (0x16, 4) | .tickLost => (0x17, 7) | .tickJump => (0x18, 3)
  | .leadShort => (0x19, 4) | .ttNumber => (0x1A, 4) | .coupleRefused => (0x1B, 2)
  | .procDrift => (0x1C, 3) | .busOff => (0x1D, 4) | .retryExhausted => (0x1E, 3) | .limit => (0x1F, 7)
  | .portConfig => (0x20, 5) | .linkFail => (0x21, 4) | .linkLoss => (0x22, 3)
  | .topoRule => (0x24, 4) | .topoDepth => (0x25, 4) | .idExhausted => (0x26, 4) | .discSilent => (0x27, 3) | .newLink => (0x28, 1)
  | .noRoute => (0x29, 2) | .fabCrc => (0x2A, 2) | .badType => (0x2B, 2) | .rangeFull => (0x2C, 4) | .cayenneRx => (0x2D, 6)
  | .binsMissing => (0x30, 3) | .levelLate => (0x31, 4) | .levelRange => (0x32, 3) | .heldExcess => (0x33, 3)
  | .cellsShort => (0x34, 5) | .refreshStarved => (0x35, 5) | .rakeHold => (0x36, 2) | .rakeLost => (0x37, 4)
  | .descentMissing => (0x38, 3) | .edgeCfg => (0x39, 4) | .insertRefused => (0x3A, 1)
  | .swgCfg => (0x40, 4) | .shootCmd => (0x41, 5) | .fbFault => (0x42, 7) | .desat => (0x43, 7) | .hardShort => (0x44, 7)
  | .uvTrip => (0x45, 7) | .uvWarn => (0x46, 2) | .offFail => (0x47, 7) | .reserveShort => (0x48, 6) | .ledgerReserve => (0x49, 6)
  | .ledgerRefuse => (0x4A, 1) | .bsExtrap => (0x4B, 2) | .feedLoss => (0x4C, 4) | .feedOv => (0x4D, 4) | .holdupLow => (0x4E, 5)
  | .snsCfg => (0x50, 4) | .snsStale => (0x51, 2) | .adcStuck => (0x52, 5) | .sdLoss => (0x53, 5) | .quadErr => (0x54, 2)
  | .lpeCfg => (0x58, 4) | .lpeNan => (0x59, 5) | .lpeOverrun => (0x5A, 6) | .setpLost => (0x5B, 3) | .followErr => (0x5C, 5)
  | .fbLost => (0x5D, 7) | .qInput => (0x5E, 3) | .refStale => (0x60, 2) | .refMissing => (0x61, 3)
  | .zcDouble => (0x62, 6) | .zcRxqFull => (0x63, 3)
  | .svTimeout => (0x64, 4) | .svLen => (0x65, 2) | .svSync => (0x66, 3) | .gooseTtl => (0x67, 4) | .ethLink => (0x68, 3)
  | .capRefused => (0x69, 1) | .capOverflow => (0x6A, 2) | .aliveKick => (0x6B, 6) | .tempWarn => (0x6C, 3) | .tempTrip => (0x6D, 7)
  | .voltWarn => (0x6E, 4) | .voltTrip => (0x6F, 7)
  | .safLockstep => (0x70, 7) | .safClock => (0x71, 7) | .safWdog => (0x72, 7) | .safMem => (0x73, 7) | .safSelftest => (0x74, 7)
  | .testFail => (0x75, 5) | .testOverdue => (0x76, 4) | .fbDiscrep => (0x77, 5) | .inDiscrep => (0x78, 4) | .demand => (0x79, 6)
  | .actFail => (0x7A, 7) | .pwFail => (0x7B, 3) | .logFull => (0x7C, 3) | .cfgChange => (0x7D, 1)

end Sys2Proof.Machine
end

