-- ==== Sys2Proof/Machine/Regs.lean ====
section
/-! DEFINITION. The register map: the types of its rows, the block bases of Table 1-1, the registers of SYS,
FLT, SAF, SUP, SWG and TRR, and the state's register file read by address. -/

namespace Sys2Proof.Machine

open Sys2Proof

/-- The access codes of Table 0-3; bits that no field covers are RSV. -/
inductive Acc where
  | rw | ro | wo | w1c | w1s | rwl
  deriving DecidableEq, Repr

/-- One row of a register table: offsets `base + i * st + j * st2` with i < n and j < n2, its fields
(high bit, low bit, access), its reset value, and the modes in which a write is taken (none named: all). -/
structure RegRow where
  base  : Nat
  n     : Nat
  st    : Nat
  n2    : Nat
  st2   : Nat
  rst   : Nat
  fs    : List (Nat × Nat × Acc)
  modes : List Mode
  deriving DecidableEq, Repr

/-- A single register. -/
def reg1 (base rst : Nat) (fs : List (Nat × Nat × Acc)) : RegRow := ⟨base, 1, 0x10000, 1, 4, rst, fs, []⟩

/-- n registers, st apart. -/
def regN (base n st rst : Nat) (fs : List (Nat × Nat × Acc)) : RegRow := ⟨base, n, st, 1, 4, rst, fs, []⟩

/-- n times n2 registers, st and st2 apart. -/
def regM (base n st n2 st2 rst : Nat) (fs : List (Nat × Nat × Acc)) : RegRow := ⟨base, n, st, n2, st2, rst, fs, []⟩

/-- A row whose writes are taken in the modes named only. -/
def inModes (ms : List Mode) (r : RegRow) : RegRow := { r with modes := ms }

/-- A row covers an offset of its block. -/
def RegRow.hit (r : RegRow) (off : Nat) : Bool :=
  decide (r.base ≤ off) &&
    (let d := off - r.base
     decide (d / r.st < r.n) && decide (d % r.st % r.st2 = 0) && decide (d % r.st / r.st2 < r.n2))

/-- A whole word of one access. -/
def whole (a : Acc) : List (Nat × Nat × Acc) := [(31, 0, a)]

def sysR (o : Nat) : Nat := 0x40000000 + o
def tmkR (o : Nat) : Nat := 0x40010000 + o
def trlR (o : Nat) : Nat := 0x40020000 + o
def trrR (o : Nat) : Nat := 0x40030000 + o
def rdlR (o : Nat) : Nat := 0x40040000 + o
def swgR (o : Nat) : Nat := 0x40050000 + o
def snsR (o : Nat) : Nat := 0x40060000 + o
def lpeR (o : Nat) : Nat := 0x40070000 + o
def qcR (c o : Nat) : Nat := lpeR (0x400 + 0x20 * c + o)
def stpR (o : Nat) : Nat := 0x40080000 + o
def capR (o : Nat) : Nat := 0x40090000 + o
def fltR (o : Nat) : Nat := 0x400A0000 + o
def safR (o : Nat) : Nat := 0x400B0000 + o
def supR (o : Nat) : Nat := 0x400C0000 + o
def svbR (o : Nat) : Nat := 0x400D0000 + o
def zccR (o : Nat) : Nat := 0x400E0000 + o

/-- TRR registers (Table 4-10 to Table 4-13). -/
def trrRows : List RegRow :=
  [reg1 0x000 0 [(13, 0, .ro)], reg1 0x004 0xAAA [(31, 31, .w1s), (11, 0, .rw)], reg1 0x008 0 [(31, 30, .ro), (13, 0, .ro)],
   reg1 0x00C 4 [(4, 0, .rw)], reg1 0x010 32 [(5, 0, .rw)], reg1 0x014 0 [(29, 0, .rw)], reg1 0x018 0x11 [(7, 0, .rw)],
   reg1 0x01C 100 [(15, 0, .rw)], reg1 0x020 0x14 [(31, 31, .wo), (9, 0, .rw)],
   reg1 0x024 0 [(31, 31, .w1c), (30, 30, .ro), (17, 16, .ro), (13, 8, .ro), (5, 0, .ro)], reg1 0x028 0 (whole .ro),
   reg1 0x030 0 (whole .rw), regM 0x400 6 0x40 16 4 0 [(31, 16, .rw), (13, 0, .rw)]]

/-- SWG registers (Table 7-8 to Table 7-13); writes in BOOT only but for SWG_GmSTAT (R192). -/
def swgRows : List RegRow :=
  [inModes [.boot] (reg1 0x000 0x09C4640A (whole .rw)), inModes [.boot] (reg1 0x004 0 [(31, 30, .ro), (23, 0, .ro)]),
   inModes [.boot] (regN 0x010 4 4 0x3E8 [(11, 0, .rw)]),
   inModes [.boot] (regN 0x100 8 0x10 0x103E8032 [(31, 12, .rw), (7, 0, .rw)]),
   inModes [.boot] (regN 0x104 8 0x10 0xC87D7850 [(31, 4, .rw)]), regN 0x108 8 0x10 0 [(7, 7, .ro), (5, 0, .w1c)]]

/-- FLT registers (Table 14-7 to Table 14-9); FLT_REACTs is written by its own rule (R372). -/
def fltRows : List RegRow :=
  [reg1 0x000 0x65B40000 [(31, 17, .rw)], reg1 0x004 0 [(31, 31, .w1c), (30, 30, .ro)], reg1 0x008 0 (whole .ro),
   reg1 0x00C 0 (whole .ro), reg1 0x010 0 (whole .ro),
   reg1 0x014 0 [(31, 31, .w1c), (30, 28, .ro), (7, 4, .ro), (0, 0, .ro)], regM 0x040 8 8 2 4 0 (whole .ro),
   reg1 0x080 0x1000 [(31, 31, .w1s), (27, 0, .rwl)], reg1 0x084 0 (whole .wo),
   reg1 0x088 0xA0 [(31, 30, .ro), (11, 0, .rw)], reg1 0x08C 0 [(31, 16, .ro), (8, 0, .ro)], reg1 0x090 0 [(10, 0, .ro)],
   regN 0x094 2 4 0 (whole .ro), reg1 0x09C 0 [(31, 31, .rw), (19, 0, .rw)], reg1 0x0A0 0 [(31, 16, .ro), (5, 0, .ro)],
   regN 0x100 16 4 0 (whole .w1c), regN 0x200 4 4 0 [(15, 0, .ro)], reg1 0x210 0x044C03E8 (whole .rw),
   regN 0x220 7 4 0 [(15, 0, .ro)], regN 0x240 7 4 0x1008 [(15, 0, .rw)], regN 0x260 4 4 0 (whole .ro),
   reg1 0x270 0 (whole .rw), regN 0x300 8 8 0 [(31, 30, .rw), (26, 20, .rw)], regN 0x304 8 8 0 [(23, 0, .rw)],
   regM 0x400 64 0x10 4 4 0 (whole .ro), regN 0x800 512 4 0 [(31, 19, .rwl), (15, 0, .rwl)]]

/-- SAF registers (Table 15-9 to Table 15-12). -/
def safRows : List RegRow :=
  [reg1 0x000 0x1100 [(15, 8, .ro)], reg1 0x004 1 [(31, 31, .w1s), (3, 0, .rwl)],
   reg1 0x008 0 [(31, 23, .ro), (12, 12, .ro), (11, 11, .w1c), (10, 7, .ro), (6, 2, .w1c)], reg1 0x00C 0 [(7, 0, .ro)],
   reg1 0x010 0x0505001E (whole .rwl), reg1 0x014 0x012C0014 [(31, 15, .rwl), (8, 0, .rwl)],
   reg1 0x018 0 [(31, 30, .ro), (16, 0, .ro)], reg1 0x01C 0xC832 [(15, 0, .rwl)], regN 0x030 2 4 0 (whole .wo),
   reg1 0x038 0 [(31, 30, .wo), (24, 0, .ro)], regN 0x040 2 4 0 (whole .wo), reg1 0x050 0 (whole .wo),
   reg1 0x054 0 [(15, 0, .wo)], reg1 0x060 0 [(23, 16, .ro), (8, 0, .ro)], reg1 0x064 0 (whole .ro),
   reg1 0x068 0 (whole .wo), regM 0x400 256 0x20 8 4 0 (whole .ro)]

/-- SUP registers (Table 17-11, Table 7-14 to Table 7-16). -/
def supRows : List RegRow :=
  [inModes [.boot] (reg1 0x000 0x0244011D (whole .rw)), reg1 0x004 0 [(7, 4, .ro), (3, 0, .w1c)], reg1 0x008 0 (whole .ro),
   inModes [.boot] (reg1 0x00C 0 [(15, 0, .rw)]), reg1 0x010 0 [(10, 8, .ro), (5, 1, .ro)],
   inModes [.boot] (reg1 0x014 0xFFFF [(15, 0, .rw)]), reg1 0x100 0x0000A3B6 [(21, 0, .rw)], regN 0x104 2 4 0 (whole .rw),
   reg1 0x10C 80 [(31, 16, .rw), (7, 0, .rw)], reg1 0x110 0xFFFFFFFF (whole .rw), reg1 0x114 0 (whole .rw),
   regN 0x118 3 4 0 (whole .ro), reg1 0x124 0 [(15, 0, .ro)],
   reg1 0x128 0 [(6, 6, .w1c), (5, 4, .ro), (3, 1, .w1c), (0, 0, .ro)], reg1 0x12C 0x00C80032 (whole .rw),
   regN 0x140 8 8 0 (whole .rw), regN 0x144 8 8 0 (whole .ro), regN 0x180 8 4 0x03E80000 (whole .rw)]

end Sys2Proof.Machine
end

