-- ==== Sys2Proof/Machine/RegMap.lean ====
section
/-! DEFINITION. The register map, continued: the registers of SYS, TMK, TRL, RDL, SNS, LPE, STP, CAP, SVB and
ZCC, the lookup of a row by address, the reset value of every register, and reads and writes of the register
file by address. -/

namespace Sys2Proof.Machine

open Sys2Proof

/-- SYS registers (Tables 1-7 to 1-10, 11-6 to 11-8, 16-3 to 16-6, 17-8 to 17-10). -/
def sysRows : List RegRow :=
  [reg1 0x000 0x720000C1 (whole .ro), reg1 0x004 0 [(2, 0, .ro)], reg1 0x008 0 [(31, 28, .ro), (22, 16, .ro), (8, 8, .ro), (2, 0, .ro)],
   reg1 0x00C 0 [(31, 16, .wo), (2, 0, .wo)], reg1 0x010 0 [(31, 8, .ro), (3, 0, .ro)],
   reg1 0x014 0 [(24, 16, .ro), (7, 0, .ro)], reg1 0x018 0 (whole .ro), reg1 0x020 0x00021194 [(19, 16, .rw), (14, 0, .rw)],
   reg1 0x024 0 [(31, 20, .ro), (1, 0, .w1c)], reg1 0x028 1 [(4, 0, .w1c)], reg1 0x02C 0 (whole .ro), reg1 0x030 0 [(4, 0, .ro)],
   reg1 0x034 0 [(7, 4, .ro), (1, 0, .rw)], reg1 0x040 0 [(0, 0, .w1s)], reg1 0x044 0 [(31, 16, .ro), (3, 0, .ro)],
   reg1 0x048 0 (whole .ro), reg1 0x050 0x23301040 [(31, 29, .rw), (26, 20, .rw), (15, 0, .rw)],
   reg1 0x054 0 [(31, 25, .ro), (23, 16, .ro), (2, 0, .w1c)], reg1 0x058 0 [(31, 30, .wo), (29, 29, .w1s), (28, 27, .wo)],
   reg1 0x100 0 [(31, 28, .rw), (0, 0, .w1s)], reg1 0x104 0 [(25, 0, .rw)], reg1 0x108 0 [(2, 1, .w1c), (0, 0, .ro)],
   regN 0x200 16 4 0 (whole .ro), regN 0x1000 64 4 0 (whole .rw), regN 0x8000 8192 4 0 (whole .wo)]

/-- TMK registers (Tables 2-2, 2-7 to 2-10, 12-3). (Log 16 DEDUCED unsafe, 116 DESIGN CHOICE unsafe.) -/
def tmkRows : List RegRow :=
  [reg1 0x000 0 [(4, 3, .wo), (2, 2, .w1s), (1, 1, .rw)], reg1 0x004 0 [(15, 7, .ro), (4, 0, .w1c)], reg1 0x008 0x14 [(7, 0, .rw)],
   reg1 0x00C 2000 [(11, 0, .rw)], reg1 0x010 0 [(15, 0, .rw)], reg1 0x014 0 (whole .rw), reg1 0x018 0 [(29, 0, .rw)],
   reg1 0x01C 50 [(5, 0, .rw)], regN 0x020 2 4 0 (whole .ro), reg1 0x028 0 (whole .ro), regN 0x030 2 4 0 (whole .ro),
   reg1 0x040 0 (whole .ro), reg1 0x044 3 [(3, 0, .rw)], regN 0x060 6 4 0 (whole .rw), regN 0x100 3 0x40 0 [(15, 0, .rw)],
   regN 0x104 3 0x40 0 (whole .rw), regN 0x108 3 0x40 0 [(29, 0, .rw)], regN 0x10C 3 0x40 0 [(15, 0, .rw)],
   regN 0x110 3 0x40 0 (whole .rw), regN 0x114 3 0x40 0 (whole .rw), regN 0x118 3 0x40 0 [(17, 16, .rw), (7, 0, .rw)],
   regN 0x200 8 0x10 0 [(19, 16, .ro), (10, 8, .rw), (6, 4, .rw), (0, 0, .wo)], regN 0x204 8 0x10 0 (whole .rw),
   regN 0x208 8 0x10 0 (whole .rw), regN 0x300 4 0x10 0 [(19, 16, .ro), (15, 8, .rw), (5, 4, .rw), (0, 0, .rw)], regN 0x304 4 0x10 0 (whole .rw), regN 0x308 4 0x10 0 (whole .rw)]

/-- TRL registers (Tables 3-6 to 3-9). -/
def trlRows : List RegRow :=
  [reg1 0x000 0 [(1, 0, .rw)], reg1 0x040 0x00500000 [(31, 31, .w1s), (30, 30, .wo), (29, 26, .rw), (23, 18, .rw), (11, 0, .rw)],
   reg1 0x044 0 [(3, 0, .ro)], reg1 0x048 0 (whole .ro), regN 0x100 6 0x40 0x00810018 [(31, 31, .wo), (23, 8, .rw), (4, 0, .rw)],
   regN 0x104 6 0x40 0 [(31, 24, .ro), (15, 8, .ro), (2, 0, .w1c)], regN 0x108 6 0x40 0 (whole .rw), regN 0x10C 6 0x40 0 [(5, 0, .ro)],
   regM 0x110 6 0x40 9 4 0 (whole .ro), regN 0x8000 4032 4 0xFFFFFFFF (whole .ro)]

/-- RDL registers (Tables 5-9 to 5-13, 6-4 to 6-9). -/
def rdlRows : List RegRow :=
  [reg1 0x000 0 [(2, 2, .rw), (1, 1, .ro), (0, 0, .rw)], reg1 0x004 0 [(8, 0, .w1c)], reg1 0x008 1000 (whole .rw),
   reg1 0x00C 0x802 [(11, 0, .rw)], reg1 0x010 0 (whole .ro), reg1 0x014 0 (whole .rw), reg1 0x018 0 [(0, 0, .rw)],
   reg1 0x01C 0 [(31, 31, .w1s), (28, 0, .rw)], reg1 0x020 0xC0000000 [(31, 21, .ro), (11, 0, .ro)],
   reg1 0x024 0x00140000 [(31, 16, .rw), (0, 0, .ro)], reg1 0x028 0x023F01F4 [(30, 16, .rw), (14, 0, .rw)], reg1 0x02C 3 [(3, 0, .rw)],
   reg1 0x030 0 [(23, 0, .ro)], reg1 0x034 0 [(23, 0, .ro)], reg1 0x038 0 (whole .rw),
   reg1 0x040 0 [(31, 15, .ro), (11, 7, .ro)], reg1 0x044 0x04E2047E (whole .rw),
   reg1 0x048 0x32200352 [(31, 20, .rw), (14, 0, .rw)], reg1 0x04C 0x08500000 [(28, 16, .rw), (10, 0, .rw)],
   reg1 0x050 0x000FA0FA [(23, 0, .rw)], reg1 0x054 0 [(23, 16, .rw), (0, 0, .rwl)], reg1 0x058 0 [(31, 16, .ro), (4, 4, .ro), (3, 0, .w1c)],
   reg1 0x060 0 (whole .ro), regN 0x100 64 4 0 [(11, 0, .ro)]]

/-- SNS registers (Tables 8-4 to 8-6); writes in BOOT, PRECHARGE and READY only, but for W1C bits (R239). -/
def snsRows : List RegRow :=
  let g := inModes [.boot, .precharge, .ready]
  [g (reg1 0x000 1 [(1, 0, .rw)]), reg1 0x004 0 [(16, 0, .w1c)], reg1 0x008 0 [(16, 0, .w1c)], reg1 0x00C 0 [(16, 0, .ro)],
   g (reg1 0x010 500 [(14, 0, .rw)]), g (reg1 0x014 128 [(15, 0, .rw)]), g (reg1 0x018 0 [(31, 31, .rw), (2, 0, .rw)]),
   g (regN 0x040 16 4 0 [(31, 31, .rw), (4, 0, .rw)]), g (regN 0x100 17 0x10 0 [(31, 29, .rw), (15, 0, .rw)]),
   g (regN 0x104 17 0x10 4096 [(15, 0, .rw)]), regN 0x108 17 0x10 0 [(29, 0, .ro)], regN 0x10C 17 0x10 0 [(15, 0, .ro)],
   g (regN 0x300 4 4 25 [(31, 31, .rw), (6, 0, .rw)]), reg1 0x380 0 [(15, 8, .ro), (7, 0, .w1c)],
   g (regN 0x400 8 0x10 0x80 [(31, 31, .rw), (27, 26, .rw), (23, 16, .rw), (8, 0, .rw)]), regN 0x404 8 0x10 0 (whole .ro),
   regN 0x408 8 0x10 0 (whole .ro), regN 0x40C 8 0x10 0 [(15, 0, .ro)],
   g (reg1 0x500 0x00640005 [(31, 31, .rw), (25, 16, .rw), (7, 0, .rw)]), reg1 0x504 0 (whole .ro), reg1 0x508 0 (whole .ro),
   reg1 0x50C 0 (whole .ro), reg1 0x510 0 [(1, 1, .ro), (0, 0, .w1c)]]

/-- LPE registers (Tables 9-9 to 9-12). -/
def lpeRows : List RegRow :=
  [reg1 0x000 0 [(19, 0, .ro)], reg1 0x004 0x03030303 (whole .rw), reg1 0x008 0x0A0A0A0A (whole .rw), reg1 0x00C 0x10101010 (whole .rw),
   reg1 0x010 0x10101010 (whole .rw), reg1 0x014 0 [(10, 0, .ro)],
   reg1 0x018 0 [(31, 31, .ro), (23, 16, .ro), (15, 8, .ro), (7, 4, .ro)], regN 0x700 64 4 0 (whole .ro),
   regN 0x100 4 0x80 0x00003200 [(31, 31, .w1s), (30, 30, .ro), (23, 8, .rw), (0, 0, .rw)], regN 0x104 4 0x80 0x00011111 [(20, 0, .rw)],
   regN 0x108 4 0x80 0 [(31, 29, .ro), (23, 7, .ro), (5, 3, .w1c), (2, 2, .ro), (1, 0, .w1c)], regN 0x10C 4 0x80 850 [(14, 0, .rw)],
   regN 0x110 4 0x80 0 [(8, 0, .ro)], regM 0x120 4 0x80 8 4 0 [(15, 0, .rw)], regM 0x140 4 0x80 8 4 0 [(15, 0, .rw)],
   regM 0x160 4 0x80 8 4 0 (whole .ro),
   regN 0x400 16 0x20 0x100 [(31, 24, .rw), (22, 16, .rw), (13, 8, .rw), (1, 1, .w1c), (0, 0, .ro)],
   regN 0x404 16 0x20 0 [(15, 0, .rw)], regN 0x408 16 0x20 0 [(31, 31, .rw), (4, 0, .rw)], regN 0x40C 16 0x20 0 [(14, 0, .rw)],
   regN 0x410 16 0x20 0x3F800000 (whole .rw), regN 0x414 16 0x20 0x3F800000 (whole .rw), regN 0x418 16 0x20 0x7F7FC99E (whole .rw),
   regN 0x41C 16 0x20 0 (whole .ro), regN 0x600 32 4 0 (whole .rw), regM 0x2000 128 0x20 8 4 0 (whole .rw),
   regM 0x3000 4 0x100 64 4 0 (whole .rw), regN 0x8000 8192 4 0 (whole .rw)]

/-- STP registers (Tables 12-7 to 12-10). -/
def stpRows : List RegRow :=
  [reg1 0x000 0x2 [(11, 8, .rw), (5, 1, .rw)], reg1 0x004 0 [(1, 0, .ro)], reg1 0x008 0 [(15, 0, .rw)], reg1 0x00C 0 (whole .rw),
   reg1 0x010 0 (whole .rw), reg1 0x014 18500 [(15, 0, .rw)], regN 0x018 4 4 0 (whole .rw), regN 0x030 3 4 0 (whole .rw),
   regN 0x400 16 0x40 0x21114000 [(31, 24, .rw), (22, 0, .rw)],
   regN 0x404 16 0x40 0 [(31, 16, .ro), (6, 6, .ro), (5, 5, .w1c), (4, 4, .ro), (3, 3, .w1c), (0, 0, .ro)],
   regN 0x408 16 0x40 1000 [(15, 0, .rw)], regM 0x800 4 0x80 32 4 0 (whole .rw), regM 0x1000 16 0x100 64 4 0 (whole .ro),
   regM 0x2000 32 0x40 16 4 0 (whole .rw), regM 0x3000 64 0x40 16 4 0 (whole .rw), regM 0x4000 32 0x200 128 4 0 (whole .rw),
   regM 0x8000 64 0x200 128 4 0 (whole .ro)]

/-- CAP registers (Tables 13-5 to 13-8). -/
def capRows : List RegRow :=
  [reg1 0x000 0 [(31, 31, .w1s), (30, 29, .wo), (11, 8, .rw), (5, 4, .rw), (0, 0, .rw)], reg1 0x004 0 [(31, 24, .ro), (2, 0, .ro)],
   reg1 0x008 250 [(15, 0, .rw)], regN 0x00C 2 4 1000 [(19, 0, .rw)], reg1 0x014 0 (whole .rw), reg1 0x018 0 [(10, 0, .rw)],
   reg1 0x01C 0 [(15, 0, .rw)], reg1 0x020 0 (whole .ro), reg1 0x024 0 [(14, 0, .ro)], reg1 0x028 0 [(19, 0, .rw)],
   reg1 0x02C 18501 [(17, 0, .rw)], reg1 0x030 0 (whole .rw), reg1 0x034 0 (whole .rw), regN 0x100 32 8 0 [(15, 0, .rw)],
   regN 0x104 32 8 0 (whole .rw), regN 0x200 8 0x10 0 [(12, 4, .rw)], regN 0x204 8 0x10 0 (whole .rw), regN 0x208 8 0x10 0 (whole .rw),
   regN 0x400 8 0x20 0 [(31, 31, .w1c), (30, 29, .ro), (26, 0, .ro)], regM 0x404 8 0x20 7 4 0 (whole .ro)]

/-- SVB registers (Tables 18-3 to 18-7). -/
def svbRows : List RegRow :=
  [reg1 0x000 0xF0000000 [(31, 28, .rw), (7, 0, .rw)], reg1 0x004 0 [(5, 3, .ro), (2, 1, .w1c), (0, 0, .ro)],
   reg1 0x008 0x003E1E3C [(31, 2, .rw)], reg1 0x00C 0x01844400 [(31, 7, .rw), (6, 0, .ro)], reg1 0x010 0 [(24, 8, .ro)],
   reg1 0x014 0 [(0, 0, .w1s)], reg1 0x018 0 [(31, 16, .rw), (6, 0, .ro)], reg1 0x01C 0 (whole .wo),
   regN 0x100 8 0x50 0 [(31, 31, .w1s), (30, 30, .wo), (29, 29, .ro), (26, 16, .ro), (7, 0, .rw)],
   regN 0x104 8 0x50 0 [(28, 0, .rw)], regM 0x108 8 0x50 16 4 0 (whole .rw), regN 0x400 20 4 0 (whole .ro),
   reg1 0x800 0 [(23, 16, .ro), (15, 0, .w1c)], reg1 0x804 20 [(6, 0, .rw)], reg1 0x808 0 [(7, 4, .w1c), (3, 0, .ro)],
   regN 0x810 4 4 200 [(31, 16, .ro), (15, 0, .rw)], regN 0x820 4 4 0 [(5, 3, .rw), (1, 0, .rw)], reg1 0x830 0 [(1, 1, .w1c), (0, 0, .ro)]]

/-- ZCC registers (Tables 10-10 to 10-12). -/
def zccRows : List RegRow :=
  [regN 0x000 4 0x100 0x2 [(7, 7, .wo), (6, 5, .w1s), (2, 0, .rw)],
   regN 0x004 4 0x100 0 [(31, 24, .rw), (23, 12, .ro), (11, 9, .w1c), (2, 0, .ro)], regN 0x008 4 0x100 0 (whole .rw),
   regN 0x00C 4 0x100 0 [(16, 8, .rw)], regN 0x010 4 0x100 0 [(14, 0, .rw)], regN 0x014 4 0x100 0 (whole .rw),
   regN 0x018 4 0x100 0 (whole .rw), regN 0x800 4 4 0 (whole .rw), reg1 0x810 0 [(14, 0, .ro)]]

/-- The rows of a block, by its index in Table 1-1. -/
def blockRows : Nat → List RegRow
  | 0 => sysRows | 1 => tmkRows | 2 => trlRows | 3 => trrRows | 4 => rdlRows | 5 => swgRows | 6 => snsRows | 7 => lpeRows
  | 8 => stpRows | 9 => capRows | 10 => fltRows | 11 => safRows | 12 => supRows | 13 => svbRows | 14 => zccRows | _ => []

/-- The block of a peripheral address; 15 and above are none. -/
def blockOf (a : Nat) : Nat := (a - 0x40000000) / 0x10000

/-- The row that covers a peripheral address. -/
def rowOf (a : Nat) : Option RegRow := (blockRows (blockOf a)).find? fun r => r.hit ((a - 0x40000000) % 0x10000)

/-- The reset value of FLT_REACTs (Table 14-3, Table 15-8): SEV_MIN, actions and DEG_TIME 600. (Log 40 DEDUCED safe.) -/
def reactReset (role : Role) (s : Nat) : Word :=
  let w (sev : Nat) (acts : Nat) := wd (sev * 2 ^ 29 + acts + 600)
  let irq := 2 ^ 19
  if s = 1 then w 5 (irq + 2 ^ 22)
  else if 448 ≤ s ∧ s ≤ 451 then w 5 (irq + 2 ^ 20)
  else if s = 321 then w 6 (irq + 2 ^ 23)
  else if 322 ≤ s ∧ s ≤ 329 then w 7 (irq + 2 ^ 24)
  else if 480 ≤ s ∧ s ≤ 483 then w 7 (irq + 2 ^ 23)
  else if 484 ≤ s ∧ s ≤ 490 then w 7 (2 ^ 22)
  else if s = 352 then w 5 (irq + 2 ^ 23)
  else if 353 ≤ s ∧ s ≤ 355 then w 4 (irq + 2 ^ 27)
  else if s = 356 then w 7 (irq + 2 ^ 24 + (if role = .pole then 2 ^ 25 else if role = .station then 2 ^ 26 else 0))
  else w 5 irq

/-- The reset value of the register at an address, in a role. (Log 2 DESIGN CHOICE unsafe, 40 DEDUCED safe.) -/
def regReset (role : Role) (a : Nat) : Word :=
  if 0x400A0800 ≤ a ∧ a < 0x400A1000 then reactReset role ((a - 0x400A0800) / 4)
  else if a = 0x400B0004 then
    (match role with | .cell => 0x1 | .arm => 0x3 | .pole => 0x7 | .station => 0xB | .reserved => 0x1)
  else if a = 0x400A0270 then Config.roWindow 0
  else if a = 0x40080000 then (if role = .station then 0x802 else 0x2)
  else if a = 0x400E0000 then 0x3
  else if role = .cell ∧ a = 0x40020100 then 0x00810019
  else if role = .cell ∧ a = 0x40020140 then 0x0081001A
  else if role = .cell ∧ (a = 0x40020180 ∨ a = 0x400201C0 ∨ a = 0x40020200 ∨ a = 0x40020240) then 0x0081001B
  else match rowOf a with
    | some r => wd r.rst
    | none => 0

end Sys2Proof.Machine
end

