-- ==== Sys2Proof/Machine/Ops.lean ====
section
/-! DEFINITION. The named operations every command shares: the parts of the state and their updates, the
register file by address, a fault report, a discard, the change log, a register write by access codes,
packets to send, the protective turn-off, a Saffron demand, entry to SAFE and the launch of a Cayenne. -/

namespace Sys2Proof.Machine

open Sys2Proof

/-- What a meaning answers. -/
abbrev Out := Host.Outcome State Fault Refusal

def modSys (s : State) (f : Sys → Sys) : State := { s with sys := f s.sys }
def modTmk (s : State) (f : Tmk → Tmk) : State := { s with tmk := f s.tmk }
def modTrr (s : State) (f : Trr → Trr) : State := { s with trr := f s.trr }
def modRdl (s : State) (f : Rdl → Rdl) : State := { s with rdl := f s.rdl }
def modSwg (s : State) (f : Swg → Swg) : State := { s with swg := f s.swg }
def modSup (s : State) (f : Sup → Sup) : State := { s with sup := f s.sup }
def modSns (s : State) (f : Sns → Sns) : State := { s with sns := f s.sns }
def modLpe (s : State) (f : Lpe → Lpe) : State := { s with lpe := f s.lpe }
def modStp (s : State) (f : Stp → Stp) : State := { s with stp := f s.stp }
def modCap (s : State) (f : Cap → Cap) : State := { s with cap := f s.cap }
def modFlt (s : State) (f : Flt → Flt) : State := { s with flt := f s.flt }
def modSaf (s : State) (f : Saf → Saf) : State := { s with saf := f s.saf }
def modNv (s : State) (f : Nv → Nv) : State := { s with nv := f s.nv }
def modSvb (s : State) (f : Svb → Svb) : State := { s with svb := f s.svb }
def modPair (s : State) (f : Pair → Pair) : State := { s with sys := { s.sys with pair := f s.sys.pair } }
def modTbl (s : State) (f : Tbl → Tbl) : State := { s with sys := { s.sys with tbl := f s.sys.tbl } }

/-- A port's state. -/
def portOf (s : State) (p : Nat) : PortSt := kget PortSt.init s.ports p

def modPort (s : State) (p : Nat) (f : PortSt → PortSt) : State := { s with ports := kmod PortSt.init s.ports p f }

/-- A core's state. -/
def coreOf (s : State) (n : Nat) : Core := kget Core.init s.cores n

def modCore (s : State) (n : Nat) (f : Core → Core) : State := { s with cores := kmod Core.init s.cores n f }

/-- A command does nothing while the part is held in reset. (Log 4 DESIGN CHOICE safe, 6 DESIGN CHOICE unsafe.) -/
def live (s : State) (f : State → State) : State := if s.sys.inReset then s else f s

/-- An effect that takes place on a condition only. -/
def whenB (b : Bool) (f : State → State) (s : State) : State := if b then f s else s

/-- LT as a number, in 2 ns. -/
def now (s : State) : Nat := s.lt.toNat

/-- LT in ps. (Log 42 DEDUCED safe.) -/
def nowPs (s : State) : Nat := now s * 2000

/-- A span of µs in units of LT. -/
def us (n : Nat) : Nat := n * 500

/-- A span of ms in units of LT. -/
def ms (n : Nat) : Nat := n * 500000

/-- A span of s in units of LT. -/
def sec (n : Nat) : Nat := n * 500000000

def roleOf (s : State) : Role := Role.ofStrap s.sys.strap

def isCell (s : State) : Bool := roleOf s == .cell

def isUpper (s : State) : Bool := roleOf s == .arm || roleOf s == .pole || roleOf s == .station

def modeOf (s : State) : Mode := s.sys.mode

/-- RUN or DEGRADED. -/
def running (s : State) : Bool := modeOf s == .run || modeOf s == .degraded

/-- The part's own node ID, 0 before it holds one. -/
def nodeId (s : State) : BitVec 14 := s.trr.nodeId.getD 0

/-- The stored word of a register. -/
def reg (s : State) (a : Nat) : Word := kget (regReset (roleOf s) a) s.regs a

/-- A register takes a word. -/
def setReg (s : State) (a : Nat) (v : Word) : State := { s with regs := kput (regReset (roleOf s) a) s.regs a v }

/-- A field of a register. -/
def rf (s : State) (a hi lo : Nat) : Nat := fld (reg s a) hi lo

/-- A bit of a register. -/
def rb (s : State) (a i : Nat) : Bool := bitOf (reg s a) i

/-- A field of a register takes a number. -/
def setRf (s : State) (a hi lo v : Nat) : State := setReg s a (setFld (reg s a) hi lo v)

/-- Hardware sets W1C bits of a register; a clear in the same cycle loses (R12). (Log 7 DESIGN CHOICE safe.) -/
def flag (s : State) (a : Nat) (m : Nat) : State :=
  { setReg s a (reg s a ||| wd m) with hwSet := (a, wd m) :: s.hwSet }

/-- Hardware clears W1S bits of a register; a set by software in the same cycle wins (R13). (Log 7 DESIGN CHOICE safe.) -/
def unflag (s : State) (a : Nat) (m : Nat) : State :=
  let sw := (s.swSet.filter fun e => e.1 == a).foldl (fun w e => w ||| e.2) (0 : Word)
  setReg s a (reg s a &&& ~~~ (wd m &&& ~~~ sw))

/-- Software sets W1S bits of a register in this cycle. -/
def swMark (s : State) (a m : Nat) : State := { s with swSet := (a, wd m) :: s.swSet }

/-- Hardware ends the action of a W1S bit: the bit clears, unless software has set it in this cycle; then it stays
set and the action starts again (R13). -/
def actionEnd (s : State) (a m : Nat) (again : State → State) : State :=
  if s.swSet.any fun e => e.1 == a && e.2 &&& wd m != 0 then again (setReg s a (reg s a ||| wd m))
  else setReg s a (reg s a &&& ~~~ wd m)

/-- A field that counts, saturating at its greatest value. (Log 36 DEDUCED safe.) -/
def countUp (s : State) (a hi lo : Nat) : State :=
  let v := rf s a hi lo
  if v + 1 < 2 ^ (hi + 1 - lo) then setRf s a hi lo (v + 1) else s

/-- The phase of the present tick, in 2 ns. -/
def phaseOf (s : State) : Nat := s.tmk.phase.toNat

/-- Ticks in units of 2 ns. -/
def periodLt (s : State) : Nat := s.tmk.period * 250

/-- The C1 window of each tick, as phases: from START up to END (R134); none where END does not exceed START. -/
def c1Start (s : State) : Nat := rf s (trrR 0x014) 14 0
def c1End (s : State) : Nat := rf s (trrR 0x014) 29 15
def inC1Win (s : State) : Bool := decide (c1Start s ≤ phaseOf s) && decide (phaseOf s < c1End s)

/-- A record of what leaves the part. (Log 10 DESIGN CHOICE safe, 12 DESIGN CHOICE safe.) -/
def send (s : State) (x : Sent) : State := { s with sent := s.sent ++ [x] }

/-- The message of Table 14-1. -/
def faultMsg (src : Nat) (k : Kind) (addr : Nat) (bad : Bool) : BitVec 64 :=
  let hi := (src % 512) * 2 ^ 47 + k.info.1 * 2 ^ 40 + k.info.2 * 2 ^ 37 + addr % 2 ^ 32
  let c := crc8 hi
  BitVec.ofNat 64 (hi * 256 + (if bad then 255 - c else c))

/-- A block reports an error to the hub (R353 to R357); an armed injection inverts the CRC-8 (R377). -/
def report (s : State) (src : Nat) (k : Kind) (addr : Nat) : State :=
  let bad := rb s (fltR 0x080) 31 && rf s (fltR 0x080) 27 24 == 12 && rf s (fltR 0x080) 8 0 == src
  let s := whenB bad (fun s => unflag s (fltR 0x080) 0x80000000) s
  modFlt s fun f => { f with bus := f.bus ++ [(now s, faultMsg src k addr bad)] }

/-- An access fault at an address: unit 31 of the block that owns it, SYS for no block (R355). (Log 23 DEDUCED unsafe.) -/
def accessFault (s : State) (a : Nat) : State :=
  let b := if 0x40000000 ≤ a ∧ a < 0x400F0000 then blockOf a else 0
  report s (32 * b + 31) .access a

/-- A discard event (R34, R35): cause, source, block and whether work was in flight. -/
def discard (s : State) (cause src blk : Nat) (work : Bool) : State :=
  let pri := if cause = 2 then 4 else if cause = 4 then 3 else if cause = 3 then 2 else 1
  let same := s.sys.discLt == some (now s)
  let e := reg s (sysR 0x010)
  let info := wd (src % 512 * 2 ^ 16 + blk * 16 + b2n work)
  let s := setReg s (sysR 0x018) (wd (now s))
  if same then
    if s.sys.discPri < pri then
      let old := rb s (sysR 0x014) 0
      let s := setReg (setReg s (sysR 0x010) (setFld e 3 0 cause)) (sysR 0x014) (setFld info 0 0 (b2n (work || old)))
      modSys s fun y => { y with discPri := pri }
    else if work then setReg s (sysR 0x014) (setBit (reg s (sysR 0x014)) 0 true) else s
  else
    let s := setReg s (sysR 0x010) (setFld (setFld e 31 8 (fld e 31 8 + 1)) 3 0 cause)
    let s := setReg s (sysR 0x014) info
    modSys s fun y => { y with discLt := some (now s), discPri := pri }

/-- Words as bytes for a CRC, each least significant byte first, as the address space stores them. -/
def leBytes (ws : List Word) : List Byte := ws.flatMap fun w => (wordBytes w).reverse

/-- An entry of the Saffron change log (Table 15-5, R411). (Log 34 DESIGN CHOICE unsafe.) -/
def safLog (s : State) (typ : Nat) (node : BitVec 14) (addr : Nat) (old new : Word) : State :=
  let sq := s.nv.logSeq + 1
  let ws := [sq, wd (typ * 2 ^ 24 + (modeOf s).code * 2 ^ 20 + node.toNat), wd addr, old, new, s.nv.pwrCnt, wd (now s)]
  let all := ws ++ [wd (crc32c (leBytes ws))]
  let i := s.nv.logNext
  modNv s fun v =>
    { v with log := (List.range 8).foldl (fun m w => kput 0 m (8 * i + w) (all.getD w 0)) v.log
             logSeq := sq
             logNext := (i + 1) % 256
             unack := Nat.min 256 (v.unack + 1) }

/-- The change log holds no room for anything but locks and service records (R412): LOG_FULL is shown and
reported once per run. -/
def logFull (s : State) : State :=
  if s.saf.fullRun then s
  else modSaf (report s 357 .logFull (safR 0x008)) fun f => { f with fullRun := true }

/-- 248 or more entries are unacknowledged. -/
def logIsFull (s : State) : Bool := decide (248 ≤ s.nv.unack)

/-- RWL fields may be written: unlocked, and not under the factory password (R409). (Log 28 DEDUCED safe.) -/
def rwlOpen (s : State) : Bool := s.saf.unlocked && !s.nv.default

/-- The node ID of who makes an access. -/
def originNode (s : State) : Origin → BitVec 14
  | .fabric src => BitVec.ofNat 14 (src.toNat / 64)
  | _ => nodeId s

/-- One field of a register under a write of val; hw are bits hardware has just set, unl opens RWL fields. -/
def fieldWrite (val hw : Word) (unl : Bool) (cur : Word) (f : Nat × Nat × Acc) : Word :=
  let m := maskOf f.1 f.2.1
  let set := (cur &&& ~~~ m) ||| (val &&& m)
  match f.2.2 with
  | .rw => set
  | .ro => cur
  | .wo => cur
  | .w1c => cur &&& ~~~ (val &&& m &&& ~~~ hw)
  | .w1s => cur ||| (val &&& m)
  | .rwl => if unl then set else cur

/-- The mask of a register's fields of one access. -/
def accMask (r : RegRow) (p : Acc → Bool) : Word :=
  r.fs.foldl (fun m f => if p f.2.2 then m ||| maskOf f.1 f.2.1 else m) 0

/-- A write to a register by its access codes, its mode gate and the RWL rule (R10, R499, R411, R412). (Log 7 DESIGN CHOICE safe, 15 DEDUCED unsafe.) -/
def regWrite (s : State) (o : Origin) (a : Nat) (r : RegRow) (val : Word) : State :=
  if !r.modes.isEmpty && !r.modes.contains (modeOf s) then accessFault s a
  else
    let old := reg s a
    let hw := (s.hwSet.filter fun e => e.1 == a).foldl (fun w e => w ||| e.2) (0 : Word)
    let m := accMask r (· == .rwl)
    let others := accMask r fun c => c == .rw || c == .w1c || c == .w1s || c == .wo
    let has := m != 0
    let full := rwlOpen s && logIsFull s
    let unl := rwlOpen s && !full
    let new := r.fs.foldl (fieldWrite val hw unl) old
    let hit := has && ((old ^^^ val) &&& m != 0 || others == 0)
    let sw := val &&& accMask r (· == .w1s)
    let s := setReg s a new
    let s := whenB (sw != 0) (fun s => { s with swSet := (a, sw) :: s.swSet }) s
    if !has then s
    else if unl then
      let s := safLog s 1 (originNode s o) a old new
      let s := report s 357 .cfgChange a
      modSaf s fun f => { f with lockAt := now s + sec 600 }
    else if full then logFull s
    else if hit then accessFault s a
    else s

/-- A write by the access codes of the register map; no row there is an access fault (R16). (Log 13 DESIGN CHOICE unsafe.) -/
def genWrite (s : State) (o : Origin) (a : Nat) (val : Word) : State :=
  match rowOf a with
  | some r => regWrite s o a r val
  | none => accessFault s a

/-- The blocks of Table 1-1 that a role clocks. (Log 29 DEDUCED unsafe.) -/
def blockOn (r : Role) (b : Nat) : Bool :=
  match r with
  | .cell => !(b == 8 || b == 13 || b == 14)
  | .arm => b != 5
  | .pole => !(b == 4 || b == 5)
  | .station => !(b == 4 || b == 5)
  | .reserved => !(b == 8 || b == 13 || b == 14)

/-- The address belongs to a unit that Pruning has fenced off (R371). -/
def fenced (s : State) (a : Nat) : Bool :=
  let pr := (reg s (fltR 0x090)).toNat
  let b := blockOf a
  let o := (a - 0x40000000) % 0x10000
  (b == 2 && decide (0x100 ≤ o ∧ o < 0x280) && pr.testBit ((o - 0x100) / 0x40)) ||
    (b == 14 && decide (0x100 ≤ o ∧ o < 0x400) && pr.testBit (5 + o / 0x100)) || (b == 9 && pr.testBit 9)

/-- Registers of TMK that serve a PT instance: the epoch, the instances and the launch slots. (Log 115 DEDUCED safe.) -/
def ptReg (a : Nat) : Bool :=
  let o := a - tmkR 0
  blockOf a == 1 && ((decide (0x010 ≤ o) && decide (o < 0x01C)) || (decide (0x100 ≤ o) && decide (o < 0x200)) ||
    (decide (0x300 ≤ o) && decide (o < 0x340)))

/-- A register access reaches its block: the role clocks it (R14, R457), no Pruning fences it off (R371) and no
block reset holds it (R370). In the CELL role TMK keeps TT and LT only (R38, Table 1-1). (Log 26 DEDUCED safe, 115 DEDUCED safe.) -/
def reachable (s : State) (a : Nat) : Bool :=
  !(isCell s && ptReg a) && blockOn (roleOf s) (blockOf a) && !fenced s a && (kget none s.flt.rstBlk (blockOf a)).isNone &&
    !(blockOf a == 13 && decide (0x800 ≤ (a - 0x40000000) % 0x10000) && roleOf s != .station)

/-- A write to a register, where its block is reached; otherwise an access fault (R14). -/
def gate (s : State) (a : Nat) (f : State → State) : State := if reachable s a then f s else accessFault s a

/-- The direction of a port: 0 OFF, 1 UP, 2 UP secondary, 3 DOWN, 4 PARTNER (Table 3-1); reserved codes are OFF. -/
def dirOf (s : State) (p : Nat) : Nat :=
  if (reg s (fltR 0x090)).toNat.testBit p then 0
  else let d := rf s (trlR (0x100 + 0x40 * p)) 2 0
       if 5 ≤ d then 0 else d

/-- Ports with a direction. -/
def portsOf (s : State) (d : Nat) : List Nat := (List.range 6).filter fun p => dirOf s p == d

def downPorts (s : State) : List Nat := portsOf s 3

def upPorts (s : State) : List Nat := (List.range 6).filter fun p => dirOf s p == 1 || dirOf s p == 2

def partnerPort (s : State) : Option Nat := (portsOf s 4).head?

/-- A port carries packets. -/
def isActive (s : State) (p : Nat) : Bool := (portOf s p).stage == .active && dirOf s p != 0

/-- A port carries Cayennes and tick symbols: LOCK, CAPS or ACTIVE, outside a forwarded pass (R97, R503). -/
def isLive (s : State) (p : Nat) : Bool :=
  let t := portOf s p
  dirOf s p != 0 && !t.fwdPass && (t.stage == .lock || t.stage == .caps || t.stage == .active)

/-- A packet waits on a port in the queue of its class; `data` names the C3 queue. -/
def enqueue (s : State) (p : Nat) (pk : Packet) (data : Bool) : State :=
  modPort s p fun t =>
    if pk.cls = 1 then { t with q1 := t.q1 ++ [pk] }
    else if pk.cls = 2 then { t with q2 := t.q2 ++ [pk] }
    else if data then { t with q3d := t.q3d ++ [pk] } else { t with q3m := t.q3m ++ [pk] }

/-- The transmit queues of a port are empty. -/
def portIdle (t : PortSt) : Bool := t.q1.isEmpty && t.q2.isEmpty && t.q3d.isEmpty && t.q3m.isEmpty && t.qx.isEmpty && t.cut.isNone

/-- A port without its waiting packets. (Log 55 DEDUCED unsafe.) -/
def PortSt.drop (t : PortSt) : PortSt := { t with q1 := [], q2 := [], q3d := [], q3m := [], qx := [], cut := none, turn := 0 }

/-- A loop-engine job is due and has not completed: a Class S job of this tick, or a run of a cascade. -/
def jobsWait (s : State) : Bool :=
  (List.range 4).any (fun i => let x := kget default s.lpe.inst i; !(x.st == .off || x.st == .stopped) && !x.ran) ||
    !s.lpe.pend.isEmpty || !s.lpe.runs.isEmpty

/-- A core holds packets it has received or waits to send. -/
def coreWork (s : State) (n : Nat) : Bool := let c := coreOf s n; !c.rxq.isEmpty || !c.txq.isEmpty

/-- Types that go one hop, whatever their DEST: link-local packets, and those of the Riddle and the tick. -/
def hopType (typ : Nat) : Bool := [0x08, 0x09, 0x0A, 0x0D, 0x0E, 0x10, 0x11, 0x12, 0x1A, 0x1B].contains typ

/-- Some work is in flight in the whole part (R29): a fabric transaction, an XHP command, a loop-engine job, or a
record that the capture engine moves. -/
def anyWork (s : State) : Bool :=
  (List.range 6).any (fun p => !portIdle (portOf s p)) || !s.trr.orphans.isEmpty || !s.trr.reqs.isEmpty || !s.stp.xq.isEmpty || !s.stp.xfly.isEmpty ||
    (List.range 4).any (coreWork s) || jobsWait s || s.cap.st != .idle

/-- The loop-engine jobs still due in this tick do not run, and the runs under way end without effect (R29, R32). -/
def jobsDrop (l : Lpe) : Lpe :=
  { l with inst := (List.range 4).foldl (fun m i => kmod default m i fun x => { x with ran := true }) l.inst, pend := [], runs := [] }

/-- A frame that waits on an Ethernet port is an XHP response: an XHP datagram whose OP has bit 7 set (Table 12-5). -/
def isXhpResp (f : EthTx) : Bool := f.dest.isSome && (f.what.getD 3 0).toNat / 128 == 1

/-- All fabric transactions, queued XHP commands and loop-engine jobs are dropped (Table 1-6, switch-over), and the
completions that have not left (R31): packets of the cores and XHP responses that wait. -/
def dropWork (s : State) : State :=
  let s := (List.range 6).foldl (fun s p => modPort s p PortSt.drop) s
  let s := (List.range 4).foldl (fun s n => modCore s n fun c => { c with txq := [] }) s
  let s := modTrr s fun t => { t with reqs := [], orphans := [] }
  let s := modStp s fun t =>
    { t with xq := [], xfly := []
             txq := (List.range 2).foldl (fun m e => kmod [] m e fun l => l.filter fun f => !isXhpResp f) t.txq }
  modLpe s jobsDrop

/-- FB_TMO in units of LT (10 ns units; values below 10 are 10). -/
def fbTmo (s : State) : Nat := 5 * Nat.max 10 (rf s (swgR 0x000) 15 8)

/-- GCMD of a channel goes low at an LT. -/
def gcmdLow (g : Swg) (t m : Nat) : Swg :=
  { g with gcmd := g.gcmd &&& ~~~ (1#8 <<< m), offLt := kput 0 g.offLt m t, cyc := kmod 0 g.cyc m (· + 1) }

/-- It falls on command: its comparators become inactive, and its feedback is judged a time tmo later (R196 to R198). (Log 65 DEDUCED unsafe.) -/
def gcmdFall (g : Swg) (t tmo m : Nat) : Swg :=
  if g.gcmd.toNat.testBit m then
    { gcmdLow g t m with desat := g.desat &&& ~~~ (1#8 <<< m), hs := g.hs &&& ~~~ (1#8 <<< m), fbDue := kput none g.fbDue m (some (t + tmo)) }
  else g

/-- The protective turn-off drops it: R208 alone judges its feedback (R196). What its comparators have detected by then
counts (R200). (Log 67 DEDUCED safe.) -/
def gcmdDrop (g : Swg) (t m : Nat) : Swg :=
  if g.gcmd.toNat.testBit m then { gcmdLow g t m with fbDue := kput none g.fbDue m none, mute := g.mute ||| (1#8 <<< m) } else g

/-- The protective turn-off of Table 7-2 starts from an origin of LT, unless one runs (R206, R207): SOFTOFF, every
GCMD low, pending edges cancelled (R184), TRIPPED, state B. (Log 67 DEDUCED safe.) -/
def turnOffAt (s : State) (origin : Nat) : State :=
  if !isCell s then s
  else if s.swg.seqAt.isSome then s
  else
    let s := modSwg s fun g =>
      let g := (List.range 8).foldl (fun g m => gcmdDrop g (now s) m) g
      { g with want := 0, waitOn := 0, shoot := 0, own := 0, softoff := true, tripped := true, seqAt := some origin, offChk := true
               asked := false }
    modRdl s fun r =>
      { r with state := if r.state = .bypassed then .bypassed else .blocked
               fracNow := false, dec := none, edgeDone := true, legB := none, pulse := none, forced := none, forceNow := none, forceNew := none }

/-- The protective turn-off whose origin is the present cycle. (Log 67 DEDUCED safe.) -/
def turnOff (s : State) : State := turnOffAt s (now s)

/-- A packet of the part's own: SRC is its node ID with an endpoint index. -/
def ownPacket (s : State) (dest : BitVec 20) (ep : Nat) (typ cls : Nat) (seq : BitVec 8) (pay : List Word) : Packet :=
  ⟨dest, BitVec.ofNat 20 ((nodeId s).toNat * 64 + ep), BitVec.ofNat 6 typ, BitVec.ofNat 2 cls, seq, pay⟩

def pairCmd : Nat := sysR 0x058

/-- A word goes to the partner's SYS_PAIR_CMD over C2, one hop on the PARTNER port (R426, R433, R434). (Log 56 DESIGN CHOICE unsafe.) -/
def partnerCmd (s : State) (val : Word) : State :=
  match partnerPort s with
  | some p => if isActive s p then enqueue s p (ownPacket s 0 0 0x01 2 0 [wd pairCmd, val]) false else s
  | none => s

/-- PEER_UPD with PEER_VAL to the partner (R434). -/
def peerTell (s : State) (v : Bool) : State := partnerCmd s (if v then 0x18000000 else 0x10000000)

/-- INTL_OUT goes low (R418); a paired active part ceases to be active, which is a switch-over (R29, R36), and SYNCED, if
it was 1, goes with it, which the partner is told (R434). (Log 107 DEDUCED unsafe.) -/
def intlDrop (s : State) : State :=
  if s.sys.pair.active && rb s (sysR 0x050) 31 then
    let w := anyWork s
    let was := s.sys.pair.synced
    let s := modPair (dropWork s) fun p => { p with intlOut := false, active := false, synced := false, yieldTk := none }
    let s := discard s 4 0x1FF 0xF w
    if was then peerTell s false else s
  else modPair s fun p => { p with intlOut := false }

/-- FLT source of SUP unit 3, the ledger. -/
def srcLedger : Nat := 387

/-- State memory of a Class S instance, word w. -/
def lpeMem (i w : Nat) : Nat := lpeR (0x3000 + 0x100 * i + 4 * w)

/-- The record that lets a mode transition be dropped in its own cycle; the earliest of the cycle stands (R8). -/
def undoMark (s : State) : State :=
  if s.sys.undo.any (·.at_lt == now s) then s
  else modSys s fun y =>
    { y with undo := some { at_lt := now s, mode := y.mode, cause := y.cause, alive := (s.flt.running, s.flt.lastEdge), saf := s.saf
                            nv := s.nv, trip := s.swg.tripped, first := s.rdl.first, active := y.pair.active, wake := s.sup.wake, inst := s.lpe.inst
                            words := (List.range 64).map fun k => reg s (lpeMem (k / 16) (k % 16)) } }

/-- The island as it stood before a transition: its lock, outputs, demands and test times. -/
def Saf.undo (f u : Saf) : Saf :=
  { f with unlocked := u.unlocked, lockAt := u.lockAt, demand := u.demand, outA := u.outA, outB := u.outB, outAt := u.outAt
           risen := u.risen, leftSafe := u.leftSafe, due := u.due, okAt := u.okAt }

/-- The state memory of the Class S instances takes its words back. -/
def wordsBack (w : List Word) (s : State) : State :=
  (List.range 64).foldl (fun s k => setReg s (lpeMem (k / 16) (k % 16)) (w.getD k 0)) s

/-- What a transition changed is as it was before, its words of state memory apart. -/
def transBack (u : Undo) (s : State) : State :=
  let s := modSup (modFlt s fun f => { f with running := u.alive.1, lastEdge := u.alive.2 }) fun v => { v with wake := u.wake }
  let s := modNv (modSaf s (·.undo u.saf)) fun v => if v.logSeq = u.nv.logSeq + 1 then u.nv else v
  let s := modLpe (modRdl (modSwg s fun g => { g with tripped := g.tripped || u.trip }) fun r => { r with first := u.first }) fun l => { l with inst := u.inst }
  modSys s fun y => { y with mode := u.mode, cause := u.cause, undo := none, pair := { y.pair with active := u.active } }

/-- A demand for SAFE drops a transition that fell in the same cycle: what the transition changed is as it was (R8). -/
def dropTrans (s : State) : State :=
  match s.sys.undo with
  | none => s
  | some u =>
    if u.at_lt = now s ∧ modeOf s ≠ .safe then
      transBack u (wordsBack u.words s)
    else s

/-- The part leaves BOOT: ALIVE begins to toggle (R379, R380). -/
def aliveBegin (s : State) : State := modFlt s fun f => { f with running := true, lastEdge := if f.running then f.lastEdge else now s }

/-- READY, RUN or DEGRADED, the modes of tests (R400). -/
def testMode (s : State) : Bool := modeOf s == .ready || modeOf s == .run || modeOf s == .degraded

/-- The time without a completed test stands still outside the modes of tests (R404). -/
def testLeave (s : State) : State := if testMode s then modSaf s fun f => { f with okAcc := now s - f.okAt } else s

/-- What an entry to SAFE does that needs no demand: the end of the DEGRADED timer, STOPPED instances (R258), INTL_OUT low
(R418), the turn-off of a cell whose GCMD is high (R206) and the end of a forced state (R189). -/
def safeEffects (s : State) : State :=
  let s := modFlt s fun f => { f with degTil := none, degSrc := [] }
  let s := modLpe s fun l =>
    { l with inst := (List.range 4).foldl (fun m i => kmod default m i fun x => if x.st = .off then x else { x with st := .stopped }) l.inst }
  let s := intlDrop s
  if isCell s then
    let s := if s.swg.gcmd ≠ 0 then turnOff s else s
    let s := modSwg s fun g => { g with want := 0, waitOn := 0, shoot := 0 }
    modRdl s fun r =>
      { r with state := if r.state = .bypassed then .bypassed else .blocked
               fracNow := false, dec := none, edgeDone := true, legB := none, pulse := none, forced := none, forceNow := none, forceNew := none }
  else s

/-- The core of an entry to SAFE, or of a further cause in SAFE (R452): SAFE_CAUSE bit, mask bit, mode, and on
entry the end of a waiting command (R8) and the effects that need no demand. A part that behaves as R3 gives stays in BOOT. (Log 30 DEDUCED safe.) -/
def safeCore (s : State) (bit : Nat) (src : Option Nat) : State :=
  if s.sys.barred then s else
  let s := dropTrans s
  let s := modSys s fun y => { y with cause := y.cause ||| BitVec.ofNat 7 (2 ^ (bit - 16)) }
  let s := match src with
    | some n => setReg s (sysR (0x200 + 4 * (n / 32))) (setBit (reg s (sysR (0x200 + 4 * (n / 32)))) (n % 32) true)
    | none => s
  if modeOf s = .safe then modSys s fun y => { y with cmd := if y.cmdDue then none else y.cmd }
  else
    let s := testLeave (if modeOf s = .boot then aliveBegin s else s)
    safeEffects (modSys s fun y => { y with mode := .safe, cmd := none })

/-- A running test is aborted by a demand (R403). -/
def testAbort (s : State) : State :=
  if s.saf.test.isSome then
    modSaf s fun f => { f with test := none, last := 3, due := some (now s + sec (clampN 1 86400 (rf s (safR 0x014) 31 15))) }
  else s

/-- FB_DLY of Saffron, µs (0 treated as 1). -/
def fbDly (s : State) : Nat := Nat.max 1 (rf s (safR 0x010) 23 16)

/-- The outputs go to their demanding level: an actuation in the CELL role (R395), low in upper roles (R388). -/
def demandOut (s : State) : State :=
  if isCell s then
    modSaf s fun f => { f with outA := true, outB := true, outAt := now s, actErr := false
                               act := some (now s + ms (clampN 1 1000 (rf s (safR 0x010) 15 0)))
                               actChk := some (now s + us (fbDly s)) }
  else modSaf s fun f => { f with outA := false, outB := false, outAt := now s }

/-- A demand is recognised (R393, R396, R403): its cause bit; and when it is the first, the outputs, the report
and SAFE, without the Cayenne of R394. Before the self-test ends the outputs stay low (R389). (Log 30 DEDUCED safe, 31 DEDUCED unsafe.) -/
def demandCore (s : State) (bit : Nat) : State :=
  let s := dropTrans s
  let first := s.saf.demand == 0 && s.saf.act.isNone
  let s := modSaf s fun f => { f with demand := f.demand ||| BitVec.ofNat 8 (2 ^ bit) }
  if !first then s
  else
    let s := report (testAbort s) 356 .demand (safR 0x00C)
    let s := modSaf s fun f => { f with leftSafe := false }
    let s := if s.saf.testRun then demandOut s else s
    let was := modeOf s == .safe
    let s := safeCore s 18 (some 356)
    if isUpper s && !was && modeOf s == .safe then modSaf s fun f => { f with demand := f.demand ||| 0x20 } else s

/-- Entry to SAFE, or a further cause in SAFE; in upper roles an entry is a Saffron demand (Table 15-2). (Log 30 DEDUCED safe.) -/
def enterSafe (s : State) (bit : Nat) (src : Option Nat) : State :=
  let s := dropTrans s
  let was := modeOf s == .safe
  let s := safeCore s bit src
  if isUpper s && !was && modeOf s == .safe then demandCore s 5 else s

/-- TRR_CAY_HOLD in units of LT. (Log 54 DEDUCED unsafe.) -/
def cayHold (s : State) : Nat := us (Nat.max 1 (rf s (trrR 0x020) 7 0))

/-- The scope code 3 is domain. -/
def scopeOf (v : Nat) : BitVec 2 := BitVec.ofNat 2 (Nat.min v 2)

/-- EXPECT of a port: the role the walk expects there, as the role straps. -/
def expectOf (s : State) (p : Nat) : Nat := rf s (trrR 0x004) 11 0 / 4 ^ p % 4

/-- Table 4-8: the ports a node may send a Cayenne of a scope on, as a row of its role; none where the row says
"Not applied, not forwarded". -/
def cayPorts (s : State) (sc : BitVec 2) : Option (List Nat) :=
  let all := List.range 6
  match roleOf s, sc.toNat with
  | .arm, 0 => some (all.filter fun p => dirOf s p == 3 || dirOf s p == 4)
  | .pole, 0 => none
  | .station, 0 => none
  | .station, 1 => some (all.filter fun p => dirOf s p == 4 || (dirOf s p == 3 && expectOf s p == 1))
  | _, _ => some all

/-- Table 4-8: the scope is applied at a receiving node of the role. -/
def cayApplies (s : State) (sc : BitVec 2) : Bool :=
  match roleOf s, sc.toNat with
  | .pole, 0 => false
  | .station, 0 => false
  | .station, 1 => false
  | _, _ => true

/-- Symbol times for which a span in which Cayennes occupy a transmitter holds a symbol due at an instant (R57). -/
def symHeld (busy : Nat × Nat) (at_ : Nat) : Nat :=
  if busy.1 ≤ at_ ∧ at_ < busy.2 then divUp (busy.2 - at_) 3200 else 0

/-- A tick symbol that waits on a port while a Cayenne goes first is held for whole symbol times (R57, R87). -/
def tickHeld (p : Nat) (busy : Nat × Nat) : Sent → Sent
  | .tick q tt dly at_ =>
    let n := if q.val = p then symHeld busy at_ else 0
    .tick q tt (BitVec.ofNat 2 (Nat.min 3 (dly.toNat + n))) (at_ + 3200 * n)
  | x => x

/-- A Cayenne leaves a port, behind another one and ahead of everything else (R87): its two symbols occupy the
transmitter for 6.4 ns. -/
def cayLeave (s : State) (p : Nat) (sc : BitVec 2) (hops dep : Nat) : State :=
  if h : p < 6 ∧ isLive s p = true then
    let b := (portOf s p).cayBusy
    let c := Nat.max dep b.2
    let b := (if dep ≤ b.2 then b.1 else c, c + 6400)
    let s := modPort s p fun t => { t with cayBusy := b, quietFrom := now s }
    send { s with sent := s.sent.map (tickHeld p b) } (.cayenne ⟨p, h.1⟩ sc (BitVec.ofNat 6 hops) c)
  else s

/-- A Cayenne leaves on ports, each at its own instant. -/
def caySend (s : State) (ps : List Nat) (sc : BitVec 2) (hops : Nat) (dep : Nat → Nat) : State :=
  let s := ps.foldl (fun s p => cayLeave s p sc hops (dep p)) s
  modTrr s fun t => { t with hold := kput none t.hold sc.toNat (some (now s + cayHold s)) }

/-- A Cayenne is applied: the record with the arrival, stamped at 5 ps (R86), the report, the capture trigger and
SAFE (R140, R142); the turn-off of a received one has its origin 8 ns after the arrival (R206). -/
def cayApply (s : State) (sc : BitVec 2) (loc : Bool) (hops ports at_ : Nat) : State :=
  let s := if rb s (trrR 0x024) 31 then s
    else modTrr (setReg (flag (setReg s (trrR 0x024)
        (wd (b2n loc * 2 ^ 30 + sc.toNat * 2 ^ 16 + hops % 64 * 256 + ports % 64))) (trrR 0x024) 0x80000000)
      (trrR 0x028) (wd (at_ / 2000))) fun t => { t with cayAt := (at_ + 2) / 5 * 5 }
  let s := report s 98 .cayenneRx (trrR 0x024)
  let s := modCap s fun c => if rb s (capR 0x018) 10 then { c with trig := c.trig ||| 0x400 } else c
  let s := turnOffAt s (at_ / 2000 + if loc then 0 else 4)
  enterSafe s 17 (some 98)

/-- A node launches a Cayenne (R137): within one symbol time on every allowed live port, the hold, its own effect. -/
def cayLaunch (s : State) (sc : BitVec 2) : State :=
  let ps := match cayPorts s sc with
    | some ps => ps
    | none => downPorts s
  cayApply (caySend s ps sc 0 fun p => nowPs s + Config.cayLatency 6 p % 3201) sc true 0 0 (nowPs s)

/-- A Saffron demand with the Cayenne of R394. -/
def safDemand (s : State) (bit : Nat) : State :=
  let s := dropTrans s
  let first := s.saf.demand == 0 && s.saf.act.isNone
  let s := demandCore s bit
  if first && isUpper s && (bit == 0 || bit == 1 || bit == 6 || bit == 7) then
    cayLaunch s (scopeOf (rf s (safR 0x004) 3 2))
  else s

/-- E_RES of the ledger. -/
def eRes (s : State) : Nat := (reg s (supR 0x110)).toNat

/-- HORIZON of the ledger in ms. -/
def horizon (s : State) : Nat := clampN 1 1000 (rf s (supR 0x100) 21 12)

/-- A work item of power mW is admitted, in the CELL role, only while H covers it (R213); else REFUSED is set and
reported. Outside the CELL role nothing is charged. -/
def ledgerOk (s : State) (mW : Nat) : Bool := !isCell s || decide ((mW * horizon s : Int) ≤ s.sup.head)

/-- A refused work item (R213). -/
def ledgerRefuse (s : State) : State := report (flag s (supR 0x128) 4) srcLedger .ledgerRefuse (supR 0x128)

/-- Safe Bypass is requested for a detected switch fault, if the energy suffices (R209). -/
def bypassAsk (s : State) : State :=
  if s.swg.asked then s
  else if eRes s ≤ s.sup.eAvail then safDemand (modSwg s fun g => { g with asked := true }) 2
  else report (flag s (supR 0x128) 8) srcLedger .reserveShort (supR 0x128)

/-- A switch fault is detected by source src: the turn-off, SAFE in hardware and the request (R205, R206, R209). -/
def guardTrip (s : State) (src : Nat) : State := bypassAsk (enterSafe (turnOff s) 16 (some src))

/-- Table 4-4: the type is known and permits the class (R119). -/
def typeClassOk (typ cls : Nat) : Bool :=
  if [0x01, 0x02, 0x03, 0x04, 0x05].contains typ then cls == 2 || cls == 3
  else if [0x08, 0x09, 0x0A, 0x0D, 0x0E, 0x18, 0x19, 0x1A, 0x1B, 0x21].contains typ then cls == 2
  else if [0x0B, 0x0C, 0x20].contains typ then cls == 3
  else decide (0x10 ≤ typ) && decide (typ ≤ 0x13) && cls == 1

def packetOk (pk : Packet) : Bool := typeClassOk pk.typ.toNat pk.cls.toNat && decide (pk.len ≤ 64)

/-- The node and the endpoint index of an address. -/
def nodeOf (a : BitVec 20) : Nat := a.toNat / 64
def epOf (a : BitVec 20) : Nat := a.toNat % 64

/-- The part holds the node ID of an address (R112). -/
def isOwn (s : State) (a : BitVec 20) : Bool := s.trr.nodeId.any fun n => n.toNat == nodeOf a

/-- A whole packet of one TYPE for this node. -/
def ownIn (s : State) (typs : List Nat) (pk : Packet) (f : State → State) : State :=
  if isOwn s pk.dest && typs.contains pk.typ.toNat && packetOk pk then f s else s

/-- A whole packet of one TYPE that goes one hop. -/
def hopIn (s : State) (typ : Nat) (pk : Packet) (f : State → State) : State :=
  if pk.typ.toNat == typ && packetOk pk then f s else s

end Sys2Proof.Machine
end

