-- ==== Sys2Proof/Machine/Mem.lean ====
section
/-! DEFINITION. The memories of Table 1-2 as sparse bytes in canonical form: what an unlisted byte reads as, reads
and writes of bytes and words, and their check bits (R376, R377). -/

namespace Sys2Proof.Machine

open Sys2Proof

/-- What an unlisted byte reads as: 0 in the RAMs and MRAM, an unprogrammed flash byte in the QSPI window. (Log 3 DESIGN CHOICE unsafe.) -/
def memDefault (a : Nat) : Byte := if 0x60000000 ≤ a then Config.erasedByte 0 else 0

/-- The canonical form of a memory. (Log 3 DESIGN CHOICE unsafe.) -/
def Memory.wf (m : List Host.Cell) : Bool := kvWf memDefault m

/-- A byte of the shared memories. -/
def memByte (s : State) (a : Nat) : Byte := kget (memDefault a) s.mem a

/-- A byte of a memory takes a value. (Log 3 DESIGN CHOICE unsafe.) -/
def bytePut (m : List Host.Cell) (a : Nat) (b : Byte) : List Host.Cell := kput (memDefault a) m a b

/-- Bytes of a memory take values, from an address upward. -/
def bytesPut (m : List Host.Cell) : Nat → List Byte → List Host.Cell
  | _, [] => m
  | a, b :: l => bytesPut (bytePut m a b) (a + 1) l

/-- A number from bytes, least significant first. -/
def leNat : List Byte → Nat
  | [] => 0
  | b :: l => b.toNat + 256 * leNat l

/-- The n bytes of a number, least significant first. -/
def natLe : Nat → Nat → List Byte
  | 0, _ => []
  | n + 1, v => BitVec.ofNat 8 v :: natLe n (v / 256)

/-- n bytes of a memory from an address, as a number. -/
def bytesGet (m : List Host.Cell) (a : Nat) : Nat → Nat
  | 0 => 0
  | n + 1 => (kget (memDefault a) m a).toNat + 256 * bytesGet m (a + 1) n

/-- The memory target of Table 14-9 that holds a shared address. -/
def memTarget (a : Nat) : Nat := if a < 0x30000000 then 0 else if a < 0x50000000 then 1 else 2

/-- The unit that owns a memory target (Table 14-2). -/
def memSource (t : Nat) : Nat :=
  match t with
  | 0 => 1
  | 1 => 289
  | 2 => 2
  | t => 448 + (t - 3) % 4

/-- The key of a 128-bit word of a target. -/
def eccKey (t a : Nat) : Nat := (t * 2 ^ 32 + a) / 16

/-- A write stores new check bits, inverted where an injection is armed for the target (R377). -/
def eccWrite (s : State) (t a : Nat) : State :=
  let r := reg s (fltR 0x080)
  if bitOf r 31 && fld r 27 24 == t then
    modFlt (unflag s (fltR 0x080) 0x80000000) fun f => { f with ecc := kput 0 f.ecc (eccKey t a) (fld r 17 12) }
  else modFlt s fun f => { f with ecc := kput 0 f.ecc (eccKey t a) 0 }

/-- A read checks its word (R376): a burst of up to 16 bits is corrected, a longer one is an error. -/
def eccRead (s : State) (t a : Nat) : State × Bool :=
  let n := kget 0 s.flt.ecc (eccKey t a)
  if n = 0 then (s, true)
  else if n ≤ 16 then
    (report (modFlt s fun f => { f with ecc := kput 0 f.ecc (eccKey t a) 0 }) (memSource t) .memCorr (a / 16 * 16), true)
  else (report s (memSource t) .memUncorr (a / 16 * 16), false)

/-- A write of bytes within one 128-bit word of the shared memories. -/
def memWrite (s : State) (a : Nat) (bs : List Byte) : State :=
  eccWrite { s with mem := bytesPut s.mem a bs } (memTarget a) a

/-- A read of n bytes within one 128-bit word: the value and whether it is good. -/
def memRead (s : State) (a n : Nat) : State × Nat × Bool :=
  if 0x60000000 ≤ a then (s, bytesGet s.mem a n, true)
  else
    let r := eccRead s (memTarget a) a
    (r.1, bytesGet s.mem a n, r.2)

/-- The ranges of Table 1-2 that every agent reaches. -/
def inSram (a : Nat) : Bool := decide (0x20000000 ≤ a) && decide (a < 0x20400000)
def inCapRam (a : Nat) : Bool := decide (0x30000000 ≤ a) && decide (a < 0x30200000)
def inMram (a : Nat) : Bool := decide (0x50000000 ≤ a) && decide (a < 0x50080000)
def inFlash (a : Nat) : Bool := decide (0x60000000 ≤ a) && decide (a < 0x64000000)
def inPeriph (a : Nat) : Bool := decide (0x40000000 ≤ a) && decide (a < 0x400F0000)

/-- Bytes of the shared memories, from an address upward. -/
def memBytes (s : State) (a : Nat) : Nat → List Byte
  | 0 => []
  | n + 1 => memByte s a :: memBytes s (a + 1) n

/-- The flash offset of an image slot. -/
def slotBase (b : Bool) : Nat := if b then 0x62000000 else 0x60000000

/-- The Saffron image revision, SF_REV of SAF_ID. -/
def sfRev (s : State) : Nat := rf s (safR 0x000) 15 8

/-- The silicon vector of revision C1 (Table 11-5). -/
def siliconVector : List Byte := [1, 2, 0, 0, 0x10, 0x10, 0, 0xFF, 0, 0xFF, 0x10, 0x10, 0, 0, 0, 0]

/-- The part's own compatibility vector: the silicon vector of a cell, that of the running image of an upper part,
with OWN_SF filled in. (Log 94 DEDUCED unsafe.) -/
def ownVector (s : State) : List Byte :=
  let v := if isUpper s && s.sys.bootOk then memBytes s (slotBase (rb s (sysR 0x034) 4) + 0x10) 16 else siliconVector
  setAt v 3 (BitVec.ofNat 8 (sfRev s))

/-- Byte i of a list as a number. -/
def byteAt (l : List Byte) (i : Nat) : Nat := (l.getD i 0).toNat

/-- A vector covers a peer (R313). -/
def covers (v : List Byte) (fprev : Nat) (peer : List Byte) : Bool :=
  let within (x lo hi : Nat) : Bool := decide (lo ≤ x) && decide (x ≤ hi)
  within fprev (byteAt v 4) (byteAt v 5) &&
    (!(byteAt v 1 == 0 && byteAt peer 1 == 0) ||
      (within (byteAt peer 2) (byteAt v 8) (byteAt v 9) && within (byteAt peer 3) (byteAt v 6) (byteAt v 7)))

end Sys2Proof.Machine
end

