-- ==== Sys2Proof/Machine/Lanes.lean ====
section
/-! DEFINITION. Trellis lanes: port configuration, bring-up stages, loss and retrain, electrical idle and the
eye scan. -/

namespace Sys2Proof.Machine

open Sys2Proof

def trlCfg (p : Nat) : Nat := trlR (0x100 + 0x40 * p)
def trlStat (p : Nat) : Nat := trlR (0x104 + 0x40 * p)

/-- An upper-role configuration breaks R83. -/
def portConfigBroken (s : State) : Bool :=
  isUpper s &&
    (decide (2 < (upPorts s).length) || decide (1 < (portsOf s 4).length) || (roleOf s == .station && !(upPorts s).isEmpty))

/-- A symbol count in units of LT, rounded up: 3.2 ns a symbol. -/
def symbols (n : Nat) : Nat := (n * 8 + 4) / 5

/-- A scan starts by TRL_EYE_CTRL, after its checks and the ledger's admission of 20 mW (R108, R213). -/
def eyeStart (s : State) : State :=
  let a := trlR 0x040
  let p := rf s a 29 27
  let dw := rf s a 23 18
  let stop (s : State) : State := setRf (setReg s a (setBit (reg s a) 31 false)) (trlR 0x044) 3 0 3
  if 5 < p ∨ dw < 16 ∨ 40 < dw ∨ rf s a 5 0 = 32 then stop s
  else if !ledgerOk s 20 then stop (ledgerRefuse s)
  else
    let sweep := rb s a 26
    let s := if sweep then { s with regs := s.regs.filter fun e => !(decide (trlR 0x8000 ≤ e.1) && decide (e.1 < trlR 0xBF00)) } else s
    { setRf s (trlR 0x044) 3 0 1 with eye := some ⟨p, sweep, 0, now s⟩ }

/-- A scan ends with a STATE; a START of the same cycle starts the next one (R13, R109). -/
def eyeEnd (s : State) (st : Nat) : State :=
  actionEnd { setRf s (trlR 0x044) 3 0 st with eye := none } (trlR 0x040) 0x80000000 eyeStart

/-- The scan of a port ends as ABORTED (R108). -/
def eyeAbortOn (s : State) (p : Nat) : State := if s.eye.any (·.port == p) then eyeEnd s 3 else s

/-- The link of a port leaves ACTIVE: the flits under way are lost at it, and the packets held on it wait for another
way, those for the far end of the link apart (R103, R111). (Log 55 DEDUCED unsafe.) -/
def linkDrop (s : State) (p : Nat) : State :=
  let t := portOf s p
  let l := (t.q2 ++ t.q3d ++ t.q3m).filter fun k => !hopType k.typ.toNat && k.dest != 0
  let s := if h : p < 6 then (if now s < t.lastTx then send s (.broken ⟨p, h⟩) else s) else s
  modTrr (modPort s p fun t => { t.drop with lastTx := now s }) fun r => { r with orphans := r.orphans ++ l.map fun k => (p, k) }

/-- A port starts bring-up anew: DETECT in reference mode (R89). -/
def PortSt.detect (t : PortSt) (lt : Nat) : PortSt :=
  { t with stage := .detect, fwd := false, fwdPass := false, since := lt, idleRx := false, idleTx := false, idleTill := 0
           cleanFrom := lt, errs := [], hop := [], capsGood := 0, capsFirst := [], capsAck := false, capsN := 0, cut := none }

/-- A port returns to DETECT; a loss of ACTIVE sets LOSS and reports LINK_LOSS (R102, R503). (Log 55 DEDUCED unsafe.) -/
def toDetect (s : State) (p : Nat) (loss : Bool) : State :=
  let s := eyeAbortOn s p
  let s := if (portOf s p).stage == .active || (portOf s p).fwdPass then linkDrop s p else s
  let s := modPort s p fun t => t.detect (now s)
  if loss then report (flag s (trlStat p) 4) (64 + p) .linkLoss (trlStat p) else s

/-- Leaving ACTIVE: a port in ACTIVE, or in the forwarded pass from it. -/
def wasActive (t : PortSt) : Bool := t.stage == .active || t.fwdPass

/-- A retrain of a port (R102): it returns to DETECT unless it is OFF. -/
def retrain (s : State) (p : Nat) : State :=
  if dirOf s p = 0 then s else toDetect s p (wasActive (portOf s p))

/-- A port follows a changed direction: OFF drives nothing, any other starts in DETECT (R80). -/
def followDir (s : State) (p : Nat) (old : Nat) : State :=
  let d := dirOf s p
  if d = old then s
  else if d = 0 then modPort (eyeAbortOn s p) p fun t => { (t.detect (now s)).drop with stage := .off, powered := false }
  else modPort s p fun t => { t.detect (now s) with powered := true }

/-- The direction R81 fixes for a cell's port. -/
def cellDir (p : Nat) : Nat := if p = 0 then 1 else if p = 1 then 2 else 3

/-- A write of TRL_PpCFG (R81, R82, R83): DIR only where the role and the mode permit it, the ledger's admission
of a port that an arm enables (Table 7-5), then RETRAIN. A configuration that breaks R83 takes every port to DETECT
without LOSS or LINK_LOSS, and a write that changes DIR reports it, with the source of the port written: the model's
choice. (Log 118 DESIGN CHOICE unsafe.) -/
def portCfg (s : State) (o : Origin) (p : Nat) (val : Word) : State :=
  let a := trlCfg p
  let cur := rf s a 2 0
  let d := fld val 2 0
  let old := dirOf s p
  let okDir := d = cur ∨ (if isCell s then d = 0 ∨ d = cellDir p else modeOf s = .boot)
  let enabling := isCell s && decide (cur = 0) && decide (d ≠ 0) && decide okDir
  let refused := enabling && !ledgerOk s 100
  let v := if decide okDir && !refused then val else setFld val 2 0 cur
  let s := genWrite s o a v
  let s := if okDir then s else accessFault s a
  let s := if refused then ledgerRefuse s else s
  let s := followDir s p old
  let s := if bitOf val 31 then retrain s p else s
  if portConfigBroken s then
    let s := (List.range 6).foldl (fun s q => if dirOf s q = 0 then s else modPort s q fun t => t.detect (now s)) s
    if d ≠ cur then report s (64 + p) .portConfig a else s
  else s

/-- The port may leave DETECT: R93, R94, R95, R445, R83, R3, R311. -/
def mayTrain (s : State) (p : Nat) : Bool :=
  let t := portOf s p
  t.stage == .detect && dirOf s p != 0 && decide (t.since + us 100 ≤ now s) && decide (t.holdUntil ≤ now s) &&
    !portConfigBroken s && roleOf s != .reserved && !s.sys.stopped && (t.powered || !isCell s) &&
    (dirOf s p != 3 || roleOf s == .station || rb s (trlR 0x000) 0 || (upPorts s).any (isActive s))

/-- The timeout of a stage, in units of LT; none for DETECT and ACTIVE (Table 3-3). -/
def stageLimit (t : PortSt) : Option Nat :=
  match t.stage with
  | .train => some (if t.fwdPass then ms 1 else ms 2)
  | .lock => some (us 100)
  | .caps => some (ms 10)
  | _ => none

/-- A stage's timeout (R93, R95, R503). LINK_FAIL is reported at the timeout whose count equals RETRY_LIMIT, once until
the count clears: the model's choice. (Log 118 DESIGN CHOICE unsafe.) -/
def stageOut (s : State) (p : Nat) : State :=
  let t := portOf s p
  match stageLimit t with
  | none => s
  | some l =>
    if now s < t.since + l then s
    else
      let lim := Nat.max 1 (rf s (trlCfg p) 23 20)
      let n := t.retries + 1
      let s := toDetect (flag s (trlStat p) 2) p t.fwdPass
      let s := modPort s p fun t =>
        { t with fails := Nat.min 255 (t.fails + 1), retries := n
                 holdUntil := if lim ≤ n then now s + ms 100 else t.holdUntil }
      if n = lim then report s (64 + p) .linkFail (trlStat p) else s

/-- The cause of a loss is one this port can see: RXC, idle and code errors on any, the lane PLL on UP ports. (Log 51 DEDUCED unsafe.) -/
def lossSeen (s : State) (p : Nat) (c : LossCause) : Bool :=
  match c with
  | .pllLoss => dirOf s p == 1 || dirOf s p == 2
  | .codeErrors => decide (16 ≤ ((portOf s p).errs.filter fun e => decide (now s < e + symbols 1024)).length)
  | _ => true

def execPortCfgWrite (o : Origin) (p : Port) (val : Word) (s : State) : Out :=
  .next (live s fun s => gate s (trlCfg p) fun s => portCfg s o p val)

def execPortRetrain (o : Origin) (p : Port) (s : State) : Out :=
  .next (live s fun s => gate s (trlCfg p) fun s => portCfg s o p (setBit (reg s (trlCfg p)) 31 true))

def execPortDetectDone (p : Port) (s : State) : Out :=
  .next (live s fun s => if mayTrain s p then modPort s p fun t => { t with stage := .train, since := now s, hop := [] } else s)

/-- R93, R96: 64 timing exchanges done in TRAIN. The deskew applies to the forwarded pass. -/
def execPortTrainDone (p : Port) (inverted : Bool) (deskew : BitVec 6) (s : State) : Out :=
  .next (live s fun s =>
    let t := portOf s p
    if t.stage == .train && decide (64 ≤ t.hop.length) then
      modPort s p fun t => { t with stage := .lock, since := now s, cleanFrom := now s, errs := [], polInv := inverted
                                    deskew := if t.fwdPass then deskew else t.deskew }
    else s)

/-- R503: a port enters the forwarded pass at a packet boundary. -/
def execForwardedPassStart (p : Port) (s : State) : Out :=
  .next (live s fun s =>
    let t := portOf s p
    let peer := reg s (trlR (0x110 + 0x40 * p.val))
    if t.stage == .active && !t.fwd && decide (t.lastTx ≤ now s) && rb s (trlCfg p) 3 && bitOf peer 25 then
      modPort s p fun t => { t with stage := .train, fwd := true, fwdPass := true, since := now s, hop := [], errs := [] }
    else s)

def execStageTimeout (p : Port) (s : State) : Out := .next (live s fun s => stageOut s p)

def execPortRetryHoldEnd (p : Port) (s : State) : Out :=
  .next (live s fun s => modPort s p fun t => if t.holdUntil ≤ now s then { t with holdUntil := 0 } else t)

def execLinkLoss (p : Port) (c : LossCause) (s : State) : Out :=
  .next (live s fun s => if isActive s p && lossSeen s p c then toDetect s p true else s)

/-- R84: CODE_ERR, the count, the clean-symbol count restarts; 16 within 1,024 symbols in ACTIVE end it (R102). -/
def execCodeViolation (p : Port) (s : State) : Out :=
  .next (live s fun s =>
    if dirOf s p = 0 then s
    else
      let s := flag s (trlStat p) 1
      let s := if (reg s (trlR (0x108 + 0x40 * p.val))) = 0xFFFFFFFF then s
        else setReg s (trlR (0x108 + 0x40 * p.val)) (reg s (trlR (0x108 + 0x40 * p.val)) + 1)
      let s := modPort s p fun t =>
        { t with cleanFrom := now s
                 errs := (t.errs.filter fun e => decide (now s < e + symbols 1024)) ++ [now s] }
      if isActive s p && lossSeen s p .codeErrors then toDetect s p true else s)

/-- R85: symbol boundaries are taken anew after three commas in succession at one new alignment. -/
def execSymbolRealign (p : Port) (s : State) : Out :=
  .next (live s fun s => if dirOf s p = 0 then s else modPort s p fun t => { t with cleanFrom := now s })

/-- R104, R105, R479: entry to electrical idle in forwarded-mode ACTIVE with IDLE_EN at both ends and no scan, after
IDLE_AFTER symbol times in which nothing was sent: no packet, tick symbol or Cayenne, and no exit from idle. -/
def execIdleEntry (p : Port) (s : State) : Out :=
  .next (live s fun s =>
    let t := portOf s p
    let peer := reg s (trlR (0x110 + 0x40 * p.val))
    let after := symbols (Nat.max 32 (rf s (trlCfg p) 19 8))
    if isActive s p && t.fwd && !t.idleTx && portIdle t && rb s (trlCfg p) 4 && bitOf peer 26 &&
        !(s.eye.any (·.port == p.val)) && decide (Nat.max t.lastTx t.quietFrom + after ≤ now s) && !inC1Win s then
      send (modPort s p fun t => { t with idleTx := true, idleTill := 0 }) (.idle p true)
    else s)

/-- R106: the exit from idle starts; flits can be received 160 ns later. -/
def idleExit (s : State) (p : Port) : State :=
  if (portOf s p).idleTx then send (modPort s p fun t => { t with idleTx := false, idleTill := now s + 80, quietFrom := now s + 80 }) (.idle p false) else s

def execIdleExit (p : Port) (s : State) : Out := .next (live s fun s => idleExit s p)

/-- A write of TRL_EYE_CTRL (R108): ABORT ends a scan; START starts one after its checks and the ledger's
admission of 20 mW; a START while a scan runs, or beside an ABORT, is ignored. A write without START while a scan runs
changes PORT, SWEEP and DWELL, and the running point takes the new DWELL: the model's choice. (Log 118 DESIGN CHOICE unsafe.) -/
def eyeWrite (s : State) (o : Origin) (val : Word) : State :=
  let a := trlR 0x040
  if s.eye.isSome && bitOf val 31 && !bitOf val 30 then swMark s a 0x80000000
  else
    let s := genWrite s o a (if bitOf val 30 then setBit val 31 false else val)
    if bitOf val 30 then
      match s.eye with
      | some e => eyeAbortOn s e.port
      | none => s
    else if bitOf val 31 then eyeStart s else s

def execEyeStart (o : Origin) (val : Word) (s : State) : Out :=
  .next (live s fun s => gate s (trlR 0x040) fun s => eyeWrite s o (setBit (setBit val 31 true) 30 false))

def execEyeAbort (o : Origin) (val : Word) (s : State) : Out :=
  .next (live s fun s => gate s (trlR 0x040) fun s => eyeWrite s o (setBit val 30 true))

/-- R109: a point's dwell of 2^DWELL bits has passed. -/
def execEyePointDone (count : Nat) (s : State) : Out :=
  .next (live s fun s =>
    match s.eye with
    | none => s
    | some e =>
      if now s < e.begun + 2 ^ (rf s (trlR 0x040) 23 18) * 4 / 25 then s
      else
        let v := wd (Nat.min count 0xFFFFFFFE)
        if e.sweep then
          let s := setReg s (trlR (0x8000 + 4 * e.pt)) v
          if e.pt + 1 = 4032 then eyeEnd s 2 else { s with eye := some { e with pt := e.pt + 1, begun := now s } }
        else eyeEnd (setReg s (trlR 0x048) v) 2)

end Sys2Proof.Machine
end

