-- ==== Sys2Proof/Machine/Reset.lean ====
section
/-! DEFINITION. Power-on reset, chip reset, and the reset of one block: what each returns to its reset value and
what it keeps (R442, Table 17-2, R370). -/

namespace Sys2Proof.Machine

open Sys2Proof

/-- MRAM and the QSPI flash keep their contents through every reset. -/
def keptMem (m : List Host.Cell) : List Host.Cell := m.filter fun c => decide (0x50000000 ≤ c.1)

/-- Registers a chip reset keeps (Table 17-2): the discard record, the reset cause, the first-fault record with
FLT_SAMECYCLE, and the island's own. (Log 24 DEDUCED unsafe.) -/
def keptReg (a : Nat) : Bool :=
  a == 0x40000010 || a == 0x40000014 || a == 0x40000018 || a == 0x40000028 ||
    (decide (0x400A0008 ≤ a) && decide (a ≤ 0x400A0014)) || (decide (0x400A0040 ≤ a) && decide (a < 0x400A0080)) ||
    (decide (0x400B0000 ≤ a) && decide (a < 0x400C0000))

/-- Saffron locks again (R408); a lock that ends an unlock is logged. -/
def safLock (s : State) (node : BitVec 14) : State :=
  if s.saf.unlocked then modSaf (safLog s 4 node 0 0 0) fun f => { f with unlocked := false } else s

/-- A chip reset (R441, R442): the cause bit of SYS_RST_CAUSE, the discard, and every register but those kept. (Log 24 DEDUCED unsafe, 25 DEDUCED unsafe.) -/
def chipReset (s : State) (bit src : Nat) : State :=
  let s := testLeave (safLock (discard s 2 src 0xF (anyWork s)) (nodeId s))
  let s := flag s (sysR 0x028) (2 ^ bit)
  let z := State.reset
  let t : State := { z with
    lt := s.lt, regs := s.regs.filter fun e => keptReg e.1, mem := keptMem s.mem
    sys := { z.sys with strap := s.sys.strap, porRst := false, pinLow := s.sys.pinLow, discLt := s.sys.discLt, discPri := s.sys.discPri }
    sup := { z.sup with validA := s.sup.validA, validB := s.sup.validB, seenA := s.sup.seenA, seenB := s.sup.seenB
                        gateA := s.sup.gateA, gateB := s.sup.gateB, mvA := s.sup.mvA, mvB := s.sup.mvB
                        rails := s.sup.rails }
    flt := { z.flt with alive := s.flt.alive }
    cap := { z.cap with rseq := s.cap.rseq }
    saf := s.saf, nv := s.nv, hwSet := s.hwSet, swSet := s.swSet
    rdata := s.rdata, sent := s.sent, free := s.free, pending := s.pending }
  setRf t (sysR 0x034) 1 0 (rf s (sysR 0x034) 1 0)

/-- LOCKOUT_T: the lockout of R407 in seconds, for a count of wrong attempts. -/
def lockoutS (fails : Nat) : Nat := if fails < 3 then 0 else 10 * 2 ^ Nat.min 8 (fails - 3)

/-- Power-on reset (R438, R442): everything but MRAM, the fuses and what the feeds drive; LT starts from 0 (R39),
the island starts its self-test with its outputs low (R389), and a lockout restarts at its full length (R407). (Log 5 DEDUCED unsafe.) -/
def powerOn (s : State) : State :=
  let z := State.reset
  { z with
    mem := keptMem s.mem, nv := s.nv
    saf := { z.saf with lockTil := sec (lockoutS s.nv.fails), fullRun := decide (248 ≤ s.nv.unack) }
    rdata := s.rdata, sent := s.sent, free := s.free, pending := s.pending }

/-- The registers of a block return to their reset values. -/
def clearRegs (s : State) (b : Nat) (keep : Nat → Bool) : State :=
  { s with regs := s.regs.filter fun e => !(decide (0x40000000 ≤ e.1) && decide (e.1 < 0x400F0000) && blockOf e.1 == b && !keep e.1) }

/-- CAP returns to IDLE under R340: the record being filled and unsent blocks are discarded. -/
def capDrop (s : State) : State :=
  let s := setReg s (capR 0x000) (setBit (reg s (capR 0x000)) 31 false)
  modCap s fun c => { (default : Cap) with rseq := c.rseq, bseq := c.bseq, err := c.err }

/-- The router no longer tracks the requests of a core: no completion reaches it (R29). -/
def coreForget (s : State) (n : Nat) : State :=
  modTrr s fun t => { t with reqs := t.reqs.filter fun r => r.ep != 0 || r.core.val != n }

/-- Work of a core in flight: what it has received, what it waits to send, and its tracked requests. -/
def coreJobs (s : State) (n : Nat) : Bool := coreWork s n || s.trr.reqs.any fun r => r.ep == 0 && r.core.val == n

/-- A core halts with PC 0 and without its work in flight (R370, R29), unless it is OFF or pruned. -/
def coreReset (s : State) (n : Nat) : State :=
  let c := coreOf s n
  if c.st = .off ∨ c.st = .pruned then s
  else coreForget (modCore s n fun _ => { Core.init with iscr := c.iscr, dscr := c.dscr }) n

/-- The addresses of the unit that a block reset or a Pruning of a source takes: a port's or a core's registers, or
the whole block. -/
def unitHit (src a : Nat) : Bool :=
  let b := src / 32
  let u := src % 32
  let o := (a - 0x40000000) % 0x10000
  decide (0x40000000 ≤ a) && decide (a < 0x400F0000) && blockOf a == b &&
    (if b = 2 ∧ u < 6 then decide (0x100 ≤ o) && (o - 0x100) / 0x40 == u
     else if b = 14 ∧ u < 4 then o / 0x100 == u
     else true)

/-- A queued READ or WRITE addresses the unit of a source (R29, Table 12-6). -/
def xcmdMeets (src : Nat) (c : XCmd) : Bool :=
  let n := if c.op = 1 then (c.data.getD 1 0).toNat else c.data.length - 1
  (c.op == 1 || c.op == 2) && (List.range (Nat.min n 256)).any fun k => unitHit src ((c.data.getD 0 0).toNat + 4 * k)

/-- Queued XHP commands addressed to the unit of a source are discarded (Table 1-6); they get no response. -/
def xhpDrop (s : State) (src : Nat) : State := modStp s fun t => { t with xq := t.xq.filter fun c => !xcmdMeets src c }

/-- Queued XHP commands address the unit of a source. -/
def xhpMeets (s : State) (src : Nat) : Bool := s.stp.xq.any (xcmdMeets src)

/-- A block's state beyond its registers returns to its reset values (R370). (Log 26 DEDUCED safe.) -/
def blockInit (s : State) (b : Nat) : State :=
  match b with
  | 2 =>
    let s := { clearRegs s 2 (fun _ => false) with eye := none }
    (List.range 6).foldl (fun s p => modPort s p fun t =>
      { (t.detect (now s)).drop with stage := if dirOf s p = 0 then .off else .detect }) s
  | 8 => modStp (clearRegs s 8 fun _ => false) fun t => { (default : Stp) with link := t.link, xseq := t.xseq }
  | 9 =>
    let held (a : Nat) : Bool := rb s (a / 0x20 * 0x20) 31
    modCap (capDrop (clearRegs s 9 fun a => decide (capR 0x400 ≤ a) && decide (a < capR 0x500) && held a)) fun c => { c with err := 0 }
  | 13 => modSvb (clearRegs s 13 fun _ => false) fun v =>
    { (default : Svb) with
      tec := v.tec, recErr := v.recErr, busOff := v.busOff, rawKey := v.rawKey, keyAt := v.keyAt, level := v.level
      svcRaw := v.svcRaw, svcAt := v.svcAt, present := v.present }
  | 14 =>
    let s := clearRegs s 14 fun _ => false
    (List.range 4).foldl coreReset s
  | _ => s

/-- Work in flight in a block that can be reset or pruned. -/
def blockWork (s : State) (b : Nat) : Bool :=
  match b with
  | 2 => (List.range 6).any fun p => !portIdle (portOf s p)
  | 8 => !s.stp.xq.isEmpty || !s.stp.xfly.isEmpty
  | 9 => s.cap.st != .idle
  | 13 => s.svb.cur.isSome || s.svb.pend != 0
  | 14 => (List.range 4).any (coreJobs s)
  | _ => false

/-- A block reset for a source (R370): a port's retrains that port, a core's halts that core, any other resets
the whole block, which is released 1,000 ns later. Work addressed to it from the XHP queue goes too (R29). (Log 26 DEDUCED safe.) -/
def blockReset (s : State) (src : Nat) : State :=
  let b := src / 32
  let u := src % 32
  let x := xhpMeets s src
  if b = 2 ∧ u < 6 then
    retrain (modPort (xhpDrop (discard s 1 src b (!portIdle (portOf s u) || x)) src) u PortSt.drop) u
  else if b = 14 ∧ u < 4 then
    coreReset (xhpDrop (discard s 1 src b (coreJobs s u || x)) src) u
  else
    let s := blockInit (xhpDrop (discard s 1 src b (blockWork s b || x)) src) b
    modFlt s fun f => { f with rstBlk := kput none f.rstBlk b (some (now s)) }

/-- A unit is fenced off (R371): its bit in FLT_PRUNED, its work and queued work addressed to it (R29). -/
def prune (s : State) (src : Nat) : State :=
  let b := src / 32
  let u := src % 32
  let x := xhpMeets s src
  let mark (i : Nat) (s : State) : State := setReg (xhpDrop s src) (fltR 0x090) (setBit (reg s (fltR 0x090)) i true)
  if b = 2 ∧ u < 6 then
    let s := mark u (discard s 3 src b (!portIdle (portOf s u) || x))
    modPort (eyeAbortOn s u) u fun t => { (t.detect (now s)).drop with stage := .off }
  else if b = 14 ∧ 1 ≤ u ∧ u < 4 then
    let s := mark (5 + u) (discard s 3 src b (coreJobs s u || x))
    coreForget (modCore s u fun c => { c with st := .pruned, rxq := [], txq := [] }) u
  else if b = 9 then capDrop (mark 9 (discard s 3 src b (s.cap.st != .idle || x)))
  else if b = 8 ∧ u = 1 then
    let s := discard s 3 src b (!(kget [] s.stp.txq 1).isEmpty)
    let s := setReg s (fltR 0x090) (setBit (reg s (fltR 0x090)) 10 true)
    modStp s fun t => { t with link := t.link &&& 1, txq := kput [] t.txq 1 [] }
  else s

/-- PRUNE is accepted for the sources of ports, cores ZC1 to ZC3, CAP and E1 (R371). -/
def pruneOk (src : Nat) : Bool :=
  (decide (64 ≤ src) && decide (src ≤ 69)) || (decide (449 ≤ src) && decide (src ≤ 451)) || src / 32 == 9 || src == 257

/-- BLK_RST is accepted for the sources of TRL lanes, STP, CAP, SVB and ZCC (R370). -/
def blkRstOk (src : Nat) : Bool := [2, 8, 9, 13, 14].contains (src / 32)

def execPowerOnReset (s : State) : Out := .next (powerOn s)

/-- R441: RST_N held low; the part stays in reset while it is low. -/
def execRstNLow (s : State) : Out :=
  .next (if s.sys.porRst && s.sys.inReset then modSys s fun y => { y with pinLow := true }
         else if s.sys.inReset then modSys (flag s (sysR 0x028) 2) fun y => { y with pinLow := true }
         else chipReset (modSys s fun y => { y with pinLow := true }) 1 0x1FF)

/-- R442: a chip reset by a reaction, by command or through JTAG, which a part in factory test does not take (R488). -/
def execChipReset (c : ChipCause) (s : State) : Out :=
  .next (live s fun s =>
    match c with
    | .reaction src => chipReset s 3 src.toNat
    | .command => chipReset s 2 0x1FF
    | .jtag => if s.sys.testmode then s else chipReset s 4 0x1FF)

/-- R370: 1,000 ns after its assertion a block reset is released, the block at its reset values. -/
def execBlockResetRelease (b : Fin 15) (s : State) : Out :=
  .next (live s fun s =>
    match kget none s.flt.rstBlk b.val with
    | some t =>
      if t + 500 ≤ now s then modFlt (blockInit s b.val) fun f => { f with rstBlk := kput none f.rstBlk b.val none } else s
    | none => s)

end Sys2Proof.Machine
end

