-- ==== Sys2Proof/Machine/Faults.lean ====
section
/-! DEFINITION. The fault hub: capture, recording, first fault, reactions, DEGRADED, ALIVE, the die monitors and
error injection. -/

namespace Sys2Proof.Machine

open Sys2Proof

/-- A message as the hub reads it. -/
structure HubMsg where
  src  : Nat
  kind : Nat
  sev  : Nat
  raw  : BitVec 64
  deriving DecidableEq, Repr

/-- A message as captured (R354): one whose CRC fails becomes MSG_CRC from source 320. -/
def hubRead (m : BitVec 64) : HubMsg :=
  let n := m.toNat
  let ok := crc8 (n / 256) == n % 256
  let r := if ok then m else faultMsg 320 .msgCrc (n / 2 ^ 32) false
  let k := r.toNat
  ⟨k / 2 ^ 55, k / 2 ^ 48 % 128, k / 2 ^ 45 % 8, r⟩

def msgHi (m : BitVec 64) : Word := wd (m.toNat / 2 ^ 32)
def msgLo (m : BitVec 64) : Word := wd m.toNat

/-- The width of the narrowest VALID entry of a port that matches a node, with its ALT bit: 2 * (HI - LO) + ALT. -/
def rangeRank (s : State) (d p : Nat) : Option Nat :=
  (List.range 16).foldl (fun best k =>
    let w := reg s (trrR (0x400 + 0x40 * p + 4 * k))
    if bitOf w 31 && decide (fld w 13 0 ≤ d) && decide (d ≤ fld w 29 16) then
      let r := 2 * (fld w 29 16 - fld w 13 0) + b2n (bitOf w 30)
      some (match best with | some b => Nat.min b r | none => r)
    else best) none

/-- The port of the narrowest matching entry among ACTIVE DOWN and PARTNER ports; at equal width ALT = 0, then
the lower port (R123). -/
def rangePort (s : State) (d : Nat) : Option Nat :=
  ((List.range 6).foldl (fun (best : Option (Nat × Nat)) p =>
    if isActive s p && (dirOf s p == 3 || dirOf s p == 4) then
      match rangeRank s d p, best with
      | some r, some (b, q) => if r < b then some (r, p) else some (b, q)
      | some r, none => some (r, p)
      | none, b => b
    else best) none).map (·.2)

/-- The way up (R111, R123): a cell's P0, or P1 when P0 is not ACTIVE; an upper part's lower ACTIVE UP port. -/
def upRoute (s : State) : Option Nat := (upPorts s).find? (isActive s)

/-- The output port for a packet of the part's own (R123). -/
def routePort (s : State) (d : Nat) : Option Nat :=
  match rangePort s d with
  | some p => some p
  | none => upRoute s

/-- The counters of TRR_DROP_CNT. (Log 49 DEDUCED unsafe.) -/
def countNoRoute (s : State) : State := countUp s (trrR 0x030) 31 16

/-- A packet that did not arrive on an UP or PARTNER port finds no way up: a cell only discards it (R111). -/
def onlyDiscards (s : State) (src : Option Nat) : Bool := isCell s && !(src.any fun p => dirOf s p != 3)

/-- NO_ROUTE: counted and reported (R125). A cell that has no way up only discards (R111). -/
def noRoute (s : State) (src : Option Nat) : State :=
  if onlyDiscards s src then s else report (countNoRoute s) 96 .noRoute (trrR 0x030)

/-- A log entry (R360): the ring of 64, its index, and the overwrites counted; and NOTIFY (R363). (Log 35 DEDUCED unsafe.) -/
def logWrite (s : State) (m : HubMsg) (remote : Bool) (node : BitVec 14) : State :=
  let i := rf s (fltR 0x0A0) 5 0
  let a := fltR (0x400 + 0x10 * i)
  let ent := [msgHi m.raw, msgLo m.raw, wd (now s), wd (b2n remote * 2 ^ 31 + node.toNat)]
  let s := (List.range 4).foldl (fun s w => setReg s (a + 4 * w) (ent.getD w 0)) s
  let s := setRf s (fltR 0x0A0) 5 0 (i + 1)
  let s := if s.flt.hub = 64 then countUp s (fltR 0x0A0) 31 16 else modFlt s fun f => { f with hub := f.hub + 1 }
  if rb s (stpR 0x000) 11 && blockOn (roleOf s) 8 && decide (rf s (fltR 0x000) 22 20 ≤ m.sev) then
    modStp s fun t => { t with notify := t.notify ++ [(now s, ent)] }
  else s

/-- R362: a received EVENT enters the log as remote, without a reaction. -/
def eventIn (s : State) (pk : Packet) : State :=
  let raw : BitVec 64 := BitVec.ofNat 64 ((pk.payload.getD 0 0).toNat * 2 ^ 32 + (pk.payload.getD 1 0).toNat)
  let n := raw.toNat
  logWrite s ⟨n / 2 ^ 55, n / 2 ^ 48 % 128, n / 2 ^ 45 % 8, raw⟩ true (BitVec.ofNat 14 (pk.src.toNat / 64))

/-- A core runs, or waits in WAIT or TWAIT. -/
def coreRuns (c : Core) : Bool := c.st == .running || c.st == .waiting

/-- Event flags are raised at a core (Table 10-7). (Log 87 DEDUCED unsafe.) -/
def raiseEv (s : State) (n : Nat) (m : Nat) : State :=
  modCore s n fun c => if coreRuns c then { c with ev := c.ev ||| wd m, evNew := c.evNew ||| wd m } else c

/-- A packet reaches the receive queue of a core (R293). -/
def coreRx (s : State) (n : Nat) (pk : Packet) : State :=
  let c := coreOf s n
  if c.rxq.length < 32 then
    raiseEv (modCore s n fun c => { c with rxq := c.rxq ++ [pk], dropRun := false }) n 0x200
  else
    let a := zccR (0x100 * n + 4)
    let s := flag (countUp s a 31 24) a 0x200
    if c.dropRun then s else modCore (report s (448 + n) .zcRxqFull a) n fun c => { c with dropRun := true }

/-- A packet goes to the core that ZCC_RXMAP names for its TYPE (R293). -/
def toCore (s : State) (pk : Packet) : State :=
  if isUpper s then coreRx s (fld (reg s (zccR (0x800 + 4 * (pk.typ.toNat / 16)))) 31 0 / 4 ^ (pk.typ.toNat % 16) % 4) pk else s

/-- A message of severity FWD_MIN or above is sent as an EVENT (R361), taken at the part itself where it is the
destination, or dropped as R123 and R111 give. -/
def eventSend (s : State) (m : HubMsg) : State :=
  if rb s (fltR 0x09C) 31 && decide (rf s (fltR 0x000) 25 23 ≤ m.sev) then
    let dest := BitVec.ofNat 20 (rf s (fltR 0x09C) 19 0)
    let pk := ownPacket s dest 56 0x21 2 0 [msgHi m.raw, msgLo m.raw]
    if isOwn s dest then (if 56 ≤ epOf dest then eventIn s pk else toCore s pk)
    else match routePort s (dest.toNat / 64) with
    | some p => enqueue s p pk false
    | none => noRoute s none
  else s

/-- Recording of one captured message (R359 to R361). (Log 38 DEDUCED unsafe.) -/
def record (s : State) (m : HubMsg) : State :=
  let fresh := !s.flt.first.contains (m.src, m.kind)
  let s := flag s (fltR (0x100 + 4 * (m.src / 32))) (2 ^ (m.src % 32))
  if !fresh then s
  else
    let s := modFlt s fun f => { f with first := f.first ++ [(m.src, m.kind)] }
    let s := if rf s (fltR 0x000) 28 26 ≤ m.sev then logWrite s m false (nodeId s) else s
    eventSend s m

/-- The order of R364: highest severity first, then lowest source. -/
def msgBefore (a b : HubMsg) : Bool := decide (b.sev < a.sev) || (a.sev == b.sev && decide (a.src ≤ b.src))

/-- A message put in its place in a list in the order of R364, after those that rank as high. -/
def msgInsert (m : HubMsg) : List HubMsg → List HubMsg
  | [] => [m]
  | x :: l => if msgBefore x m then x :: msgInsert m l else m :: x :: l

/-- Messages in the order of R364. -/
def msgSort (l : List HubMsg) : List HubMsg := l.foldl (fun a m => msgInsert m a) []

/-- The first-fault record and FLT_SAMECYCLE from the messages of one cycle (R364 to R366). (Log 39 DEDUCED safe.) -/
def firstFault (s : State) (ms : List HubMsg) (lt : Nat) : State :=
  let lim := rf s (fltR 0x000) 31 29
  let l := msgSort ms
  match l.find? fun m => decide (lim ≤ m.sev) with
  | none => s
  | some f =>
    if rb s (fltR 0x014) 31 then s
    else
      let l := f :: l.erase f
      let info := 2 ^ 31 + (modeOf s).code * 2 ^ 28 + Nat.min 15 ms.length * 16 + b2n (decide (8 < ms.length))
      let s := setReg (setReg s (fltR 0x008) (msgHi f.raw)) (fltR 0x00C) (msgLo f.raw)
      let s := flag (setReg (setReg s (fltR 0x010) (wd lt)) (fltR 0x014) (wd info)) (fltR 0x014) 0x80000000
      (List.range 8).foldl (fun s e =>
        let w := ((l.drop e).head?.map (·.raw)).getD 0
        setReg (setReg s (fltR (0x040 + 8 * e)) (msgHi w)) (fltR (0x044 + 8 * e)) (msgLo w)) s

/-- FLT_REACT of a source. -/
def reactOf (s : State) (src : Nat) : Word := reg s (fltR (0x800 + 4 * src))

/-- The actions of a source apply to a message (R367). -/
def acts (s : State) (m : HubMsg) (bit : Nat) : Bool :=
  let r := reactOf s m.src
  decide (fld r 31 29 ≤ m.sev) && bitOf r bit

/-- An active part is to yield (R427, R428) while PEER_SYNCED is 1: at phase period - 200 ns of this tick, or of
the next when the cause comes later. -/
def yieldMark (s : State) : State :=
  let p := s.sys.pair
  if rb s (sysR 0x050) 31 && p.active && p.peerSyn && p.yieldTk.isNone then
    modPair s fun p => { p with yieldTk := some (if phaseOf s + 100 ≤ periodLt s then s.tmk.tick else s.tmk.tick + 1) }
  else s

/-- DEGRADED entry, or a further such message (R373); the yield of YIELD_DEG (R427). -/
def degrade (s : State) (m : HubMsg) : State :=
  let t := now s + Nat.max 1 (fld (reactOf s m.src) 15 0) * ms 100
  match modeOf s with
  | .run =>
    let s := modSys s fun y => { y with mode := .degraded }
    let s := modFlt s fun f => { f with degTil := some t, degSrc := [m.src], degNow := m.src }
    if rb s (sysR 0x050) 29 then yieldMark s else s
  | .degraded =>
    modFlt s fun f =>
      { f with degSrc := if f.degSrc.contains m.src then f.degSrc else f.degSrc ++ [m.src]
               degTil := if f.degTil.any (decide <| · ≤ t) then f.degTil else some t
               degNow := if f.degTil.any (decide <| · ≤ t) then f.degNow else m.src }
  | _ => s

/-- ALIVE stops and INTL_OUT falls (R380, R418). -/
def aliveStop (s : State) : State := intlDrop (modFlt s fun f => { f with stopped := true })

/-- NMT to every core with NMTEN (R290), the message in FLT_NMT. -/
def nmt (s : State) (m : HubMsg) : State :=
  let s := setReg (setReg s (fltR 0x094) (msgHi m.raw)) (fltR 0x098) (msgLo m.raw)
  (List.range 4).foldl (fun s n => if rb s (zccR (0x100 * n)) 1 then modCore s n fun c => { c with nmtReq := true } else s) s

/-- The reactions of the messages of one cycle, together (R367 to R369). -/
def react (s : State) (l : List HubMsg) : State :=
  let irq := l.any fun m => acts s m 19 && decide (rf s (fltR 0x000) 19 17 ≤ m.sev)
  let s := if irq then flag s (fltR 0x004) 0x80000000 else s
  let s := l.foldl (fun s m => if m.sev = 7 then enterSafe s 16 (some m.src) else s) s
  let cay := l.filter fun m => acts s m 24
  let sc := cay.foldl (fun w m => Nat.max w (Nat.min 2 (fld (reactOf s m.src) 26 25))) 0
  let s := if cay.isEmpty then s else cayLaunch s (BitVec.ofNat 2 sc)
  let s := if l.any (acts s · 23) then aliveStop s else s
  let s := l.foldl (fun s m => if acts s m 20 then nmt s m else s) s
  match l.find? (acts s · 22) with
  | some m => chipReset s 3 m.src
  | none =>
    let s := l.foldl (fun s m => if acts s m 27 || acts s m 28 then degrade s m else s) s
    let s := l.foldl (fun s m => if acts s m 28 && pruneOk m.src then prune s m.src else s) s
    l.foldl (fun s m => if acts s m 21 && blkRstOk m.src then blockReset s m.src else s) s

/-- The hub captures the messages of one cycle: the oldest cycle that waits, and messages given from outside. (Log 39 DEDUCED safe.) -/
def hubCapture (s : State) (extra : List (BitVec 64)) : State :=
  let t := ((s.flt.bus.head?).map (·.1)).getD (now s)
  let mine := (s.flt.bus.filter fun e => e.1 == t).map (·.2)
  let s := modFlt s fun f => { f with bus := f.bus.filter fun e => e.1 != t }
  let l := (mine ++ extra).map hubRead
  if l.isEmpty then s
  else
    let s := firstFault (l.foldl record s) l t
    react (modFlt s fun f => { f with capLt := some (now s), capMsgs := mine ++ extra }) l

def execFaultMsgCapture (raw : List (BitVec 64)) (s : State) : Out := .next (live s fun s => hubCapture s raw)

/-- DEGRADED ends (R374, R405): no unit pruned, every cause's PEND bit cleared, no CHFAULT. -/
def degradedExit (s : State) : State :=
  if modeOf s = .degraded ∧ s.flt.degSrc = [] ∧ reg s (fltR 0x090) = 0 ∧ s.saf.chFault = 0 then
    modFlt (modSys s fun y => { y with mode := .run }) fun f => { f with degTil := none }
  else s

/-- A write to FLT_PENDk (R359, R452, R374). (Log 38 DEDUCED unsafe.) -/
def pendWrite (s : State) (o : Origin) (k : Nat) (val : Word) : State :=
  let a := fltR (0x100 + 4 * k)
  let old := reg s a
  let s := genWrite s o a val
  let gone := old &&& ~~~ reg s a
  let cleared (src : Nat) : Bool := src / 32 == k && bitOf gone (src % 32)
  let s := setReg s (sysR (0x200 + 4 * k)) (reg s (sysR (0x200 + 4 * k)) &&& ~~~ gone)
  degradedExit (modFlt s fun f => { f with first := f.first.filter fun e => !cleared e.1, degSrc := f.degSrc.filter fun e => !cleared e })

def execPendClear (o : Origin) (k : Fin 16) (val : Word) (s : State) : Out := .next (live s fun s => pendWrite s o k.val val)

/-- A write to FLT_FIRST_INFO: 1 to VALID clears the record and FLT_SAMECYCLE; a capture in the same cycle then
fills them (R366). -/
def firstWrite (s : State) (val : Word) : State :=
  if bitOf val 31 then
    let s := { s with regs := s.regs.filter fun e =>
      !((decide (fltR 0x008 ≤ e.1) && decide (e.1 ≤ fltR 0x014)) || (decide (fltR 0x040 ≤ e.1) && decide (e.1 < fltR 0x080))) }
    if s.flt.capLt = some (now s) then firstFault s (s.flt.capMsgs.map hubRead) (now s) else s
  else s

def execFirstFaultClear (_ : Origin) (val : Word) (s : State) : Out := .next (live s fun s => firstWrite s val)

/-- A write of FLT_INJ (R377, R378): ARM only in BOOT and READY, unlocked, with legal fields. -/
def injWrite (s : State) (o : Origin) (val : Word) : State :=
  let a := fltR 0x080
  if !bitOf val 31 then genWrite s o a val
  else
    let ok := (modeOf s == .boot || modeOf s == .ready) && rwlOpen s && decide (fld val 23 18 + fld val 17 12 ≤ 48) &&
      decide (1 ≤ fld val 17 12) && decide (fld val 17 12 ≤ 32) && decide (fld val 27 24 < 13)
    if ok then genWrite s o a val
    else if rwlOpen s then accessFault (genWrite s o a (setBit val 31 false)) a
    else accessFault s a

def execInjectArm (o : Origin) (val : Word) (s : State) : Out :=
  .next (live s fun s => injWrite s o (setBit val 31 true))

/-- A write of FLT_REACTs (R372): RW in BOOT, RWL elsewhere; BLK_RST and PRUNE only where R370 and R371 take them. (Log 15 DEDUCED unsafe.) -/
def reactWrite (s : State) (o : Origin) (a : Nat) (val : Word) : State :=
  let src := (a - fltR 0x800) / 4
  if (bitOf val 21 && !blkRstOk src) || (bitOf val 28 && !pruneOk src) then accessFault s a
  else if modeOf s = .boot then regWrite s o a (reg1 0 0 [(31, 19, .rw), (15, 0, .rw)]) val
  else genWrite s o a val

/-- ALIVE makes an edge (R379, R380). -/
def execAliveEdge (s : State) : Out :=
  .next (live s fun s =>
    if s.flt.running && !s.flt.stopped && now s % us 100 == 0 && decide (s.flt.lastEdge < now s) then
      modFlt s fun f => { f with alive := !f.alive, lastEdge := now s }
    else s)

/-- A write of FLT_KICK (R381): it counts for the writing core only. -/
def kickWrite (s : State) (o : Origin) : State :=
  match o with
  | .core n => modFlt s fun f => { f with kicked := f.kicked ||| BitVec.ofNat 4 (2 ^ n.val) }
  | _ => s

def execAliveKickWrite (o : Origin) (_ : Word) (s : State) : Out := .next (live s fun s => kickWrite s o)

/-- A write of FLT_ALIVE: the windows of newly named cores begin; KICK_MASK stays 0 in the CELL role. -/
def aliveWrite (s : State) (o : Origin) (val : Word) : State :=
  let old := rf s (fltR 0x088) 3 0
  let s := genWrite s o (fltR 0x088) (if isCell s then setFld val 3 0 0 else val)
  let new := rf s (fltR 0x088) 3 0
  modFlt s fun f =>
    { f with kickBeg := (List.range 4).foldl (fun m n => if new.testBit n && !old.testBit n then kput 0 m n (now s) else m) f.kickBeg
             kicked := f.kicked &&& BitVec.ofNat 4 old }

/-- The length of a kick window. -/
def kickWin (s : State) : Nat := Nat.max 1 (rf s (fltR 0x088) 11 4) * us 100

/-- R381: a core's window ends; a missed one raises ALIVE_KICK and the next begins. -/
def kickEnd (s : State) (n : Nat) : State :=
  if (rf s (fltR 0x088) 3 0).testBit n && decide (kget 0 s.flt.kickBeg n + kickWin s ≤ now s) then
    let s := if s.flt.kicked.toNat.testBit n then s else report s 321 .aliveKick (fltR 0x088)
    modFlt s fun f => { f with kickBeg := kput 0 f.kickBeg n (kget 0 f.kickBeg n + kickWin s)
                               kicked := f.kicked &&& ~~~ BitVec.ofNat 4 (2 ^ n) }
  else s

def execKickWindowExpiry (s : State) : Out := .next (live s fun s => (List.range 4).foldl kickEnd s)

/-- One limit of a temperature monitor: raised at the second sample in succession at or above it, once per
crossing, and armed again 5.0 degrees below it (R382). -/
def tempLimit (s : State) (i key : Nat) (t lim : Int) (k : Kind) : State :=
  let up := kget false s.flt.tUp key
  let c := if lim ≤ t then Nat.min 2 (kget 0 s.flt.tCnt key + 1) else 0
  let hit := !up && c == 2
  let s := modFlt s fun f => { f with tCnt := kput 0 f.tCnt key c
                                      tUp := kput false f.tUp key (if hit then true else if t ≤ lim - 50 then false else up) }
  if hit then report s (480 + i) k (fltR (0x200 + 4 * i)) else s

def execTempSample (ix : Fin 4) (t : BitVec 16) (s : State) : Out :=
  .next (live s fun s =>
    let s := setReg s (fltR (0x200 + 4 * ix.val)) (wd t.toNat)
    let v := t.toInt
    let s := tempLimit s ix.val ix.val v (sext 16 (rf s (fltR 0x210) 15 0)) .tempWarn
    tempLimit s ix.val (4 + ix.val) v (sext 16 (rf s (fltR 0x210) 31 16)) .tempTrip)

/-- Nominal rail voltages in mV (Table 21-2), in the order of Table 14-2; VAON 800 mV (R383). -/
def railNominal (r : Nat) : Nat := [800, 1000, 1000, 1800, 1800, 3300, 800].getD r 800

/-- A sample of rail r lies outside nominal +- pct/2 %. -/
def railOut (r mv pct : Nat) : Bool :=
  let n := railNominal r
  decide (n * pct < 200 * (if mv < n then n - mv else mv - n))

/-- Whether the sample of a rail lies in its window is known in reset too, since the monitors run from VAON (R440); without
VCORE INTL_OUT is low (R418). (Log 123 DEDUCED unsafe.) -/
def bankSample (s : State) (r mv pct : Nat) : State :=
  let s := modSup s fun u => { u with rails := kput none u.rails r (some !railOut r mv pct) }
  if r = 0 ∧ railOut 0 mv pct = true then intlDrop s else s

/-- The level on an output ball of the VIO18 bank (rail 4) or the VIO bank (rail 5) whose driver commands lvl; none is
high-impedance, while the rail lies outside its window (R485, R493). (Log 123 DEDUCED unsafe.) -/
def bankPin (s : State) (r : Nat) (lvl : Bool) : Option Bool := if kget none s.sup.rails r = some true then some lvl else none

/-- One window of a rail monitor: raised at the fourth sample in succession outside nominal +- pct/2 %, armed
again after four inside (R383). -/
def railLimit (s : State) (r key mv pct : Nat) (k : Kind) : State :=
  let out := railOut r mv pct
  let c := if out then Nat.min 4 (kget 0 s.flt.vCnt key + 1) else 0
  let ok := if out then 0 else Nat.min 4 (kget 0 s.flt.vIn key + 1)
  let up := kget false s.flt.vUp key
  let hit := !up && c == 4
  let s := modFlt s fun f => { f with vCnt := kput 0 f.vCnt key c, vIn := kput 0 f.vIn key ok
                                      vUp := kput false f.vUp key (if hit then true else if ok = 4 then false else up) }
  if hit then report s (484 + r) k (fltR (0x220 + 4 * r)) else s

def execRailSample (r : Fin 7) (mv : BitVec 16) (s : State) : Out :=
  .next (live (bankSample s r.val mv.toNat (rf s (fltR (0x240 + 4 * r.val)) 15 8)) fun s =>
    let s := setReg s (fltR (0x220 + 4 * r.val)) (wd mv.toNat)
    let s := railLimit s r.val r.val mv.toNat (rf s (fltR (0x240 + 4 * r.val)) 7 0) .voltWarn
    railLimit s r.val (7 + r.val) mv.toNat (rf s (fltR (0x240 + 4 * r.val)) 15 8) .voltTrip)

/-- R384: the counts of the ring oscillators against FLT_RO_LIM. -/
def execRoMeasure (c0 c1 c2 c3 : BitVec 16) (s : State) : Out :=
  .next (live s fun s =>
    let l := [c0.toNat, c1.toNat, c2.toNat, c3.toNat]
    let s := (List.range 4).foldl (fun s q => setReg s (fltR (0x260 + 4 * q)) (wd (l.getD q 0))) s
    let lo := rf s (fltR 0x270) 15 0
    let hi := rf s (fltR 0x270) 31 16
    if l.any fun c => decide (c < lo) || decide (hi < c) then report s 491 .procDrift (fltR 0x260) else s)

/-- R9: the DEGRADED timer of the named fault expires. -/
def execDegradedTimerExpiry (s : State) : Out :=
  .next (live s fun s =>
    if modeOf s == .degraded && s.flt.degTil.any (decide <| · ≤ now s) then enterSafe s 20 (some s.flt.degNow) else s)

/-- A write of FLT_LOG_STAT: 0 clears LOG_OVF (Table 14-7). (Log 36 DEDUCED safe.) -/
def logStatWrite (s : State) (val : Word) : State := if val = 0 then setRf s (fltR 0x0A0) 31 16 0 else s

/-- A new sigma-delta result at the limit checkers (R385): FILT results in succession above TH raise LIMIT, FILT
at or below arm it again. -/
def limitCheck (s : State) (k : Nat) (n : Nat) (v : Int) : State :=
  let cfg := reg s (fltR (0x300 + 8 * k))
  if bitOf cfg 31 && fld cfg 26 24 == n then
    let x := if bitOf cfg 30 then (v.natAbs : Int) else v
    let th := sext 24 (rf s (fltR (0x304 + 8 * k)) 23 0)
    let fl := Nat.max 1 (fld cfg 23 20)
    let c := if th < x then Nat.min fl (kget 0 s.sns.limRun k + 1) else 0
    let ok := if th < x then 0 else Nat.min fl (kget 0 s.sns.limOk k + 1)
    let up := kget false s.sns.limUp k
    let hit := !up && c == fl
    let s := modSns s fun q => { q with limRun := kput 0 q.limRun k c, limOk := kput 0 q.limOk k ok
                                        limUp := kput false q.limUp k (if hit then true else if ok = fl then false else up) }
    if hit then report s (322 + k) .limit (fltR (0x300 + 8 * k)) else s
  else s

end Sys2Proof.Machine
end

