-- ==== Sys2Proof/Machine/TickBase.lean ====
section
/-! DEFINITION. The timekeeper's shared operations: the lead, the selected up-port, the delay of a path,
TT_ALIGN and its packets, the next tick number, PT instances, compare units and the advance to a new tick. -/

namespace Sys2Proof.Machine

open Sys2Proof

/-- TMK_TICK_LEAD in ps (R56). -/
def leadPs (s : State) : Nat := 1000 * clampN 200 3900 (rf s (tmkR 0x00C) 11 0 / 2 * 2)

/-- The period in force, in ps. -/
def periodPs (s : State) : Nat := s.tmk.period * 500000

/-- A paired STATION part that is not active. -/
def standbyStation (s : State) : Bool := roleOf s == .station && rb s (sysR 0x050) 31 && !s.sys.pair.active

/-- The primary and the secondary port a tick can come from (R64, R432). -/
def primPort (s : State) : Option Nat := if standbyStation s then partnerPort s else (portsOf s 1).head?
def secPort (s : State) : Option Nat := if standbyStation s then none else (portsOf s 2).head?

/-- The selected up-port. -/
def selPort (s : State) : Option Nat := if s.tmk.second then secPort s else primPort s

/-- The other up-port. -/
def otherPort (s : State) : Option Nat := if s.tmk.second then primPort s else secPort s

/-- The STATION part generates the tick itself: unless it is standby and follows its partner (R432, R501). -/
def generates (s : State) : Bool :=
  roleOf s == .station &&
    !(standbyStation s && (s.tmk.follow || (primPort s).any fun p => (kget none s.tmk.sym p).isSome))

/-- MISS_RUN is below TMK_MISS_LIMIT (0 treated as 1). -/
def missOk (s : State) : Bool := decide (s.tmk.missRun < Nat.max 1 (rf s (tmkR 0x044) 3 0))

/-- D_acc exceeds LEAD - 100 ns (R63). (Log 46 DEDUCED unsafe.) -/
def leadShort (s : State) (dacc : Nat) : Bool := decide (leadPs s < dacc + 100000)

/-- The conditions of TT_ALIGN (R500). -/
def alignNow (s : State) : Bool :=
  if roleOf s = .station then s.tmk.ticked
  else match selPort s with
    | none => false
    | some p => isActive s p && (portOf s p).fwd && s.tmk.okNo && !leadShort s s.tmk.dacc && missOk s && s.tmk.path

/-- A packet of the C3 data queue: STREAM (Table 4-4). -/
def dataQueue (pk : Packet) : Bool := pk.typ == 0x20

/-- A CREDIT packet takes no buffer of its own. (Log 47 DESIGN CHOICE unsafe.) -/
def isCredit (pk : Packet) : Bool := pk.typ == 0x0D

/-- A CREDIT packet leaves a port: C2 packets, C3 data and C3 management flits returned (R135). -/
def creditSend (s : State) (p c2 c3d c3m : Nat) : State :=
  if isActive s p then enqueue s p (ownPacket s 0 0 0x0D 2 0 [wd c2, wd (c3d * 65536 + c3m)]) false else s

/-- The buffer space of a received packet goes back in a CREDIT packet (R135). (Log 47 DESIGN CHOICE unsafe.) -/
def creditBack (s : State) (p : Nat) (pk : Packet) : State :=
  if pk.cls = 1 ∨ isCredit pk = true then s
  else if pk.cls = 2 then creditSend s p 1 0 0
  else if dataQueue pk then creditSend s p 0 (flits pk) 0 else creditSend s p 0 0 (flits pk)

/-- An ALIGN packet leaves a port (R500). -/
def alignSend (s : State) (p : Nat) : State :=
  enqueue (modPort s p fun t => { t with alignTick := 0 }) p (ownPacket s 0 0 0x0E 2 0 [wd (b2n (alignNow s))]) false

/-- ACTIVE DOWN ports. -/
def activeDowns (s : State) : List Nat := (downPorts s).filter (isActive s)

/-- TT_ALIGN is evaluated; each change is sent on the ACTIVE DOWN ports (R500). -/
def alignSync (s : State) : State :=
  let v := alignNow s
  if v = s.tmk.align then s
  else (activeDowns s).foldl alignSend (modTmk s fun t => { t with align := v })

/-- The number of the next boundary. -/
def nextNo (s : State) : BitVec 40 := if s.tmk.ticked then s.tmk.tick + 1 else s.tmk.tick

/-- The number the next boundary will bear once an announced renumbering has been applied. -/
def nextGrid (s : State) : BitVec 40 :=
  match s.tmk.annNum with
  | some (k, g) => if k = nextNo s then g else nextNo s
  | none => nextNo s

/-- The expected instant of the next tick, ps (R65). (Log 46 DEDUCED unsafe.) -/
def expectPs (s : State) : Nat := s.tmk.lastPs + periodPs s

/-- The forwarding latency F from the selected up-port to a port, ps: 20.0 to 28.0 ns, fixed for a pair (R57). (Log 9 DESIGN CHOICE safe, 41 DEDUCED safe.) -/
def fwdLat (p q : Nat) : Nat := 20000 + Config.fwdLatency p q % 8001

/-- D_out for a DOWN port: D_acc + F; the STATION part adds no F of its own (R56, R60, R99). -/
def doutOf (s : State) (q : Nat) : Nat :=
  if generates s then 0
  else match selPort s with
    | some p => s.tmk.dacc + fwdLat p q
    | none => 0

/-- A tick symbol leaves ports at an instant; a Cayenne that occupies the port then holds it for whole symbol times,
which DLY counts (R57, R87). The port is not idle (R104). -/
def tickSend (s : State) (ps : List Nat) (no : BitVec 40) (dly : Nat) (at_ : Nat → Nat) : State :=
  ps.foldl (fun s p => if h : p < 6 then
    let n := symHeld (portOf s p).cayBusy (at_ p)
    send (modPort s p fun t => { t with quietFrom := now s })
      (.tick ⟨p, h⟩ (BitVec.ofNat 6 no.toNat) (BitVec.ofNat 2 (Nat.min 3 (dly + n))) (at_ p + 3200 * n)) else s) s

/-- A TICKNO_REQ goes to the parent on the selected up-port (R50). (Log 45 DEDUCED unsafe.) -/
def ticknoReq (s : State) : State :=
  match selPort s with
  | some p => if isActive s p then enqueue s p (ownPacket s 0 0 0x1B 2 0 []) false else s
  | none => s

/-- The tick number is found inconsistent: TT_NUMBER and a request (R45, R50). (Log 45 DEDUCED unsafe.) -/
def numberLost (s : State) : State :=
  ticknoReq (modTmk (report s 32 .ttNumber (tmkR 0x020)) fun t => { t with okNo := false })

/-- A TMK_STATUS flag is set and reported (R59, R63 to R66). -/
def tmkFlag (s : State) (bit : Nat) (k : Kind) : State := report (flag s (tmkR 0x004) (2 ^ bit)) 32 k (tmkR 0x004)

/-- The new tick takes its place (R42, R58, R61): the number, phase 0, its instant, and the delays measured since. -/
def tickAdvance (s : State) (inst : Nat) : State :=
  let n := nextNo s
  let s := modTmk s fun t =>
    let dp := t.daccNew.foldl (fun m e => match e.2 with | some d => kput 0 m e.1 d | none => m) t.daccPort
    { t with tick := n, ticked := true, phase := 0, lastPs := inst, sym := [], daccPort := dp, daccNew := []
             passSent := false, launched := false }
  modTmk s fun t =>
    { t with nextPs := inst + periodPs s
             dacc := match selPort s with | some p => kget 0 t.daccPort p | none => 0 }

/-- Units of a PT instance: 2^-32 ns; its range is 2^48 s. -/
def ptOne : Nat := 4294967296
def ptMod : Nat := 2 ^ 48 * 1000000000 * ptOne

/-- A PT instance. -/
def ptOf (s : State) (n : Nat) : Nat := kget 0 s.tmk.pt n

/-- Seconds, nanoseconds and sub-nanoseconds of 2^-16 ns of a PT instance. -/
def ptSec (v : Nat) : Nat := v / ptOne / 1000000000
def ptNs (v : Nat) : Nat := v / ptOne % 1000000000
def ptSub (v : Nat) : Nat := v % ptOne / 65536

/-- TMK_PTn_RATE, signed. -/
def ptRate (s : State) (n : Nat) : Int := (reg s (tmkR (0x110 + 0x40 * n))).toInt

/-- A PT instance after one period of LT (R40): 2 ns at its rate. -/
def ptAdvance (s : State) (n : Nat) : Nat :=
  (((ptOf s n : Int) + 2 * ((ptOne : Int) + ptRate s n)) % (ptMod : Int)).toNat

/-- The bases of Table 2-6. -/
def cmpR (m o : Nat) : Nat := tmkR (0x200 + 0x10 * m + o)

/-- The low 32 bits a compare unit compares, for the present value of its base. -/
def cmpNow (s : State) (base : Nat) : Word :=
  match base with
  | 0 => wd (now s)
  | 1 => wd s.tmk.tick.toNat
  | b => let v := ptOf s (b - 2); wd (ptSec v * 1000000000 + ptNs v)

/-- The same of its target registers. -/
def cmpTarget (s : State) (m base : Nat) : Word :=
  let hi := reg s (cmpR m 4)
  let lo := reg s (cmpR m 8)
  match base with
  | 0 => lo
  | 1 => wd (hi.toNat * 256 + lo.toNat / 2 ^ 24)
  | _ => wd (hi.toNat * 1000000000 + lo.toNat)

/-- The match rule of R68. -/
def cmpMatch (s : State) (m base : Nat) : Bool :=
  let d := (cmpNow s base - cmpTarget s m base).toInt
  decide (0 ≤ d) && !(base == 1 && decide (d = 0) && decide (s.tmk.phase.toNat < fld (reg s (cmpR m 8)) 14 0))

/-- A number modulo m read as signed. -/
def signedMod (m : Nat) (d : Int) : Int :=
  let r := d % (m : Int)
  if 2 * r < m then r else r - m

/-- The full-width difference target - now of R69, in units of the base. -/
def cmpDelta (s : State) (m base : Nat) : Int :=
  let hi := reg s (cmpR m 4)
  let lo := reg s (cmpR m 8)
  match base with
  | 0 => signedMod (2 ^ 64) ((hi.toNat * 2 ^ 32 + lo.toNat : Nat) - (now s : Int))
  | 1 => signedMod (2 ^ 40) ((hi.toNat * 256 + lo.toNat / 2 ^ 24 : Nat) - (s.tmk.tick.toNat : Int))
  | b =>
    let v := ptOf s (b - 2)
    signedMod (2 ^ 32 * 1000000000)
      ((hi.toNat * 1000000000 + lo.toNat : Nat) - ((ptSec v % 2 ^ 32 * 1000000000 + ptNs v : Nat) : Int))

def cmpState (s : State) (m : Nat) : Nat := rf s (cmpR m 0) 19 16
def cmpBase (s : State) (m : Nat) : Nat := rf s (cmpR m 0) 6 4
def setCmp (s : State) (m st : Nat) : State := setRf s (cmpR m 0) 19 16 st

/-- Event flags of a core are cleared; one that an event has set in the same cycle stays set (R282). -/
def evClear (c : Core) (v : Word) : Core := { c with ev := c.ev &&& ~~~ (v &&& ~~~ c.evNew) }

/-- An event sets its flag in every running core (R282). -/
def raiseEvAll (s : State) (m : Nat) : State := (List.range 4).foldl (fun s n => raiseEv s n m) s

/-- A trigger source of the capture engine fires, where CAP_TRIG enables it. -/
def capTrig (s : State) (src : Nat) : State :=
  modCap s fun c => if rb s (capR 0x018) src then { c with trig := c.trig ||| BitVec.ofNat 11 (2 ^ src) } else c

/-- A firing takes its state and performs the actions of ACT (R70). -/
def cmpFire (s : State) (m st : Nat) : State :=
  let s := setCmp s m st
  let s := if rb s (cmpR m 0) 9 then capTrig s 8 else s
  if rb s (cmpR m 0) 10 then raiseEvAll s (2 ^ m) else s

/-- An armed unit looks at its target again after a step of its PT instance (R71). -/
def cmpStepped (s : State) (m : Nat) : State :=
  let d := cmpDelta s m (cmpBase s m)
  if d < 0 then cmpFire s m 3 else if 2147483648 ≤ d then setCmp s m 0xC else s

/-- A renumbering cancels every armed TT compare (R54). -/
def cancelTT (s : State) : State :=
  (List.range 8).foldl (fun s m => if cmpState s m = 1 ∧ cmpBase s m = 1 then setCmp s m 0xB else s) s

end Sys2Proof.Machine
end

