-- ==== Sys2Proof/Machine/Saffron.lean ====
section
/-! DEFINITION. The Saffron island: self-test, outputs, demands and actuation, the test pulses, the password,
the lock and the change log's acknowledgement. -/

namespace Sys2Proof.Machine

open Sys2Proof

def safStat : Nat := safR 0x008

/-- TP_INT in units of LT. -/
def tpInt (s : State) : Nat := sec (clampN 1 86400 (rf s (safR 0x014) 31 15))

/-- TP_WIDTH in units of LT. -/
def tpWidth (s : State) : Nat := us (clampN 2 500 (rf s (safR 0x014) 8 0))

def inEn (s : State) : Bool := rb s (safR 0x004) 1

/-- The conditions of R390 for the first rise of the outputs. -/
def mayRise (s : State) : Bool :=
  s.saf.tested && s.saf.demand == 0 && !((s.saf.inA || s.saf.inB) && inEn s) && !s.saf.latched

/-- The outputs rise for the first time (R390), in upper roles. -/
def firstRise (s : State) : State :=
  if isUpper s && !s.saf.risen && mayRise s then
    modSaf s fun f => { f with outA := true, outB := true, outAt := now s, risen := true }
  else s

/-- In upper roles both outputs return once the part has left SAFE and is not in it again, both inputs are high and the latch is clear;
SAF_DEMAND is cleared (R394). -/
def outReturn (s : State) : State :=
  if isUpper s && s.saf.demand != 0 && s.saf.leftSafe && modeOf s != .safe && !(inEn s && (s.saf.lowA.isSome || s.saf.lowB.isSome)) && !s.saf.latched then
    modSaf s fun f => { f with demand := 0, outA := f.risen, outB := f.risen, outAt := now s }
  else s

/-- The latch is set (R398): a demand of cause ISLAND, and the message of its cause. -/
def latchSet (s : State) (k : Kind) : State :=
  let s := report (modSaf s fun f => { f with latched := true }) 352 k safStat
  safDemand s 7

/-- The self-test completes (R389); demands recognised before it drive the outputs now. -/
def execSelfTestDone (pass : Bool) (s : State) : Out :=
  .next (if s.saf.testRun then s
    else
      let s := modSaf s fun f => { f with testRun := true, tested := pass }
      let s := if s.saf.demand ≠ 0 then demandOut s else s
      if pass then s else latchSet s .safSelftest)

/-- IN_FILT in units of LT. -/
def inFilt (s : State) : Nat := us (Nat.max 1 (rf s (safR 0x010) 31 24))

/-- R391: with IN_EN 1 an input that has been low for IN_FILT demands. -/
def inTake (s : State) (ch : Nat) : State :=
  if inEn s && (if ch = 0 then s.saf.lowA else s.saf.lowB).any fun t => decide (t + inFilt s ≤ now s) then
    safDemand (modSaf s fun f => if ch = 0 then { f with inA := true } else { f with inB := true }) ch
  else s

/-- R391: a demand input has been low for a span, in units of LT. -/
def execDemandInput (ch : Fin 2) (lowFor : BitVec 24) (s : State) : Out :=
  .next (
    let t := now s - lowFor.toNat
    let s := if (if ch = 0 then s.saf.lowA else s.saf.lowB).isSome then s
      else modSaf s fun f => if ch = 0 then { f with lowA := some t, inChg := Nat.max f.inChg t } else { f with lowB := some t, inChg := Nat.max f.inChg t }
    inTake s ch.val)

/-- R391: a demand input returns high. -/
def execDemandInputRelease (ch : Fin 2) (s : State) : Out :=
  .next (outReturn (modSaf s fun f =>
    if ch = 0 then { f with inA := false, lowA := none, inChg := if f.lowA.isSome then now s else f.inChg }
    else { f with inB := false, lowB := none, inChg := if f.lowB.isSome then now s else f.inChg }))

/-- R391: the inputs have differed for more than 10 ms. -/
def execInDiscrep (s : State) : Out :=
  .next (if inEn s && s.saf.lowA.isSome != s.saf.lowB.isSome && decide (s.saf.inChg + ms 10 < now s) then
      report (flag s safStat 0x20) 355 .inDiscrep safStat
    else s)

/-- R392: a feedback has read a level for a span, in units of LT; outside a test and an actuation it differs from its output
for longer than FB_DLY. -/
def execFbDiscrep (ch : Fin 2) (level : Bool) (span : BitVec 24) (s : State) : Out :=
  .next (
    let s := modSaf s fun f => if ch = 0 then { f with fbA := level } else { f with fbB := level }
    let out := if ch = 0 then s.saf.outA else s.saf.outB
    if s.saf.test.isNone && s.saf.act.isNone && level != out &&
        decide (Nat.max s.saf.outAt (now s - span.toNat) + us (fbDly s) < now s) then
      report (flag s safStat (if ch = 0 then 8 else 16)) (353 + ch.val) .fbDiscrep safStat
    else s)

/-- R395: FB_DLY after a cell's demand the feedbacks must read high. -/
def execActFbCheck (fbA fbB : Bool) (s : State) : Out :=
  .next (
    match s.saf.actChk with
    | some t =>
      if t ≤ now s then
        let s := modSaf s fun f => { f with fbA := fbA, fbB := fbB, actChk := none }
        if fbA && fbB then s
        else report (flag (modSaf s fun f => { f with actErr := true }) safStat 0x40) 356 .actFail safStat
      else s
    | none => s)

/-- R395: ACT_TIME ends: both outputs low, BYPASSED (and ACT_FAILED) to MRAM, state X (or B). -/
def execActTimeEnd (s : State) : Out :=
  .next (
    match s.saf.act with
    | some t =>
      if t ≤ now s then
        let bad := s.saf.actErr
        let s := modSaf s fun f => { f with outA := false, outB := false, outAt := now s, act := none, actChk := none, closed := some bad }
        let s := modNv s fun v => { v with bypassed := true, actFailed := v.actFailed || bad }
        modRdl s fun r => { r with state := if bad then .blocked else .bypassed }
      else s
    | none => s)

/-- A host's request of a bypass (R397), CELL only. -/
def bypassWrite (s : State) (o : Origin) (val : Word) : State :=
  let host := match o with
    | .xhp => true
    | .fabric src => src.toNat % 64 == 1
    | _ => false
  if !isCell s || !host || val ≠ wd (0xB75A0000 + (nodeId s).toNat) then accessFault s (safR 0x050)
  else if s.sup.eAvail < eRes s then flag s safStat 0x800
  else safDemand s 4

def execBypassRequest (o : Origin) (val : Word) (s : State) : Out := .next (live s fun s => bypassWrite s o val)

/-- R398: what sets the latch beside a failed self-test. -/
def execIslandLatch (c : LatchCause) (s : State) : Out :=
  .next (latchSet s (match c with
    | .lockstep => .safLockstep
    | .clock => .safClock
    | .watchdog => .safWdog
    | .memory => .safMem))

/-- R399: in upper roles, ALIVE has begun to toggle and makes no edge for 300 µs. -/
def execAliveSilent (s : State) : Out :=
  .next (if isUpper s && s.flt.running && decide (s.flt.lastEdge + us 300 ≤ now s) then safDemand s 6 else s)

/-- A test starts with step 1 (R400, Table 15-3). -/
def testBegin (s : State) : State :=
  modSaf s fun f =>
    { f with test := some (1, false, now s + tpWidth s), due := some (now s + tpInt s)
             outA := isCell s, outB := !isCell s, outAt := now s }

/-- R400: a test falls due. -/
def execTestStart (s : State) : Out :=
  .next (live s fun s =>
    match s.saf.due with
    | some t =>
      if t ≤ now s && rb s (safR 0x004) 0 && testMode s && s.saf.test.isNone && s.saf.act.isNone && s.saf.demand == 0 then
        if isCell s && (s.sup.low || rb s (supR 0x128) 1) then modSaf s fun f => { f with due := some (now s + sec 1) }
        else testBegin s
      else s
    | none => s)

/-- TEST_NOW (R400): at once in the modes of tests; the bit clears at the start or the refusal. -/
def testNowDo (s : State) : State :=
  let s := setReg s (safR 0x004) (setBit (reg s (safR 0x004)) 31 false)
  if testMode s && rb s (safR 0x004) 0 && s.saf.test.isNone && s.saf.act.isNone && s.saf.demand == 0 then testBegin s else s

/-- A write of SAF_CTRL: its RWL fields, then TEST_NOW. -/
def safCtrlWrite (s : State) (o : Origin) (val : Word) : State :=
  let s := genWrite s o (safR 0x004) val
  let s := if inEn s then inTake (inTake s 0) 1 else modSaf s fun f => { f with inA := false, inB := false }
  if bitOf val 31 then testNowDo s else s

def execTestNow (o : Origin) (val : Word) (s : State) : Out :=
  .next (live s fun s => safCtrlWrite s o (setBit val 31 true))

/-- A test ends as passed or failed (R402): the outputs at their non-demanding level, LAST and CHFAULT. -/
def testEnd (s : State) (pass : Bool) (ch : Nat) : State :=
  let s := modSaf s fun f =>
    { f with test := none, outA := !isCell s, outB := !isCell s, outAt := now s, last := if pass then 1 else 2, okAt := now s
             chFault := if pass then 0 else f.chFault ||| BitVec.ofNat 2 ch }
  let s := if !pass && ch % 2 == 1 then report s 353 .testFail safStat else s
  let s := if !pass && decide (2 ≤ ch) then report s 354 .testFail safStat else s
  if pass then degradedExit s else s

def tstMin (s : State) : Nat := rf s (safR 0x01C) 7 0
def tstMax (s : State) : Nat := rf s (safR 0x01C) 15 8

/-- The channels at fault when a step fails. -/
def stepCh (n : Nat) : Nat := if n = 3 then 3 else n

/-- Table 15-3: what a step's feedbacks and current must be at its end. Step 1 moves A, step 2 moves B. -/
def stepPass (s : State) (n : Nat) (fbA fbB : Bool) (tst : Nat) : Bool :=
  if n = 3 then decide (tstMin s ≤ tst) && decide (tst ≤ tstMax s)
  else fbA == s.saf.outA && fbB == s.saf.outB && (!isCell s || decide (tst < tstMin s))

/-- R402: a step ends and is judged. -/
def execTestStepEnd (fbA fbB : Bool) (tst : BitVec 8) (s : State) : Out :=
  .next (live s fun s =>
    match s.saf.test with
    | some (n, false, t) =>
      if t ≤ now s then
        let ok := stepPass s n fbA fbB tst.toNat
        let s := modSaf s fun f => { f with fbA := fbA, fbB := fbB }
        if !ok then testEnd s false (stepCh n)
        else if (n == 3) || (n == 2 && !isCell s) then testEnd s true 0
        else modSaf s fun f => { f with test := some (n, true, now s + us 100), outA := !isCell s, outB := !isCell s, outAt := now s }
      else s
    | _ => s)

/-- R402: a gap of 100 µs ends and the next step starts. -/
def execTestGapEnd (s : State) : Out :=
  .next (live s fun s =>
    match s.saf.test with
    | some (n, true, t) =>
      if t ≤ now s then
        modSaf s fun f =>
          { f with test := some (n + 1, false, now s + tpWidth s), outAt := now s
                   outA := if n + 1 = 3 then true else !isCell s
                   outB := if n + 1 = 3 then true else isCell s }
      else s
    | _ => s)

/-- R402: during a step SAFE_TST reaches TST_MIN in step 1 or 2 of a cell, or exceeds TST_MAX in step 3. -/
def execTestCurrentFail (fbA fbB : Bool) (tst : BitVec 8) (s : State) : Out :=
  .next (live s fun s =>
    match s.saf.test with
    | some (n, false, _) =>
      let s := modSaf s fun f => { f with fbA := fbA, fbB := fbB }
      if (n = 3 ∧ tstMax s < tst.toNat) ∨ (n ≠ 3 ∧ isCell s = true ∧ tstMin s ≤ tst.toNat) then testEnd s false (stepCh n) else s
    | _ => s)

/-- R404: no test has completed for 2 TP_INT in the modes of tests. -/
def execTestOverdue (s : State) : Out :=
  .next (live s fun s =>
    if testMode s && decide (s.saf.okAt + 2 * tpInt s ≤ now s) && !rb s safStat 2 then
      report (flag s safStat 4) 353 .testOverdue safStat
    else s)

/-- A password as eight bytes, most significant first. -/
def pwBytes (hi lo : Word) : List Byte := wordBytes hi ++ wordBytes lo

/-- An unlock attempt (R406, R407, R409, R412). (Log 113 DEDUCED safe.) -/
def unlockTry (s : State) (o : Origin) (lo : Word) : State :=
  if !(modeOf s == .boot || modeOf s == .precharge || modeOf s == .ready || modeOf s == .safe) then accessFault s (safR 0x034)
  else if logIsFull s then logFull s
  else if now s < s.saf.lockTil then modSaf s fun f => { f with refused := Nat.min 15 (f.refused + 1) }
  else if sha256 (pwBytes s.saf.pwHi lo) = s.nv.digest then
    let s := safLog s 2 (originNode s o) 0 0 0
    modNv (modSaf s fun f => { f with unlocked := true, lockAt := now s + sec 600 }) fun v => { v with fails := 0 }
  else
    let s := modNv s fun v => { v with fails := Nat.min 127 (v.fails + 1) }
    let s := safLog s 3 (originNode s o) 0 0 0
    report (modSaf s fun f => { f with lockTil := now s + sec (lockoutS s.nv.fails) }) 357 .pwFail (safR 0x038)

def execUnlockAttempt (o : Origin) (val : Word) (s : State) : Out := .next (live s fun s => unlockTry s o val)

/-- R407: the lockout ends; attempts are compared again. -/
def execLockoutEnd (s : State) : Out :=
  .next (if s.saf.lockTil ≤ now s then modSaf s fun f => { f with lockTil := 0 } else s)

/-- SET takes the new password while unlocked, refusing 0 (R409, R412). -/
def passwordTake (s : State) (o : Origin) : State :=
  if !s.saf.unlocked then accessFault s (safR 0x038)
  else if logIsFull s then logFull s
  else if s.saf.newHi = 0 ∧ s.saf.newLo = 0 then accessFault s (safR 0x038)
  else
    let s := safLog s 5 (originNode s o) 0 0 0
    modNv s fun v => { v with digest := sha256 (pwBytes s.saf.newHi s.saf.newLo), default := false }

/-- A write of SAF_LOCK: SET, then LOCK (R408, R409). -/
def safLockWrite (s : State) (o : Origin) (val : Word) : State :=
  let s := if bitOf val 30 then passwordTake s o else s
  if bitOf val 31 then safLock s (originNode s o) else s

def execSafLockCmd (o : Origin) (val : Word) (s : State) : Out :=
  .next (live s fun s => safLockWrite s o (setBit val 31 true))

def execPasswordSet (o : Origin) (val : Word) (s : State) : Out :=
  .next (live s fun s => safLockWrite s o (setBit val 30 true))

/-- R408: 600 s after the later of the unlock and the last accepted RWL write Saffron locks. -/
def execUnlockTimeout (s : State) : Out :=
  .next (if s.saf.unlocked && decide (s.saf.lockAt ≤ now s) then safLock s (nodeId s) else s)

/-- A service code (R413), CELL only: unlocked with a password of its own, in SAFE; the log may be full to its
last place (R412). It clears the record in MRAM; the cell leaves SAFE only after its power has been cycled too (R7). (Log 113 DEDUCED safe.) -/
def serviceWrite (s : State) (o : Origin) (val : Word) : State :=
  if !isCell s || !rwlOpen s || modeOf s != .safe then accessFault s (safR 0x054)
  else if 256 ≤ s.nv.unack then logFull s
  else modNv (safLog s 6 (originNode s o) (fld val 15 0) 0 0) fun v => { v with bypassed := false, actFailed := false }

def execServiceRecord (o : Origin) (val : Word) (s : State) : Out := .next (live s fun s => serviceWrite s o val)

/-- R412: entries up to a SEQ, compared as a number, are acknowledged; a run of refusals ends when fewer than 248 are left. -/
def logAckWrite (s : State) (val : Word) : State :=
  let left := s.nv.logSeq.toNat - val.toNat
  let n := if left ≤ s.nv.unack then left else s.nv.unack
  modSaf (modNv s fun v => { v with unack := n }) fun f => { f with fullRun := if 248 ≤ n then f.fullRun else false }

def execLogAck (_ : Origin) (val : Word) (s : State) : Out := .next (live s fun s => logAckWrite s val)

end Sys2Proof.Machine
end

