-- ==== Sys2Proof/Machine/Modes.lean ====
section
/-! DEFINITION. The operating modes: what entering a mode does, the mode commands with their checks, and the
feeds of the supply keeper. -/

namespace Sys2Proof.Machine

open Sys2Proof

/-- An instance enters SETTLE (R256, R257): states zero, counts zero, not yet seeded. -/
def settle (s : State) (i : Nat) : State :=
  let s := (List.range 16).foldl (fun s w => setReg s (lpeMem i w) 0) s
  modLpe s fun l => { l with inst := kmod default l.inst i fun x =>
    { x with st := .settle, runCnt := 0, feCnt := 0, loss := 0, seeded := false, okRun := false } }

/-- Every enabled instance enters SETTLE. -/
def settleAll (s : State) : State :=
  (List.range 4).foldl (fun s i => if (kget default s.lpe.inst i).st = .off then s else settle s i) s

/-- Tests of Saffron on entry to READY, RUN or DEGRADED (R400): the first falls due 1 s + (node ID mod 1,024) ms
after entry to READY; one that fell due in another mode 1 s after entry. -/
def testDue (s : State) : State :=
  modSaf s fun f =>
    let f := { f with okAt := now s - f.okAcc }
    match f.due with
    | none => { f with due := some (now s + sec 1 + ms ((nodeId s).toNat % 1024)) }
    | some t => if t ≤ now s then { f with due := some (now s + sec 1) } else f

/-- A forced state in test ends at once with state B (R189). -/
def forcedEnd (s : State) : State :=
  let s := modRdl s fun r => { r with forceNow := none, forceNew := none }
  if s.rdl.forced.isSome then
    let s := modSwg s fun g => { (List.range 8).foldl (fun g m => gcmdFall g (now s) (fbTmo s) m) g with want := 0, waitOn := 0 }
    modRdl s fun r => { r with forced := none, state := .blocked, fracNow := false, pulse := none, legB := none }
  else s

/-- The ARM part starts the Riddle (R147): the bins of its first tick are full scale. -/
def rdlStart (s : State) : State :=
  if roleOf s = .arm then modRdl s fun r => { r with first := true } else s

/-- The part enters a mode other than SAFE. -/
def setMode (s : State) (m : Mode) : State :=
  let old := modeOf s
  if old = m then s
  else
    let s := modSys (undoMark s) fun y => { y with mode := m }
    let s := if old = .boot then aliveBegin s else s
    let s := if old = .ready then forcedEnd s else s
    let s := if m = .run then safLock s (nodeId s) else s
    let s := if (old = .ready ∧ m = .run) ∨ (old = .safe ∧ m = .ready) then settleAll s else s
    let s := if m = .precharge ∧ isUpper s = true ∧ rb s (sysR 0x050) 31 = false then modPair s fun p => { p with active := true } else s
    let s := if m = .precharge then modSup (rdlStart (firstRise s)) fun u => { u with wake := true } else s
    let s := if (m = .ready ∨ m = .run ∨ m = .degraded) ∧ ¬ (old = .ready ∨ old = .run ∨ old = .degraded) then testDue s else s
    if old = .safe then
      let s := modSwg (modSys s fun y => { y with cause := 0 }) fun g => { g with tripped := false }
      outReturn (modSaf s fun f => { f with leftSafe := true })
    else s

/-- QUARANTINE is held. -/
def quarHeld (s : State) : Bool := rb s (sysR 0x030) 0

/-- QUARANTINE is entered for a cause, bits 1 to 4 of SYS_QUAR (R316). -/
def quarantine (s : State) (bit : Nat) : State := setReg s (sysR 0x030) (reg s (sysR 0x030) ||| wd (2 ^ bit + 1))

/-- TT_ALIGN. -/
def ttAlign (s : State) : Bool := alignNow s

/-- A demand input in use demands. -/
def inDemand (s : State) : Bool := inEn s && (s.saf.inA || s.saf.inB)

/-- Every SYS_SAFE_MASKk reads 0. (Log 30 DEDUCED safe.) -/
def maskEmpty (s : State) : Bool := (List.range 16).all fun k => reg s (sysR (0x200 + 4 * k)) == 0

/-- The command arrives through XHP (R448). -/
def byHost : Origin → Bool
  | .xhp => true
  | .fabric src => src.toNat % 64 == 1
  | _ => false

/-- A core runs from the slot that the boot ROM has loaded (Table 17-5). -/
def anyCoreRuns (s : State) : Bool := (List.range 4).any fun n => coreRuns (coreOf s n)

/-- The REFUSE code of a command to PRECHARGE, READY or RUN; 0 where it is accepted (R448, R449, R453). (Log 27 DEDUCED unsafe.) -/
def refuseCode (s : State) (host : Bool) (target : Nat) : Nat :=
  match target, modeOf s with
  | 1, .boot =>
    if isCell s then 7
    else if s.sys.bootOk && anyCoreRuns s && (roleOf s == .station || s.trr.nodeId.isSome) then 0 else 2
  | 2, .precharge => if isCell s then 7 else if ttAlign s then 0 else 2
  | 2, .safe =>
    if !host then 8
    else if !maskEmpty s then 6
    else if inDemand s || s.saf.latched || (isCell s && (s.nv.bypassed || s.saf.closed.isSome || s.saf.demand != 0)) then 5 else 0
  | 3, .ready =>
    if isCell s then 7 else if quarHeld s then 3 else if reg s (fltR 0x090) ≠ 0 then 4
    else if s.saf.demand != 0 || inDemand s then 5 else 0
  | 1, _ => if isCell s then 7 else 1
  | 2, _ => if isCell s then 7 else 1
  | 3, _ => if isCell s then 7 else 1
  | _, _ => 1

/-- A refused command writes its code and leaves the mode (R449). (Log 27 DEDUCED unsafe.) -/
def refuse (s : State) (code : Nat) : State := modSys s fun y => { y with refuse := code }

/-- A command with the key (R448 to R450). -/
def modeCmd (s : State) (o : Origin) (target : Nat) : State :=
  if target = 5 then enterSafe s 21 none
  else if target = 7 then chipReset s 2 0x1FF
  else
    let c := refuseCode s (byHost o) target
    if c = 0 then modSys s fun y => { y with cmd := some (target, byHost o), cmdDue := false } else refuse s c

/-- A write of SYS_MODE_CMD: any other key is an access fault. (Log 14 DEDUCED safe.) -/
def modeCmdWrite (s : State) (o : Origin) (val : Word) : State :=
  if fld val 31 16 = 0x4D44 then modeCmd s o (fld val 2 0) else accessFault s (sysR 0x00C)

/-- The mode a target names. -/
def targetMode : Nat → Mode
  | 1 => .precharge
  | 2 => .ready
  | _ => .run

/-- An accepted command takes effect at the tick application, or is refused with code 2 (R449). (Log 33 DEDUCED safe.) -/
def cmdEffect (s : State) : State :=
  match s.sys.cmd with
  | none => s
  | some (t, host) =>
    if !s.sys.cmdDue then s
    else
      let c := refuseCode s host t
      let s := modSys s fun y => { y with cmd := none, cmdDue := false }
      if c = 0 then setMode s (targetMode t) else refuse s 2

def execModeCmdPrecharge (o : Origin) (s : State) : Out := .next (live s fun s => modeCmd s o 1)
def execModeCmdReady (o : Origin) (s : State) : Out := .next (live s fun s => modeCmd s o 2)
def execModeCmdRun (o : Origin) (s : State) : Out := .next (live s fun s => modeCmd s o 3)
def execModeCmdSafe (o : Origin) (s : State) : Out := .next (live s fun s => modeCmd s o 5)
def execModeCmdChipReset (o : Origin) (s : State) : Out := .next (live s fun s => modeCmd s o 7)
def execModeCmdTakeEffect (s : State) : Out := .next (live s cmdEffect)

/-- A cell enters PRECHARGE once its table set is loaded and the tick number is held (R447). (Log 33 DEDUCED safe.) -/
def cellPrecharge (s : State) : State :=
  if isCell s && modeOf s == .boot && s.sys.tbl.loaded && s.tmk.held then setMode s .precharge else s

/-- FEED_UV and FEED_OV in mV, clamped. -/
def feedUv (s : State) : Nat := 10 * clampN 270 300 (rf s (supR 0x000) 15 0)
def feedOv (s : State) : Nat := 10 * clampN 560 600 (rf s (supR 0x000) 31 16)

/-- The level of one feed's gate (R436). -/
def gateLevel (on valid other : Bool) (mv mvO : Nat) : Bool :=
  if !valid then false
  else if !other then true
  else if mvO ≤ mv + 100 then true
  else if mv + 200 < mvO then false else on

/-- Both gates follow validity and the difference of the feeds. -/
def feedGates (s : State) : State :=
  modSup s fun u => { u with gateA := gateLevel u.gateA u.validA u.validB u.mvA.toNat u.mvB.toNat
                             gateB := gateLevel u.gateB u.validB u.validA u.mvB.toNat u.mvA.toNat }

/-- R435: a feed that has stayed in its window for a span, in units of LT, becomes valid after 1 ms. -/
def execFeedValid (f : Fin 2) (span : BitVec 24) (mvA mvB : BitVec 16) (s : State) : Out :=
  .next (
    let v := if f = 0 then mvA.toNat else mvB.toNat
    let ok := decide (feedUv s ≤ v) && decide (v ≤ feedOv s) && decide (ms 1 ≤ span.toNat)
    feedGates (modSup s fun u =>
      if f = 0 then { u with mvA := mvA, mvB := mvB, validA := u.validA || ok, seenA := u.seenA || ok }
      else { u with mvA := mvA, mvB := mvB, validB := u.validB || ok, seenB := u.seenB || ok }))

/-- R435, R437: a feed that has stayed below its window for a span of 10 µs, or above it for 1 µs, stops being valid. -/
def execFeedLoss (f : Fin 2) (span : BitVec 24) (mvA mvB : BitVec 16) (s : State) : Out :=
  .next (
    let was := if f = 0 then s.sup.validA else s.sup.validB
    let v := if f = 0 then mvA.toNat else mvB.toNat
    let high := decide (feedOv s < v)
    let lost := (high && decide (us 1 ≤ span.toNat)) || (decide (v < feedUv s) && decide (us 10 ≤ span.toNat))
    let s := modSup s fun u =>
      if f = 0 then { u with mvA := mvA, mvB := mvB, validA := u.validA && !lost } else { u with mvA := mvA, mvB := mvB, validB := u.validB && !lost }
    let s := feedGates s
    if !(was && lost) then s
    else report (flag s (supR 0x004) (2 ^ (2 * b2n high + f.val))) (384 + f.val) (if high then .feedOv else .feedLoss) (supR 0x004))

/-- R436: the difference between two valid feeds changes. -/
def execFeedImbalance (mvA mvB : BitVec 16) (s : State) : Out :=
  .next (feedGates (modSup s fun u => { u with mvA := mvA, mvB := mvB }))

end Sys2Proof.Machine
end

