-- ==== Sys2Proof/Machine/Time.lean ====
section
/-! DEFINITION. The commands of the timekeeper: tick symbols and their forwarding, coupling and renumbering,
slewing, PT instances, compare units and the measurement of hop delays. -/

namespace Sys2Proof.Machine

open Sys2Proof

/-- A read of the lowest word of a time value latches the higher words (R41). -/
def lowRead (s : State) (a : Nat) : State :=
  let off := a - tmkR 0
  let put (s : State) (o : Nat) (v : Nat) : State := modTmk s fun t => { t with latch := kput 0 t.latch o (wd v) }
  if off = 0x020 then
    { put s 0x024 (s.tmk.tick.toNat / 256) with rdata := wd (s.tmk.tick.toNat % 256 * 2 ^ 24 + s.tmk.phase.toNat) }
  else if off = 0x030 then { put s 0x034 (now s / 2 ^ 32) with rdata := wd (now s) }
  else if off = 0x10C ∨ off = 0x14C ∨ off = 0x18C then
    let v := ptOf s ((off - 0x10C) / 0x40)
    { put (put (put s (off - 4) (ptNs v)) (off - 8) (ptSec v)) (off - 12) (ptSec v / 2 ^ 32) with rdata := wd (ptSub v) }
  else s

/-- Such a read, of a block that is reached; 0 from one that is not (R14, R38). -/
def execTimeLowWordRead (_ : Origin) (addr : Word) (s : State) : Out :=
  .next (live s fun s => if reachable s addr.toNat then lowRead s addr.toNat else { s with rdata := 0 })

/-- R56: the STATION part launches the symbol of the coming tick LEAD before its boundary; on its PARTNER port
only as the active part (R432). -/
def tickLaunch (s : State) : State :=
  let at_ := s.tmk.nextPs - leadPs s
  if generates s && s.tmk.ticked && !s.tmk.launched && decide (s.tmk.nextPs ≤ nowPs s + leadPs s) then
    let partner := if s.sys.pair.active then (portsOf s 4).filter (isActive s) else []
    tickSend (modTmk s fun t => { t with launched := true }) (activeDowns s ++ partner) (nextGrid s) 0 fun _ => at_
  else s

def execTickSymbolLaunch (s : State) : Out := .next (live s tickLaunch)

/-- The forwarded pass of the selected up-port, the other not being ACTIVE (R503). -/
def inPass (s : State) : Bool :=
  (selPort s).any (fun p => (portOf s p).fwdPass) && !((otherPort s).any (isActive s))

/-- The node applies ticks on arrival, since D_acc of the selected path exceeds LEAD - 100 ns (R63). -/
def onArrival (s : State) : Bool := leadShort s s.tmk.dacc

/-- The expected arrival of the next tick symbol, ps (R65, R63). -/
def arrivalPs (s : State) : Nat := if onArrival s then expectPs s else expectPs s + s.tmk.dacc - leadPs s

/-- An arrival counts for the coming tick: 50 ns before the expected instant at the latest (R65); a node that applies
ticks on arrival (R63) has no such limit. -/
def inTime (s : State) (at_ : Nat) : Bool := !s.tmk.ticked || onArrival s || decide (at_ + 50000 ≤ expectPs s)

/-- A tick symbol arrives (R57, R59, R65, R432); before the first tick the number held from CAPS is brought to
the symbol's low bits. One that comes too late for its tick is forwarded and not used. -/
def symbolIn (s : State) (p : Nat) (tt dly : Nat) (at_ : Nat) : State :=
  let from_ := (primPort s == some p || secPort s == some p) && isLive s p && !(roleOf s == .station && !standbyStation s)
  if !from_ || !(s.tmk.held || roleOf s == .station) then s
  else
    let s := if s.tmk.ticked then s else modTmk s fun t => { t with tick := t.tick + BitVec.ofNat 40 ((tt + 64 - t.tick.toNat % 64) % 64) }
    let past := s.tmk.ticked && s.tmk.tick.toNat % 64 == tt
    let s := if inTime s at_ && !past then modTmk s fun t =>
        { t with sym := kput none t.sym p (some ⟨BitVec.ofNat 6 tt, BitVec.ofNat 2 dly, at_⟩), missRun := 0 } else s
    let s := if dly = 3 then tmkFlag s 3 .tickLate else s
    let s := if (nextGrid s).toNat % 64 = tt || past then s else if s.tmk.okNo then numberLost s else s
    let s := if selPort s = some p then tickSend s (activeDowns s) (BitVec.ofNat 40 tt) dly fun q => at_ + fwdLat p q else s
    alignSync s

def execTickSymbolRx (p : Port) (tt : BitVec 6) (dly : BitVec 2) (at_ps : Nat) (s : State) : Out :=
  .next (live s fun s => symbolIn s p.val tt.toNat dly.toNat at_ps)

/-- The instant at which a symbol of a port applies its tick (R58, R63), at 5 ps resolution. (Log 42 DEDUCED safe.) -/
def symInstant (s : State) (p : Nat) (y : TickSym) : Nat :=
  let d := kget 0 s.tmk.daccPort p
  let t := if leadShort s d then y.at_ps else y.at_ps + leadPs s - d - y.dly.toNat * 3200
  (t + 2) / 5 * 5

/-- What the symbols of the coming tick decide (R64): the instant, and whether the secondary is selected for the
tick and for the next one; with the skew of the two. Where the secondary is selected and only the primary delivers,
its symbol is applied and the primary selected again at once: a choice of the model. (Log 118 DESIGN CHOICE unsafe.) -/
def tickChoice (s : State) : Option (Nat × Bool × Bool × Bool) :=
  let inst (q : Option Nat) : Option Nat := q.bind fun p => (kget none s.tmk.sym p).map (symInstant s p)
  match inst (primPort s), inst (secPort s) with
  | some a, none => some (a, false, false, false)
  | none, some b => some (b, true, true, false)
  | some a, some b =>
    let skew := decide (a + 6000 < b) || decide (b + 6000 < a)
    some (if s.tmk.second then b else a, s.tmk.second, s.tmk.second && skew, skew)
  | none, none => none

/-- The parent changes: PATH is 0 until an ALIGN arrives (R500). -/
def selectParent (s : State) (second : Bool) : State :=
  if s.tmk.second = second then s else modTmk s fun t => { t with second := second, path := false }

/-- A tick that begins while the primary up-port is not in LOCK, CAPS or ACTIVE selects the secondary parent (R64),
whose path then gives D_acc. -/
def primaryDown (s : State) : State :=
  let s := if !s.tmk.second && !((primPort s).any (isLive s)) && (secPort s).isSome then selectParent s true else s
  modTmk s fun t => { t with dacc := match selPort s with | some p => kget 0 t.daccPort p | none => 0 }

/-- The part of a tick application that the symbols decide, at its instant (R58, R63, R64, R66); the flag says
whether a tick was applied. -/
def symbolTick (s : State) : Option State :=
  if generates s then none
  else match tickChoice s with
    | none => none
    | some (inst, sec, next, skew) =>
      if nowPs s < inst then none
      else
        let jump := s.tmk.ticked && (decide (expectPs s + 20000 < inst) || decide (inst + 20000 < expectPs s))
        let s := selectParent s sec
        let s := modTmk (tickAdvance s inst) fun t => { t with follow := true }
        let s := if skew then tmkFlag s 2 .tickSkew else s
        let s := if jump then tmkFlag s 4 .tickJump else s
        let s := if leadShort s s.tmk.dacc then tmkFlag s 0 .leadShort else s
        some (primaryDown (selectParent s next))

/-- A tick without a symbol (R65), or in a forwarded pass (R503). -/
def missedTick (s : State) : Option State :=
  if generates s || !s.tmk.ticked || (tickChoice s).isSome || decide (nowPs s < expectPs s) then none
  else
    let pass := inPass s
    let s := primaryDown (tickAdvance s (expectPs s))
    if pass then some s
    else
      let n := s.tmk.missRun + 1
      let s := tmkFlag (modTmk s fun t => { t with missRun := Nat.min 15 n }) 1 .tickMissing
      some (if n = Nat.max 1 (rf s (tmkR 0x044) 3 0) then report s 32 .tickLost (tmkR 0x004) else s)

/-- A PT time in ps. -/
def ptPs (v : Nat) : Nat := v * 1000 / ptOne

/-- PT0 at an instant of LT, ps, from PT0 and LT now at the rate in effect. -/
def pt0At (s : State) (atPs : Nat) : Int :=
  let d : Int := (atPs : Int) - nowPs s
  (ptPs (ptOf s 0) : Int) + d + d * ptRate s 0 / (ptOne : Int)

/-- The epoch in ps. -/
def epochPs (s : State) : Int :=
  (((rf s (tmkR 0x010) 15 0 * 2 ^ 32 + (reg s (tmkR 0x014)).toNat) * 1000000000 + rf s (tmkR 0x018) 29 0) * 1000 : Nat)

/-- The offset of the boundary of tick k at an instant to its place on the PT0 grid, ps (R47). -/
def gridOffset (s : State) (k : Nat) (inst : Nat) : Int :=
  signedMod (2 ^ 40 * periodPs s) (pt0At s inst - epochPs s - (k * periodPs s : Nat))

/-- The grid tick nearest to an instant (R49). -/
def gridNear (s : State) (inst : Nat) : BitVec 40 :=
  BitVec.ofInt 40 ((2 * (pt0At s inst - epochPs s) + periodPs s) / (2 * periodPs s : Nat))

/-- The offset shown in TMK_TT_OFFSET: to the own grid tick while coupled, else to the nearest. -/
def ttOffset (s : State) : Int :=
  let k := if s.tmk.coupled then s.tmk.tick else gridNear s s.tmk.lastPs
  gridOffset s k.toNat s.tmk.lastPs

/-- One ps in the units in which the exact place of a boundary is kept. -/
def fine : Nat := 1048576

/-- An exact instant, in 2^-20 ps, brought to the nearest 2 ns grid point, ps. -/
def gridPoint (x : Int) : Int := (2 * x + 2000 * fine) / (2 * 2000 * fine : Nat) * 2000

/-- The STATION part applies its next tick (R47, R51, R53, R501). While coupled, the tick after lies at the 2 ns grid
point nearest to where PT0 at its rate places it, less the slew still in progress: the offset is taken back by at most
TMK_SLEW ppm of the period in each tick. The exact place, beyond the grid point, is carried from tick to tick. -/
def stationTick (s : State) : Option State :=
  if !generates s || decide (nowPs s < s.tmk.nextPs) then none
  else
    let s := tickAdvance s s.tmk.nextPs
    let s := modTmk s fun t => { t with follow := false, held := true, okNo := true }
    let valid := rb s (tmkR 0x000) 1
    let s := if valid then modTmk s fun t => { t with rate := ptRate s 0 } else s
    let off := ttOffset s
    let s := setReg s (tmkR 0x028) (wdI (clampI (-2147483647) 2147483647 off))
    some (if !s.tmk.coupled then modTmk s fun t => { t with slewing := false, slewAcc := 0 }
      else
        let lim : Int := s.tmk.period * clampN 1 50 (rf s (tmkR 0x01C) 5 0) / 2
        let exact : Int := off + s.tmk.slewAcc / (fine : Int)
        let back : Int := if valid then clampI (-lim) lim exact else 0
        let span : Int := ((periodPs s : Int) - back) * (ptOne * fine : Nat) / ((ptOne : Int) + s.tmk.rate)
        let x : Int := (s.tmk.lastPs * fine : Nat) + s.tmk.slewAcc + span
        let g := gridPoint x
        modTmk s fun t => { t with slewing := valid && decide (1000 < exact.natAbs), slewAcc := x - g * (fine : Int), nextPs := g.toNat })

/-- A RENUMBER packet (TYPE 0x1A, R45, R49) on a port. (Log 44 DESIGN CHOICE unsafe.) -/
def annSend (a : Announce) (s : State) (p : Nat) : State :=
  let w := match a with
    | .period u k => [wd u.toNat, wd (k.toNat / 2 ^ 32), wd k.toNat]
    | .renumber k g => [wd (2 ^ 24), wd (k.toNat / 2 ^ 32), wd k.toNat, wd (g.toNat / 2 ^ 32), wd g.toNat]
  enqueue s p (ownPacket s 0 0 0x1A 2 0 w) false

/-- An announcement goes to every node below, and from the STATION part to its partner. -/
def announce (s : State) (a : Announce) : State :=
  (activeDowns s ++ (if generates s then (portsOf s 4).filter (isActive s) else [])).foldl (annSend a) s

/-- Ticks from boundary k to the tick number held, if k has been reached. -/
def since (s : State) (k : BitVec 40) : Option Nat :=
  let d := (s.tmk.tick - k).toNat
  if s.tmk.ticked && decide (d < 2 ^ 39) then some d else none

/-- R45: at the announced boundary the tick starts with the new period; a node without the announcement keeps
the old one. -/
def periodBoundary (s : State) : State :=
  match s.tmk.annPer with
  | some (u, k) =>
    if (since s k).isNone then s
    else
      let s := setRf s (tmkR 0x008) 7 0 u
      modTmk s fun t => { t with period := u, annPer := none, nextPs := t.lastPs + u * 500000 }
  | none => if generates s then s else numberLost s

def execPeriodBoundary (s : State) : Out := .next (live s fun s => alignSync (periodBoundary s))

/-- R49, R50, R54: at the announced boundary the tick number takes the grid value. -/
def renumberBoundary (s : State) : State :=
  match s.tmk.annNum with
  | some (k, g) =>
    match since s k with
    | none => s
    | some d =>
      modTmk (cancelTT s) fun t =>
        { t with tick := g + BitVec.ofNat 40 d, annNum := none, okNo := true
                 coupled := if roleOf s = .station then true else t.coupled }
  | none => if generates s then s else numberLost s

def execRenumberBoundary (s : State) : Out := .next (live s fun s => alignSync (renumberBoundary s))

/-- R50: a parent that holds a consistent number answers with it, its period and what it has announced. (Log 43 DEDUCED unsafe.) -/
def ticknoAnswer (s : State) (p : Nat) : State :=
  if isActive s p && (dirOf s p == 3 || dirOf s p == 4) && s.tmk.held && s.tmk.okNo then
    let n := nextNo s
    let s := annSend (.period (BitVec.ofNat 8 s.tmk.period) n) (annSend (.renumber n n) s p) p
    let s := match s.tmk.annPer with | some (u, k) => annSend (.period (BitVec.ofNat 8 u) k) s p | none => s
    match s.tmk.annNum with | some (k, g) => annSend (.renumber k g) s p | none => s
  else s

def execTicknoReqRx (p : Port) (s : State) : Out := .next (live s fun s => ticknoAnswer (creditSend s p 1 0 0) p.val)

/-- BOOT, PRECHARGE or READY. -/
def preRun (s : State) : Bool := modeOf s == .boot || modeOf s == .precharge || modeOf s == .ready

/-- COUPLE is accepted or refused (R48, R49). -/
def coupleTry (s : State) : State :=
  let s := setReg s (tmkR 0x000) (setBit (reg s (tmkR 0x000)) 2 false)
  if generates s && rb s (tmkR 0x000) 1 && !s.tmk.coupled && preRun s then
    let k := s.tmk.tick + 64
    let g := gridNear s s.tmk.lastPs + 64
    announce (modTmk s fun t => { t with annNum := some (k, g) }) (.renumber k g)
  else report s 33 .coupleRefused (tmkR 0x000)

/-- The hop delays of the up-ports are measured again (R61). -/
def remeasureAll (s : State) : State :=
  (upPorts s).foldl (fun s p => if isActive s p then modPort s p fun t => { t with hop := [] } else s) s

/-- A write of TMK_CTRL (Table 2-9). (Log 14 DEDUCED safe.) -/
def tmkCtrlWrite (s : State) (o : Origin) (val : Word) : State :=
  let s := genWrite s o (tmkR 0x000) val
  let s := if bitOf val 3 && roleOf s == .station && preRun s then modTmk s fun t => { t with coupled := false, slewing := false } else s
  let s := if bitOf val 2 then coupleTry s else s
  if bitOf val 4 then remeasureAll s else s

/-- The word that writes one bit of TMK_CTRL and keeps PT0_VALID. -/
def tmkCtrlBit (s : State) (i : Nat) : Word := setBit (setBit 0 1 (rb s (tmkR 0x000) 1)) i true

def execCouple (o : Origin) (s : State) : Out := .next (live s fun s => tmkCtrlWrite s o (tmkCtrlBit s 2))
def execDecouple (o : Origin) (s : State) : Out := .next (live s fun s => tmkCtrlWrite s o (tmkCtrlBit s 3))
def execPt0ValidSet (o : Origin) (on : Bool) (s : State) : Out :=
  .next (live s fun s => tmkCtrlWrite s o (setBit 0 1 on))
def execRemeasure (o : Origin) (s : State) : Out := .next (live s fun s => tmkCtrlWrite s o (tmkCtrlBit s 4))

/-- A write of CMPm_LO arms the unit or refuses it (R69); a PT base of a cell, which keeps none (R38), is refused as
the reserved bases are. (Log 115 DEDUCED safe.) -/
def cmpArm (s : State) (o : Origin) (m : Nat) (val : Word) : State :=
  let s := genWrite s o (cmpR m 8) val
  let b := cmpBase s m
  let d := cmpDelta s m b
  setCmp s m (if 4 < b || (isCell s && 2 ≤ b) then 0xA else if d < 1 then 8 else if 2147483648 ≤ d then 9
    else if b = 1 ∧ periodLt s ≤ fld val 14 0 then 0xA else 1)

def execCmpArm (o : Origin) (m : Fin 8) (val : Word) (s : State) : Out := .next (live s fun s => cmpArm s o m.val val)

/-- R70: an armed unit fires in the first cycle in which the rule matches. -/
def cmpTry (s : State) (m : Nat) : State :=
  if cmpState s m = 1 ∧ cmpMatch s m (cmpBase s m) = true then cmpFire s m 2 else s

def execCmpFire (m : Fin 8) (s : State) : Out := .next (live s fun s => cmpTry s m.val)

/-- A write of CMPm_CTRL: CANCEL, or another BASE, cancels an armed target (R70, Table 2-7). -/
def cmpCtrl (s : State) (o : Origin) (m : Nat) (val : Word) : State :=
  let armed := decide (cmpState s m = 1) && (bitOf val 0 || decide (fld val 6 4 ≠ cmpBase s m))
  let s := genWrite s o (cmpR m 0) val
  if armed then setCmp s m 0xD else s

def execCmpCancel (o : Origin) (m : Fin 8) (val : Word) (s : State) : Out := .next (live s fun s => cmpCtrl s o m.val val)

/-- A new D_acc of an up-port, from the next tick boundary (R61); at once where no tick has been applied. -/
def daccSet (s : State) (p d : Nat) : State :=
  if s.tmk.ticked then modTmk s fun t => { t with daccNew := kput none t.daccNew p (some d) }
  else modTmk s fun t => { t with daccPort := kput 0 t.daccPort p d, dacc := if selPort s = some p then d else t.dacc }

/-- R60: a timing exchange of TRAIN or of a repeated measurement, in units of 1/2 ps; the mean of 64 is the hop
delay, which gives D_acc of an up-port from the next tick boundary (R61). (Log 46 DEDUCED unsafe.) -/
def exchange (s : State) (p : Nat) (t1 t2 t3 t4 : Nat) : State :=
  let t := portOf s p
  if !(t.stage == .train || t.stage == .active) || decide (64 ≤ t.hop.length) then s
  else
    let r : Int := ((t4 : Int) - t1) - ((t3 : Int) - t2) + (reg s (tmkR (0x060 + 4 * p))).toInt
    let l := t.hop ++ [r]
    let s := modPort s p fun t => { t with hop := l }
    if l.length < 64 then s
    else
      let d := rdivAway (l.foldl (· + ·) 0) 128
      let s := modPort s p fun t => { t with hopDelay := d }
      if primPort s = some p ∨ secPort s = some p then
        daccSet s p (Int.toNat ((kget 0 s.tmk.dout p : Nat) + d))
      else s

def execTimingExchangeRx (p : Port) (t1 t2 t3 t4 : Nat) (s : State) : Out :=
  .next (live s fun s => exchange s p.val t1 t2 t3 t4)

/-- R67: 200 ns before the expected arrival of a tick symbol idle down-ports start their exit; the arrival is the
instant itself at a node that applies ticks on arrival (R63). -/
def execTickIdleWake (s : State) : Out :=
  .next (live s fun s =>
    let arrival := if generates s then s.tmk.nextPs - leadPs s else arrivalPs s
    if s.tmk.ticked && decide (arrival ≤ nowPs s + 200000) then
      (downPorts s).foldl (fun s p => if h : p < 6 then idleExit s ⟨p, h⟩ else s) s
    else s)

/-- R503: in a forwarded pass the node sends the tick symbol itself. -/
def execPassTickSymbolSend (s : State) : Out :=
  .next (live s fun s =>
    let t0 := arrivalPs s
    if inPass s && s.tmk.ticked && !s.tmk.passSent && decide (t0 ≤ nowPs s) then
      tickSend (modTmk s fun t => { t with passSent := true }) (activeDowns s) (nextGrid s) 0
        fun q => t0 + (match selPort s with | some p => fwdLat p q | none => 0)
    else s)

/-- R500: an ALIGN on the selected up-port gives PATH. -/
def execAlignRx (p : Port) (pk : Packet) (s : State) : Out :=
  .next (live s fun s =>
    let s := if isActive s p then creditBack s p pk else s
    if pk.typ == 0x0E && packetOk pk && isActive s p && selPort s == some p.val then
      alignSync (modTmk s fun t => { t with path := bitOf (pk.payload.getD 0 0) 0 })
    else s)

end Sys2Proof.Machine
end

