-- ==== Sys2Proof/Machine/LinkUp.lean ====
section
/-! DEFINITION. The end of bring-up: symbol lock, the CAPS exchange and entry to ACTIVE. -/

namespace Sys2Proof.Machine

open Sys2Proof

/-- The fabric protocol revision of C1. -/
def fpRev : Nat := 0x10

/-- The part's own CAPS block for a port (Table 3-4, R98, R99). SPREAD on is SPREAD_EN, at a port of any direction: the
model's choice. (Log 94 DEDUCED unsafe, 118 DESIGN CHOICE unsafe.) -/
def capsBlock (s : State) (p : Nat) (ack : Bool) : List Byte :=
  let down := dirOf s p == 3
  let valid := down && s.tmk.held && s.tmk.okNo
  let d := dirOf s p
  let pick (n : Nat) : Nat := if valid then n else 0
  let head := natLe 1 1 ++ natLe 1 (b2n ack * 128 + p * 16 + d % 4 * 4 + (roleOf s).code) ++ natLe 1 fpRev ++
    natLe 1 (b2n valid * 16 + b2n (rb s (trlR 0x000) 1) * 8 + b2n (rb s (trlCfg p) 4) * 4 + b2n (rb s (trlCfg p) 3) * 2)
  let body := head ++ ownVector s ++ natLe 1 (pick s.tmk.period) ++ natLe 5 (pick (nextNo s).toNat) ++ natLe 4 (pick (doutOf s p)) ++ natLe 2 0
  body ++ natLe 4 (crc32c body)

/-- A block whose CRC holds (R98). -/
def capsGoodBlock (b : List Byte) : Bool := b.length == 36 && crc32c (b.take 32) == leNat (b.drop 32)

/-- A block without ACK, TICKNO and CRC (R101). -/
def capsCore (b : List Byte) : List Byte :=
  setAt (b.take 21) 1 (BitVec.ofNat 8 (byteAt b 1 % 128)) ++ (b.drop 26).take 6

/-- The peer's block in TRL_PpPEER0 to PEER8. -/
def peerStore (s : State) (p : Nat) (b : List Byte) : State :=
  (List.range 9).foldl (fun s w => setReg s (trlR (0x110 + 0x40 * p + 4 * w)) (wd (leNat ((b.drop (4 * w)).take 4)))) s

/-- The period, the tick number and D_out of a block with TICK_VALID from an up-port (R43, R99): D_out is held
for the port; the period and the number are taken from the selected up-port, the first to give them. -/
def capsTick (s : State) (p : Nat) (b : List Byte) : State :=
  let up := primPort s == some p || secPort s == some p
  if !up || byteAt b 3 / 16 % 2 = 0 then s
  else
    let dout := leNat ((b.drop 26).take 4)
    let s := modTmk s fun t => { t with dout := kput 0 t.dout p dout }
    let s := daccSet s p (Int.toNat ((dout : Int) + (portOf s p).hopDelay))
    let first := !s.tmk.held
    let s := if first then selectParent s (secPort s == some p) else s
    if selPort s = some p then
      let no := BitVec.ofNat 40 (leNat ((b.drop 21).take 5))
      let per := byteAt b 20
      let s := setRf s (tmkR 0x008) 7 0 per
      modTmk s fun t =>
        { t with period := per, held := true, okNo := true
                 dacc := if t.ticked then t.dacc else kget 0 t.daccPort p
                 tick := if t.ticked && (t.tick + 1 == no || t.tick == no) then t.tick else if t.ticked then no - 1 else no }
    else s

/-- The first good block of an exchange: the peer's revision and vector are judged (R100, R314). (Log 51 DEDUCED unsafe.) -/
def capsJudge (s : State) (p : Nat) (b : List Byte) : State :=
  let peer := (b.drop 4).take 16
  let ok := covers (ownVector s) (byteAt b 2) peer && covers peer fpRev (ownVector s)
  let s := modPort s p fun t => { t with peerOk := ok }
  if ok then s else quarantine (report s (64 + p) .versionUntested (trlStat p)) 1

/-- A port in CAPS repeats its block every 64 symbols, with ACK once two good blocks agree (R98, R101); `n` blocks have
been due since it entered the stage. -/
def capsRepeat (s : State) (p : Port) : State :=
  let t := portOf s p.val
  let n := (now s - t.since) * 5 / 512
  if t.stage == .caps && decide (t.capsN < n) then
    let ack := decide (2 ≤ t.capsGood)
    send (modPort s p.val fun t => { t with capsN := n }) (.caps p ack (capsBlock s p.val ack))
  else s

/-- A CAPS block is received (R98 to R101). -/
def capsIn (s : State) (p : Port) (b : List Byte) : State :=
  let t := portOf s p.val
  if !capsGoodBlock b || dirOf s p.val = 0 then s
  else if t.stage = .active then
    if capsCore b = capsCore t.capsFirst then peerStore s p.val b else retrain s p.val
  else if t.stage = .caps then
    let agree := t.capsGood ≠ 0 ∧ capsCore b = capsCore t.capsFirst
    let n := if t.capsGood ≠ 0 ∧ capsCore b = capsCore t.capsFirst then Nat.min 2 (t.capsGood + 1) else 1
    let s := modPort s p.val fun t =>
      { t with capsGood := n, capsFirst := if n = 1 then b else t.capsFirst, capsAck := t.capsAck || decide (128 ≤ byteAt b 1) }
    let s := capsTick (peerStore s p.val b) p.val b
    let s := if agree then s else capsJudge s p.val b
    cellPrecharge s
  else s

def execCapsBlockRx (p : Port) (block : List Byte) (s : State) : Out := .next (live s fun s => capsIn s p block)

/-- 1,024 symbols have been clean (R93). -/
def cleanLock (s : State) (t : PortSt) : Bool := decide (t.cleanFrom + symbols 1024 ≤ now s)

/-- ALIGN at the entry of a DOWN port to ACTIVE (R500). -/
def activeAlign (s : State) (p : Nat) : State := if dirOf s p = 3 then alignSend s p else s

/-- R93, R503: symbol lock held; to CAPS, or to ACTIVE at the end of a forwarded pass. -/
def execPortLockDone (p : Port) (s : State) : Out :=
  .next (live s fun s =>
    let t := portOf s p.val
    if t.stage == .lock && cleanLock s t then
      if t.fwdPass then
        alignSync (activeAlign (modPort s p.val fun t => { t with stage := .active, fwdPass := false, since := now s, lastTx := now s, quietFrom := now s, retries := 0 }) p.val)
      else
        let s := modPort s p.val fun t => { t with stage := .caps, since := now s, capsGood := 0, capsFirst := [], capsAck := false, capsN := 0 }
        send s (.caps p false (capsBlock s p.val false))
    else s)

/-- The end of a link that reports NEW_LINK (R131), once no walk of its own runs: the DOWN end, or on a PARTNER link the
end with the lower ID; side A before it has heard the ID of its peer. It reports where it holds an ID. (Log 52 DEDUCED unsafe.) -/
def newLinkEnd (s : State) (p : Nat) : Bool :=
  !s.trr.walk.running && s.trr.nodeId.any fun n =>
    dirOf s p == 3 || (dirOf s p == 4 && (match (portOf s p).peerId with | some m => decide (n.toNat < m.toNat) | none => !rb s (sysR 0x050) 30))

end Sys2Proof.Machine
end

