-- ==== Sys2Proof/Machine/Fabric.lean ====
section
/-! DEFINITION. The fabric's transport: entry of a port to ACTIVE, transmit order, credit, the C1 window, routing
and drops, a core's receive queue, tracked requests, and Cayennes. -/

namespace Sys2Proof.Machine

open Sys2Proof

/-- R101, R131, R135, R500: both ends have exchanged acknowledged blocks; the port enters ACTIVE with fresh
credit, sends one further block and its ALIGN, and NEW_LINK is reported at one end. (Log 47 DESIGN CHOICE unsafe.) -/
def portActive (s : State) (p : Port) : State :=
  let t := portOf s p.val
  if t.stage == .caps && decide (2 ≤ t.capsGood) && t.capsAck then
    let s := send s (.caps p true (capsBlock s p.val true))
    let s := modPort s p.val fun t =>
      { t with stage := .active, since := now s, retries := 0, crC2 := 8, crC3d := 32, crC3m := 32, lastTx := now s, quietFrom := now s, errs := [] }
    let s := activeAlign s p.val
    alignSync (if newLinkEnd s p.val then report s 97 .newLink (trrR 0x008) else s)
  else s

def execPortActive (p : Port) (s : State) : Out := .next (live s fun s => portActive s p)

/-- A C2 packet may start: its last flit leaves before the C1 window starts, and none starts within it (R134). -/
def c2Fits (s : State) (pk : Packet) : Bool :=
  if c1End s ≤ c1Start s then true
  else if phaseOf s < c1Start s then decide (phaseOf s + linkTime pk ≤ c1Start s)
  else if phaseOf s < c1End s then false
  else decide (phaseOf s + linkTime pk ≤ periodLt s + c1Start s)

/-- n C3 flits may start, one after the other: none of them within the C1 window (R479, R116). -/
def c3Fits (s : State) (n : Nat) : Bool :=
  if c1End s ≤ c1Start s then true
  else if phaseOf s < c1Start s then decide (phaseOf s + flitTime (n - 1) < c1Start s)
  else if phaseOf s < c1End s then false
  else decide (phaseOf s + flitTime (n - 1) < periodLt s + c1Start s)

/-- An armed injection inverts the CRC of the next packet of a port (R377). -/
def txBad (s : State) (p : Port) : Bool :=
  rb s (fltR 0x080) 31 && rf s (fltR 0x080) 27 24 == 11 && rf s (fltR 0x080) 11 9 == p.val

/-- A packet leaves on a port, from its first flit. -/
def txPacket (s : State) (p : Port) (pk : Packet) : State :=
  let bad := txBad s p
  send (whenB bad (fun s => unflag s (fltR 0x080) 0x80000000) s) (.packet p pk false (!bad) (packetLine pk 0 (!bad)))

/-- Weights of the two C3 queues (R132). -/
def dataW (s : State) : Nat := Nat.max 1 (rf s (trrR 0x018) 3 0)
def mgmtW (s : State) : Nat := Nat.max 1 (rf s (trrR 0x018) 7 4)

/-- The C3 packet a port starts next, by queue and ratio; turn counts packets of the present round, data first. -/
def c3Pick (s : State) (t : PortSt) : Option (Packet × Bool) :=
  let may (n : Nat) (d : Bool) (k : Packet) : Option (Packet × Bool) := if flits k ≤ n ∧ c3Fits s (flits k) = true then some (k, d) else none
  let d := t.q3d.head?.bind (may t.crC3d true)
  let m := t.q3m.head?.bind (may t.crC3m false)
  let dataFirst := decide (t.turn % (dataW s + mgmtW s) < dataW s)
  match d, m with
  | some a, some b => some (if dataFirst then a else b)
  | some a, none => some a
  | none, b => b

/-- The credit a packet needs and takes (R135): one C2 packet, or its flits of its C3 queue. -/
def hasCredit (t : PortSt) (pk : Packet) : Bool :=
  pk.cls == 1 || isCredit pk || (if pk.cls = 2 then decide (0 < t.crC2) else decide (flits pk ≤ if dataQueue pk then t.crC3d else t.crC3m))

def takeCredit (t : PortSt) (pk : Packet) : PortSt :=
  if pk.cls = 1 ∨ isCredit pk = true then t
  else if pk.cls = 2 then { t with crC2 := t.crC2 - 1 }
  else if dataQueue pk then { t with crC3d := t.crC3d - flits pk } else { t with crC3m := t.crC3m - flits pk }

/-- A packet of a class that is to be ended with K30.7 leaves, ahead of the others of its class (R122). -/
def txAbort (s : State) (p : Port) (cls at_ : Nat) : Option State :=
  let t := portOf s p.val
  (t.qx.find? fun k => k.cls.toNat == cls && hasCredit t k && (cls == 1 || (if cls = 2 then c2Fits s k else c3Fits s (flits k)))).map fun k =>
    modPort (send s (.aborted p k (abortLine k))) p.val fun t => takeCredit { t with qx := t.qx.erase k, lastTx := at_ + linkTime k } k

/-- The next C1 packet leaves from an instant on (R132). -/
def txC1 (s : State) (p : Port) (at_ : Nat) : Option State :=
  match txAbort s p 1 at_, (portOf s p.val).q1 with
  | some u, _ => some u
  | none, k :: r => some (modPort (txPacket s p k) p.val fun t => { t with q1 := r, lastTx := at_ + linkTime k })
  | none, [] => none

/-- A C1 packet cuts into the C3 packet under way at its next flit boundary, where flits of it are left (R133). -/
def txCut (s : State) (p : Port) : State :=
  let t := portOf s p.val
  match t.cut with
  | none => s
  | some c =>
    let left := (t.lastTx - now s) * 10 / 256
    if c.held || left == 0 then s
    else match txC1 s p (t.lastTx - flitTime left) with
      | some u => modPort u p.val fun t => { t with cut := some { c with held := true, gone := flits c.pk - left } }
      | none => s

/-- The rest of a C3 packet leaves, once no C1 packet waits, outside the C1 window (R133, R479). -/
def txResume (s : State) (p : Port) (c : Resume) : State :=
  let n := flits c.pk - c.gone
  if !c3Fits s n then s
  else modPort (send s (.packet p c.pk true c.good (packetLine c.pk c.gone c.good))) p.val fun t =>
    { t with cut := some { c with held := false }, lastTx := now s + flitTime n }

/-- The next C2 packet, or the next C3 packet by ratio, leaves (R132, R134, R135). A C2 packet that may start passes
an earlier one that is held: the model's choice. (Log 118 DESIGN CHOICE unsafe.) -/
def txNext (s : State) (p : Port) : State :=
  let t := portOf s p.val
  match txAbort s p 2 (now s), t.q2.find? fun k => hasCredit t k && c2Fits s k with
  | some u, _ => modPort u p.val fun t => { t with cut := none }
  | none, some k =>
    modPort (txPacket s p k) p.val fun t => takeCredit { t with q2 := t.q2.erase k, cut := none, lastTx := now s + linkTime k } k
  | none, none =>
    match txAbort s p 3 (now s), c3Pick s t with
    | some u, _ => modPort u p.val fun t => { t with cut := none }
    | none, some (k, data) =>
      modPort (txPacket s p k) p.val fun t =>
        takeCredit { t with q3d := if data then t.q3d.drop 1 else t.q3d, q3m := if data then t.q3m else t.q3m.drop 1
                            turn := (t.turn + 1) % (dataW s + mgmtW s)
                            cut := some ⟨k, data, 0, false, !txBad s p⟩, lastTx := now s + linkTime k } k
    | none, none => modPort s p.val fun t => { t with cut := none }

/-- A transmitter starts the next packet it may (R132 to R135, R479): C1 first, then the rest of a C3 packet that was
cut into, then C2 and C3; or it cuts a C3 packet for a C1 packet. -/
def txStart (s : State) (p : Port) : State :=
  let t := portOf s p.val
  if !isActive s p.val then s
  else if t.idleTx then idleExit s p
  else if now s < t.idleTill then s
  else if now s < t.lastTx then txCut s p
  else match txC1 s p (now s), t.cut with
    | some u, some c => modPort u p.val fun t => { t with cut := if c.held then some c else none }
    | some u, none => u
    | none, some c => if c.held then txResume s p c else txNext s p
    | none, none => txNext s p

/-- Every port, in order, through an operation. -/
def allPorts (s : State) (f : State → Port → State) : State :=
  (List.range 6).foldl (fun s p => if h : p < 6 then f s ⟨p, h⟩ else s) s

/-- R479: 200 ns before the window idle ports start their exit. -/
def execC1WindowStart (s : State) : Out :=
  .next (live s fun s =>
    let st := c1Start s
    let near := (decide (st ≤ phaseOf s + 100) && decide (phaseOf s < c1End s)) || decide (periodLt s + st ≤ phaseOf s + 100)
    if decide (st < c1End s) && near then allPorts s idleExit else s)

/-- R134: the window has ended; held C2 packets start at the first packet boundary. -/
def execC1WindowEnd (s : State) : Out :=
  .next (live s fun s =>
    if c1End s ≤ phaseOf s then allPorts s fun s p => if (portOf s p.val).q2.isEmpty then s else txStart s p else s)

/-- R135: credit returns. -/
def execCreditRx (p : Port) (c2 c3d c3m : BitVec 16) (s : State) : Out :=
  .next (live s fun s =>
    if isActive s p.val then
      modPort s p.val fun t => { t with crC2 := t.crC2 + c2.toNat, crC3d := t.crC3d + c3d.toNat, crC3m := t.crC3m + c3m.toNat }
    else s)

/-- Log 49 DEDUCED unsafe. (Log 49 DEDUCED unsafe.) -/
def countAbort (s : State) : State := countUp s (trrR 0x030) 15 0

/-- An ERR_CPL for a request (R125, R113, R136). -/
def errCpl (s : State) (pk : Packet) (status : Nat) : Packet :=
  { ownPacket s pk.src (epOf pk.dest) 0x05 pk.cls.toNat pk.seq [wd status] with src := pk.dest }

/-- WR_REQ and RD_REQ. -/
def isRequest (pk : Packet) : Bool := pk.typ == 0x01 || pk.typ == 0x02

/-- The way out of a packet (R111, R123, R124): from an UP or PARTNER port only to DOWN ports. -/
def outPort (s : State) (src : Option Nat) (d : Nat) : Option Nat :=
  let fromAbove := src.any fun p => dirOf s p != 3
  let r := ((List.range 6).foldl (fun (best : Option (Nat × Nat)) p =>
    if isActive s p && (dirOf s p == 3 || (!fromAbove && dirOf s p == 4)) then
      match rangeRank s d p, best with
      | some r, some (b, q) => if r < b then some (r, p) else some (b, q)
      | some r, none => some (r, p)
      | none, b => b
    else best) none).map (·.2)
  match r with
  | some p => some p
  | none => if fromAbove then none else upRoute s

/-- A packet of the part's own leaves toward its destination; false where it has none. -/
def sendPacket (s : State) (pk : Packet) : State × Bool :=
  match outPort s none (nodeOf pk.dest) with
  | some p => (enqueue s p pk (dataQueue pk), true)
  | none => (noRoute s none, false)

/-- The same, whatever becomes of it. -/
def emit (s : State) (pk : Packet) : State := (sendPacket s pk).1

/-- A packet that is not the part's own passes through (R122 to R125); an aborted or damaged one is ended with
K30.7 at its output. -/
def forward (s : State) (src : Option Nat) (pk : Packet) (arr : Arrival) : State :=
  match outPort s src (nodeOf pk.dest) with
  | some p =>
    if arr = .good then enqueue s p pk (dataQueue pk)
    else modPort s p fun t => { t with qx := t.qx ++ [pk] }
  | none =>
    let only := onlyDiscards s src
    let s := noRoute s src
    if arr = .good ∧ isRequest pk = true ∧ only = false then
      let c := errCpl s pk 2
      match outPort s none (nodeOf c.dest) with
      | some p => enqueue s p c false
      | none => s
    else s

/-- The packets held on links that have left ACTIVE (R103, R111): those that were on their way up take the other
up-port, or are dropped as R111 and R123 give; the rest are dropped as NO_ROUTE (R126). -/
def orphansRoute (s : State) : State :=
  s.trr.orphans.foldl (fun s e =>
    if dirOf s e.1 == 1 || dirOf s e.1 == 2 then forward s none e.2 .good
    else
      let s := noRoute s (some e.1)
      if isRequest e.2 then (match outPort s none (nodeOf e.2.src) with | some p => enqueue s p (errCpl s e.2 2) false | none => s) else s)
    (modTrr s fun t => { t with orphans := [] })

/-- TRR_CPL_TIMEOUT in units of LT (R136). -/
def cplTimeout (s : State) : Nat := us (Nat.max 1 (rf s (trrR 0x01C) 15 0))

/-- A request the router tracks is answered, or not tracked any more: it leaves the list (R136). (Log 50 DEDUCED unsafe.) -/
def untrack (s : State) (ep : Fin 3) (seq : BitVec 8) : State × Bool :=
  match s.trr.reqs.find? fun r => r.ep == ep && r.seq == seq with
  | some r => (modTrr s fun t => { t with reqs := t.reqs.erase r }, true)
  | none => (s, false)

/-- A Cayenne is launched by firmware or the host (R137). -/
def cayCtrlWrite (s : State) (o : Origin) (val : Word) : State :=
  let s := genWrite s o (trrR 0x020) val
  if bitOf val 31 then cayLaunch s (scopeOf (fld val 9 8)) else s

def execCayLaunchWrite (o : Origin) (val : Word) (s : State) : Out :=
  .next (live s fun s => cayCtrlWrite s o (setBit val 31 true))

/-- A Cayenne is received (R138, R139, R140, R142): applied where Table 4-8 applies it, and forwarded unless the
hold of the same or a wider scope absorbs it; a copy leaves within 28 ns. (Log 54 DEDUCED unsafe.) -/
def cayReceive (s : State) (ports scope hops at_ : Nat) : State :=
  let arr := (List.range 6).filter fun p => ports.testBit p && isLive s p
  if arr.isEmpty then s
  else
    let sc := scopeOf scope
    let held := s.trr.hold.any fun e => decide (sc.toNat ≤ e.1) && e.2.any (decide <| now s < ·)
    let s := match cayPorts s sc with
      | some ps =>
        if held then s
        else caySend s (ps.filter fun p => !arr.contains p) sc (Nat.min 63 (hops + 1)) fun p =>
          at_ + Config.cayLatency (arr.headD 0) p % 28001
      | none => s
    if cayApplies s sc then cayApply s sc false hops (arr.foldl (fun n p => n + 2 ^ p) 0) at_ else s

def execCayenneRx (ports : BitVec 6) (scope : BitVec 2) (hops : BitVec 6) (at_ps : Nat) (s : State) : Out :=
  .next (live s fun s => cayReceive s ports.toNat scope.toNat hops.toNat at_ps)

/-- R139: the absorption holds that are over end. -/
def execCayHoldExpiry (s : State) : Out :=
  .next (live s fun s => modTrr s fun t => { t with hold := t.hold.filter fun e => e.2.any (decide <| now s < ·) })

/-- R142: 1 to SEEN clears the record, TRR_CAY_LT with it: the model's choice. (Log 119 DESIGN CHOICE unsafe.) -/
def cayStatWrite (s : State) (val : Word) : State :=
  if bitOf val 31 && !s.hwSet.any (fun e => e.1 == trrR 0x024) then setReg (setReg s (trrR 0x024) 0) (trrR 0x028) 0 else s

def execCayStatClear (_ : Origin) (val : Word) (s : State) : Out := .next (live s fun s => cayStatWrite s val)

end Sys2Proof.Machine
end

