-- ==== Sys2Proof/Machine/Flags.lean ====
section
/-! DEFINITION. Arithmetic with its flags: fp32 as R243 and R273 compute it, the conversions of R274, the
saturating integer operations of R272, the conditions of the compares, and the interpolating lookup of R295.
Flags are numbers with the bits of FPSR: NX 1, UF 2, OF 4, DZ 8, NV 16, OV 32, IDZ 64, LC 128. -/

namespace Sys2Proof.Machine

open Sys2Proof

/-- A result and the FPSR bits it sets. -/
abbrev FRes := Word × Nat

/-- An fp32 operand as R243 reads it: a subnormal is a zero of its sign; a finite value is m * 2^e. -/
inductive Fp where
  | nan (signalling : Bool)
  | inf (neg : Bool)
  | num (neg : Bool) (m : Nat) (e : Int)
  deriving DecidableEq, Repr

/-- The one NaN result. -/
def fpNan : Word := 0x7FC00000

/-- A word as an fp32 operand. -/
def fpOf (w : Word) : Fp :=
  let s := bitOf w 31
  let x := fld w 30 23
  let f := fld w 22 0
  if x = 255 then (if f = 0 then .inf s else .nan (!bitOf w 22))
  else if x = 0 then .num s 0 0
  else .num s (8388608 + f) ((x : Int) - 150)

/-- Zero and infinity of a sign. -/
def fpZero (neg : Bool) : Word := if neg then 0x80000000 else 0
def fpInf (neg : Bool) : Word := if neg then 0xFF800000 else 0x7F800000

/-- The rounding of R243 of a nonzero m * 2^e: to 24 bits, ties to even, then overflow and the flush to zero. -/
def fpRound (neg : Bool) (m : Nat) (e : Int) : FRes :=
  let n := Nat.log2 m + 1
  let sh := n - 24
  let q := if n ≤ 24 then m * 2 ^ (24 - n) else m / 2 ^ sh
  let r := if n ≤ 24 then 0 else m % 2 ^ sh
  let ex : Int := e + (n : Int) - 24
  let up := decide (2 ^ sh < 2 * r) || (decide (2 * r = 2 ^ sh) && decide (r ≠ 0) && q % 2 == 1)
  let g := q + b2n up
  let sig := if g = 16777216 then 8388608 else g
  let ex := if g = 16777216 then ex + 1 else ex
  if 104 < ex then (fpInf neg, 5)
  else if ex < -149 then (fpZero neg, 3)
  else (BitVec.ofNat 32 (b2n neg * 2147483648 + (ex + 150).toNat * 8388608 + (sig - 8388608)), if r = 0 then 0 else 1)

/-- NaN operands: the result and NV for a signalling one. -/
def fpNans (l : List Fp) : Option FRes :=
  if l.any fun x => match x with | .nan _ => true | _ => false then
    some (fpNan, if l.contains (.nan true) then 16 else 0)
  else none

/-- An exact sum of two finite values, rounded once; an exact zero is +0 unless both are zeros of one sign. -/
def fpSum (n1 : Bool) (m1 : Nat) (e1 : Int) (n2 : Bool) (m2 : Nat) (e2 : Int) : FRes :=
  if m1 = 0 ∧ m2 = 0 then (fpZero (n1 && n2), 0)
  else
    let e := if m1 = 0 then e2 else if m2 = 0 then e1 else min e1 e2
    let v (n : Bool) (m : Nat) (x : Int) : Int :=
      let k : Int := if m = 0 then 0 else (m * 2 ^ (x - e).toNat : Nat)
      if n then -k else k
    let t := v n1 m1 e1 + v n2 m2 e2
    if t = 0 then (0, 0) else fpRound (decide (t < 0)) t.natAbs e

def fpAdd (a b : Word) : FRes :=
  match fpNans [fpOf a, fpOf b] with
  | some r => r
  | none =>
    match fpOf a, fpOf b with
    | .inf x, .inf y => if x = y then (fpInf x, 0) else (fpNan, 16)
    | .inf x, _ => (fpInf x, 0)
    | _, .inf y => (fpInf y, 0)
    | .num n1 m1 e1, .num n2 m2 e2 => fpSum n1 m1 e1 n2 m2 e2
    | _, _ => (fpNan, 0)

/-- The sign bit inverted. -/
def fpNeg (a : Word) : Word := a ^^^ 0x80000000

/-- The sign bit cleared. -/
def fpAbs (a : Word) : Word := a &&& 0x7FFFFFFF

/-- Log 89 DEDUCED safe. (Log 89 DEDUCED safe.) -/
def fpSub (a b : Word) : FRes :=
  match fpNans [fpOf a, fpOf b] with
  | some r => r
  | none => fpAdd a (fpNeg b)

/-- Log 89 DEDUCED safe. (Log 89 DEDUCED safe.) -/
def fpMul (a b : Word) : FRes :=
  match fpNans [fpOf a, fpOf b] with
  | some r => r
  | none =>
    match fpOf a, fpOf b with
    | .inf x, .inf y => (fpInf (x != y), 0)
    | .inf x, .num y m _ => if m = 0 then (fpNan, 16) else (fpInf (x != y), 0)
    | .num x m _, .inf y => if m = 0 then (fpNan, 16) else (fpInf (x != y), 0)
    | .num n1 m1 e1, .num n2 m2 e2 =>
      if m1 = 0 ∨ m2 = 0 then (fpZero (n1 != n2), 0) else fpRound (n1 != n2) (m1 * m2) (e1 + e2)
    | _, _ => (fpNan, 0)

def fpDiv (a b : Word) : FRes :=
  match fpNans [fpOf a, fpOf b] with
  | some r => r
  | none =>
    match fpOf a, fpOf b with
    | .inf _, .inf _ => (fpNan, 16)
    | .inf x, .num y _ _ => (fpInf (x != y), 0)
    | .num x _ _, .inf y => (fpZero (x != y), 0)
    | .num n1 m1 e1, .num n2 m2 e2 =>
      if m2 = 0 then (if m1 = 0 then (fpNan, 16) else (fpInf (n1 != n2), 8))
      else if m1 = 0 then (fpZero (n1 != n2), 0)
      else
        let k := m1 * 2 ^ 30
        fpRound (n1 != n2) (2 * (k / m2) + b2n (decide (k % m2 ≠ 0))) (e1 - e2 - 31)
    | _, _ => (fpNan, 0)

/-- The integer square root of n below 2^(2 * i), bit by bit from r. -/
def isqrt : Nat → Nat → Nat → Nat
  | 0, _, r => r
  | i + 1, n, r => isqrt i n (if (r + 2 ^ i) * (r + 2 ^ i) ≤ n then r + 2 ^ i else r)

def fpSqrt (a : Word) : FRes :=
  match fpOf a with
  | .nan s => (fpNan, if s then 16 else 0)
  | .inf n => if n then (fpNan, 16) else (fpInf false, 0)
  | .num n m e =>
    if m = 0 then (fpZero n, 0)
    else if n then (fpNan, 16)
    else
      let k : Nat := if e % 2 = 0 then 30 else 31
      let v := m * 2 ^ k
      let r := isqrt 32 v 0
      fpRound false (2 * r + b2n (decide (r * r ≠ v))) ((e - k) / 2 - 1)

/-- c + a * b with one rounding. For 0 * infinity + NaN IEEE 754 leaves NV to the implementation. (Log 88 DEDUCED unsafe.) -/
def fpFma (a b c : Word) : FRes :=
  let zi := match fpOf a, fpOf b with
    | .inf _, .num _ m _ => m == 0
    | .num _ m _, .inf _ => m == 0
    | _, _ => false
  match fpNans [fpOf a, fpOf b, fpOf c] with
  | some r => if zi && r.2 == 0 then (fpNan, if Config.fmaNv 0 then 16 else 0) else r
  | none =>
    if zi then (fpNan, 16)
    else
      match fpOf a, fpOf b, fpOf c with
      | .num n1 m1 e1, .num n2 m2 e2, .num n3 m3 e3 => fpSum (n1 != n2) (m1 * m2) (e1 + e2) n3 m3 e3
      | .num _ _ _, .num _ _ _, .inf z => (fpInf z, 0)
      | _, _, .inf z => if (bitOf a 31 != bitOf b 31) = z then (fpInf z, 0) else (fpNan, 16)
      | _, _, _ => (fpInf (bitOf a 31 != bitOf b 31), 0)

/-- c - a * b with one rounding; a NaN keeps no sign. -/
def fpFms (a b c : Word) : FRes := fpFma (if (fpNans [fpOf a]).isSome then a else fpNeg a) b c

/-- An integer to fp32. -/
def fpOfInt (i : Int) : FRes := if i = 0 then (0, 0) else fpRound (decide (i < 0)) i.natAbs 0

/-- A comparison of two operands that are not NaN: -1, 0 or 1. -/
def fpCmp (a b : Word) : Int :=
  match fpOf a, fpOf b with
  | .inf x, .inf y => if x = y then 0 else if x then -1 else 1
  | .inf x, _ => if x then -1 else 1
  | _, .inf y => if y then 1 else -1
  | .num n1 m1 e1, .num n2 m2 e2 =>
    let e := min e1 e2
    let v (n : Bool) (m : Nat) (x : Int) : Int :=
      let k : Int := (m * 2 ^ (x - e).toNat : Nat)
      if n then -k else k
    let d := if m1 = 0 then - v n2 m2 e else if m2 = 0 then v n1 m1 e1 else v n1 m1 e1 - v n2 m2 e2
    if d < 0 then -1 else if d = 0 then 0 else 1
  | _, _ => 0

def fpIsNan (a : Word) : Bool := (fpNans [fpOf a]).isSome

/-- NaN or infinite. -/
def fpBad (a : Word) : Bool := fld a 30 23 == 255

/-- An operand with a subnormal flushed to zero. -/
def fpFlush (a : Word) : Word := if fld a 30 23 = 0 then a &&& 0x80000000 else a

/-- FMIN and FMAX (R273): the other operand of a NaN; -0.0 below +0.0. (Log 88 DEDUCED unsafe.) -/
def fpPick (max : Bool) (a b : Word) : FRes :=
  let nv := if fpOf a = .nan true ∨ fpOf b = .nan true then 16 else 0
  if fpIsNan a && fpIsNan b then (fpNan, nv)
  else if fpIsNan a then (fpFlush b, nv)
  else if fpIsNan b then (fpFlush a, nv)
  else
    let c := fpCmp a b
    let aLow := if c = 0 then bitOf a 31 else decide (c < 0)
    (fpFlush (if aLow != max then a else b), 0)

def fpMin (a b : Word) : FRes := fpPick false a b
def fpMax (a b : Word) : FRes := fpPick true a b

/-- min(max(v, lo), hi). -/
def fpClamp (lo hi v : Word) : Word := (fpMin (fpMax v lo).1 hi).1

/-- The rounding modes of FTOI. -/
inductive FMode where
  | near | zero | floor | ceil
  deriving DecidableEq, Repr

/-- m * 2^e as an integer under a mode, and whether it was inexact. -/
def fpInt (k : FMode) (neg : Bool) (m : Nat) (e : Int) : Int × Bool :=
  if 0 ≤ e then
    let v : Int := (m * 2 ^ e.toNat : Nat)
    (if neg then -v else v, false)
  else
    let d := 2 ^ (-e).toNat
    let q := m / d
    let r := m % d
    let up := match k with
      | .near => decide (d < 2 * r) || (decide (d = 2 * r) && q % 2 == 1)
      | .zero => false
      | .floor => neg && r != 0
      | .ceil => !neg && r != 0
    let v : Int := (q + b2n up : Nat)
    (if neg then -v else v, r != 0)

/-- fp32 to a signed integer (R274). (Log 89 DEDUCED safe.) -/
def fpToInt (k : FMode) (a : Word) : FRes :=
  match fpOf a with
  | .nan _ => (0, 16)
  | .inf n => (if n then 0x80000000 else 0x7FFFFFFF, 16)
  | .num n m e =>
    if 31 < e then (if n then 0x80000000 else 0x7FFFFFFF, 16)
    else
      let r := fpInt k n m e
      if 2147483647 < r.1 then (0x7FFFFFFF, 16)
      else if r.1 < -2147483648 then (0x80000000, 16)
      else (wdI r.1, b2n r.2)

/-- The conditions of FCMP (R275 text): none for a code it does not list. An ordered condition on a NaN signals. (Log 88 DEDUCED unsafe.) -/
def fpCond (c : Nat) (a b : Word) : Option (Bool × Nat) :=
  let un := fpIsNan a || fpIsNan b
  let sig := if fpOf a = .nan true ∨ fpOf b = .nan true then 16 else 0
  let ord := if un then 16 else 0
  let d := fpCmp a b
  match c with
  | 0 => some (!un && d == 0, sig)
  | 1 => some (un || d != 0, sig)
  | 2 => some (!un && decide (d < 0), ord)
  | 3 => some (!un && decide (0 ≤ d), ord)
  | 6 => some (!un && decide (0 < d), ord)
  | 7 => some (!un && decide (d ≤ 0), ord)
  | 12 => some (un, sig)
  | _ => none

/-- The conditions of CMP and CMPI; none for a code they do not list. -/
def intCond (c : Nat) (a b : Word) : Option Bool :=
  match c with
  | 0 => some (a == b)
  | 1 => some (a != b)
  | 2 => some (decide (a.toInt < b.toInt))
  | 3 => some (decide (b.toInt ≤ a.toInt))
  | 4 => some (decide (a.toNat < b.toNat))
  | 5 => some (decide (b.toNat ≤ a.toNat))
  | 6 => some (decide (b.toInt < a.toInt))
  | 7 => some (decide (a.toInt ≤ b.toInt))
  | 8 => some (decide (b.toNat < a.toNat))
  | 9 => some (decide (a.toNat ≤ b.toNat))
  | 10 => some (a &&& b != 0)
  | _ => none

/-- The combinations of PLOG. -/
def plogCond (c : Nat) (a b : Bool) : Option Bool :=
  match c with
  | 0 => some (a && b)
  | 1 => some (a || b)
  | 2 => some (a != b)
  | 3 => some (a && !b)
  | _ => none

/-- An integer saturated to 32 bits, with OV. -/
def satW (i : Int) : FRes :=
  let c := clampI (-2147483648) 2147483647 i
  (wdI c, if c = i then 0 else 32)

/-- DIV, DIVU, REM, REMU (R272). -/
def divS (a b : Word) : FRes :=
  if b = 0 then (if 0 ≤ a.toInt then 0x7FFFFFFF else 0x80000000, 64)
  else if a = 0x80000000 ∧ b = 0xFFFFFFFF then (0x7FFFFFFF, 32)
  else (wdI (a.toInt.tdiv b.toInt), 0)

def divU (a b : Word) : FRes := if b = 0 then (0xFFFFFFFF, 64) else (wd (a.toNat / b.toNat), 0)

def remS (a b : Word) : FRes :=
  if b = 0 then (a, 64) else if a = 0x80000000 ∧ b = 0xFFFFFFFF then (0, 32) else (wdI (a.toInt.tmod b.toInt), 0)

def remU (a b : Word) : FRes := if b = 0 then (a, 64) else (wd (a.toNat % b.toNat), 0)

/-- MULQ15 and MULQ31 (R272). -/
def mulQ15 (a b : Word) : FRes :=
  let p := (sext 16 a.toNat * sext 16 b.toNat + 16384).fdiv 32768
  let c := clampI (-32768) 32767 p
  (wdI c, if c = p then 0 else 32)

def mulQ31 (a b : Word) : FRes := satW ((a.toInt * b.toInt + 1073741824).fdiv 2147483648)

/-- Leading zeros. -/
def clzN (a : Word) : Nat := if a = 0 then 32 else 31 - Nat.log2 a.toNat

/-- Flags of two steps. -/
def orF (a b : Nat) : Nat := Nat.lor a b

/-- The interpolating lookup of R295: X0, INVSTEP, N, the entries and x. -/
def lutEval (x0 inv : Word) (n : Nat) (y : Nat → Word) (x : Word) : FRes :=
  if fpIsNan x then (fpNan, 16)
  else
    let d := fpSub x x0
    let t := fpMul d.1 inv
    let fl := orF d.2 t.2
    if fpIsNan t.1 then (fpNan, orF fl 16)
    else if fpCmp t.1 0 ≤ 0 then (y 0, orF fl 128)
    else if 0 ≤ fpCmp t.1 (fpOfInt (n - 1 : Nat)).1 then (y (n - 1), orF fl 128)
    else
      let i := (fpToInt .floor t.1).1.toNat
      let fr := (fpSub t.1 (fpOfInt i).1).1
      let s := fpSub (y (i + 1)) (y i)
      let r := fpFma fr s.1 (y i)
      (r.1, orF (orF fl s.2) r.2)

end Sys2Proof.Machine
end

