-- ==== Sys2Proof/Machine/Guard.lean ====
section
/-! DEFINITION. The switch guard: gate commands with interlock and dead time, feedback, desaturation and
hard-short detection, under-voltage lock-out, and the end of the protective turn-off. -/

namespace Sys2Proof.Machine

open Sys2Proof

def swgCfg (m : Nat) : Nat := swgR (0x100 + 0x10 * m)
def swgTh (m : Nat) : Nat := swgR (0x104 + 0x10 * m)
def swgStat (m : Nat) : Nat := swgR (0x108 + 0x10 * m)

def chOn (s : State) (m : Nat) : Bool := rb s (swgCfg m) 31

/-- A bit of a set of eight channels. -/
def has8 (b : BitVec 8) (m : Nat) : Bool := b.toNat.testBit m

def set8 (b : BitVec 8) (m : Nat) (v : Bool) : BitVec 8 := if v then b ||| (1#8 <<< m) else b &&& ~~~ (1#8 <<< m)

/-- DEADT of a leg in units of LT. -/
def deadT (s : State) (l : Nat) : Nat := Nat.max 100 (rf s (swgR (0x010 + 4 * l)) 11 0)

/-- SOFT_HOLD in units of LT. -/
def softHold (s : State) : Nat := Nat.max 50 (rf s (swgR 0x000) 31 16)

/-- The other channel of a leg. -/
def partnerCh (m : Nat) : Nat := if m % 2 = 0 then m + 1 else m - 1

/-- Channel types of the cell: the number of channels Table 6-1 uses. -/
def gfbOf (s : State) (m : Nat) (pin : Bool) : Bool := pin != rb s (swgCfg m) 29

/-- A channel's GCMD falls on command; its feedback is judged at FB_TMO (R196). -/
def chFall (s : State) (m : Nat) : State := modSwg s fun g => gcmdFall g (now s) (fbTmo s) m

/-- DEADT of a channel's leg has elapsed since a channel's GCMD last went low. -/
def deadDone (s : State) (m c : Nat) : Bool := decide (kget 0 s.swg.offLt c = 0 ∨ kget 0 s.swg.offLt c + deadT s (m / 2) ≤ now s)

/-- A channel's GCMD may rise (R190, R194, R195, R208): it is ARMED and enabled and without OFF_FAIL, no turn-off sequence
runs, DEADT has elapsed since the partner's fall, or its own where its partner's waiting turn-on was cancelled, and the
partner's feedback reads off. -/
def mayRiseCh (s : State) (m : Nat) : Bool :=
  let g := s.swg
  let p := partnerCh m
  chOn s m && !rb s (swgStat m) 5 && has8 g.armed m && !g.softoff && g.seqAt.isNone && !has8 g.gcmd p && !g.shoot.toNat.testBit (m / 2) &&
    deadDone s m p && (!has8 g.own m || deadDone s m m) && !has8 g.gfb p

def chRise (s : State) (m : Nat) : State :=
  if has8 s.swg.gcmd m then modSwg s fun g => { g with waitOn := set8 g.waitOn m false }
  else
    modSwg s fun g =>
      { g with gcmd := set8 g.gcmd m true, waitOn := set8 g.waitOn m false, onTick := set8 g.onTick m true
               onLt := kput 0 g.onLt m (now s), desat := set8 g.desat m false, hs := set8 g.hs m (has8 g.gfb m)
               own := set8 (set8 g.own m false) (partnerCh m) false
               fbDue := kput none g.fbDue m (some (now s + fbTmo s)) }

/-- One leg follows the switches a command asks for (R193 to R195); a turn-off that cancels a waiting turn-on makes the
partner's next one count from its own last turn-off. -/
def legSet (s : State) (l : Nat) (up lo : Bool) : State :=
  let a := 2 * l
  let b := 2 * l + 1
  if up && lo then
    let s := chFall (chFall s a) b
    let first := !s.swg.shoot.toNat.testBit l
    let s := modSwg s fun g => { g with shoot := g.shoot ||| BitVec.ofNat 4 (2 ^ l), waitOn := set8 (set8 g.waitOn a false) b false
                                        want := set8 (set8 g.want a true) b true }
    if first then
      let s := report (flag s (swgStat a) 0x10) (160 + a) .shootCmd (swgStat a)
      report (flag s (swgStat b) 0x10) (160 + b) .shootCmd (swgStat b)
    else s
  else
    let s := modSwg s fun g =>
      { g with shoot := g.shoot &&& ~~~ BitVec.ofNat 4 (2 ^ l), want := set8 (set8 g.want a up) b lo
               waitOn := set8 (set8 g.waitOn a up) b lo
               own := set8 (set8 g.own b (has8 g.own b || (has8 g.waitOn a && !up))) a (has8 g.own a || (has8 g.waitOn b && !lo)) }
    let s := if up then s else chFall s a
    let s := if lo then s else chFall s b
    let s := if up && mayRiseCh s a then chRise s a else s
    if lo && mayRiseCh s b then chRise s b else s

/-- R194: DEADT of the leg has elapsed and the partner reads off. -/
def execDeadtimeTurnOn (m : Fin 8) (s : State) : Out :=
  .next (live s fun s => if has8 s.swg.waitOn m && has8 s.swg.want m && mayRiseCh s m then chRise s m else s)

/-- A detection on a channel: its flag, its message, the turn-off and the request (R197, R198, R196, R200). (Log 67 DEDUCED safe.) -/
def detect (s : State) (m : Nat) (bit : Nat) (k : Kind) : State :=
  guardTrip (report (flag s (swgStat m) bit) (160 + m) k (swgStat m)) (160 + m)

/-- GFB of a channel is read; an on-reading while GCMD is high activates the hard-short comparator (R198). -/
def gfbSet (s : State) (m : Nat) (v : Bool) : State :=
  modSwg s fun g => { g with gfb := set8 g.gfb m v, hs := if v && has8 g.gcmd m then set8 g.hs m true else g.hs }

/-- R196: the end of FB_TMO. -/
def execFbCheck (m : Fin 8) (pin : Bool) (s : State) : Out :=
  .next (live s fun s =>
    if !chOn s m then s
    else
      let v := gfbOf s m pin
      let s := gfbSet s m v
      match kget none s.swg.fbDue m with
      | some t =>
        if t ≤ now s then
          let s := modSwg s fun g => { g with fbDue := kput none g.fbDue m none }
          if v = has8 s.swg.gcmd m then s else detect s m 8 .fbFault
        else s
      | none => s)

/-- R196, R198: GFB changes. Within FB_TMO it may; the first on-reading after a rise activates the hard-short
comparator; with GCMD steady a change is a fault. A fall made by the turn-off is judged by R208 alone, until its check
has passed. -/
def execGfbChange (m : Fin 8) (pin : Bool) (s : State) : Out :=
  .next (live s fun s =>
    if !chOn s m then s
    else
      let v := gfbOf s m pin
      if v = has8 s.swg.gfb m then s
      else
        let s := gfbSet s m v
        if (kget none s.swg.fbDue m).isSome || has8 s.swg.mute m || rb s (swgStat m) 5 then s
        else detect s m 8 .fbFault)

/-- BLANK of a channel, clamped, in units of LT. -/
def blank (s : State) (m : Nat) : Nat := clampN 250 4000 (rf s (swgCfg m) 23 12)

/-- R197: BLANK after the rising edge the desaturation comparator becomes active. -/
def execDesatBlankEnd (m : Fin 8) (s : State) : Out :=
  .next (live s fun s =>
    if has8 s.swg.gcmd m && decide (kget 0 s.swg.onLt m + blank s m ≤ now s) then
      modSwg s fun g => { g with desat := set8 g.desat m true }
    else s)

/-- A comparator's channel is on, or was until the drop of the turn-off within 4 ns of the detection (Table 7-2, R200). -/
def compOn (s : State) (m : Nat) : Bool := chOn s m && (has8 s.swg.gcmd m || decide (now s ≤ kget 0 s.swg.offLt m + 2))

def execDesatDetect (m : Fin 8) (s : State) : Out :=
  .next (live s fun s => if compOn s m && has8 s.swg.desat m then detect s m 1 .desat else s)

def execHardShortDetect (m : Fin 8) (s : State) : Out :=
  .next (live s fun s => if compOn s m && has8 s.swg.hs m then detect s m 2 .hardShort else s)

/-- R206: SOFT_HOLD after the origin SOFTOFF is released; the sequence ends once R208's check is done too. -/
def execSoftoffRelease (s : State) : Out :=
  .next (live s fun s =>
    match s.swg.seqAt with
    | some t =>
      if t + softHold s ≤ now s then
        modSwg s fun g => { g with softoff := false, seqAt := if g.offChk then g.seqAt else none }
      else s
    | none => s)

/-- R208: every enabled GFB is checked for off. -/
def execOffCheck (pins : BitVec 8) (s : State) : Out :=
  .next (live s fun s =>
    match s.swg.seqAt with
    | some t =>
      if s.swg.offChk && decide (t + softHold s + fbTmo s ≤ now s) then
        let s := modSwg s fun g => { g with offChk := false, mute := 0, seqAt := if g.softoff then g.seqAt else none }
        (List.range 8).foldl (fun s m =>
          if !chOn s m then s
          else
            let v := gfbOf s m (has8 pins m)
            let s := gfbSet s m v
            if v then bypassAsk (report (flag s (swgStat m) 0x20) (160 + m) .offFail (swgStat m)) else s) s
      else s
    | none => s)

/-- R201: a gate supply has stayed above UV_TH + UV_HYS for 10 µs; in the CELL role not before stage 3 (R445). -/
def execUvArm (m : Fin 8) (s : State) : Out :=
  .next (live s fun s =>
    if chOn s m && (s.sup.stage.toNat.testBit 3) then modSwg s fun g => { g with armed := set8 g.armed m true } else s)

/-- R203, R204: an ARMED supply has been below UV_TH for UV_FILT. -/
def execUvTrip (m : Fin 8) (s : State) : Out :=
  .next (live s fun s =>
    if !has8 s.swg.armed m then s
    else if running s then
      let s := report (flag s (swgStat m) 4) (160 + m) .uvTrip (swgStat m)
      let s := modSwg (turnOff s) fun g => { g with armed := set8 g.armed m false }
      cayLaunch (enterSafe s 16 (some (160 + m))) 0
    else
      let s := modSwg s fun g => { g with armed := set8 g.armed m false }
      let s := chFall s m
      report s (160 + m) .uvWarn (swgStat m))

end Sys2Proof.Machine
end

