-- ==== Sys2Proof/Machine/Sense.lean ====
section
/-! DEFINITION. The sense front end: the tick group, the scan and scaling of the SAR converter, its stuck
detection, the sigma-delta channels, the pulse input, and the latch at a tick application. -/

namespace Sys2Proof.Machine

open Sys2Proof

def snsCfgR (c : Nat) : Nat := snsR (0x100 + 0x10 * c)
def snsRes (c : Nat) : Nat := snsR (0x108 + 0x10 * c)
def snsSnap (c : Nat) : Nat := snsR (0x10C + 0x10 * c)
def sdCfg (n : Nat) : Nat := snsR (0x400 + 0x10 * n)
def sdRes (n : Nat) : Nat := snsR (0x404 + 0x10 * n)

/-- The snapshot VALUE of a SAR channel. -/
def snapOf (s : State) (c : Nat) : Nat := rf s (snsSnap c) 15 0

/-- The expected instant of the next tick, in units of LT: that of R65, or before the first tick the next multiple of
10 µs (R221). -/
def expectedLt (s : State) : Nat :=
  if s.tmk.ticked then expectPs s / 2000 else (now s / us 10 + 1) * us 10

/-- The valid tick-group entries, in order, as (entry, channel). -/
def tgEntries (s : State) : List (Nat × Nat) :=
  ((List.range 16).filter fun n => rb s (snsR (0x040 + 4 * n)) 31).map fun n => (n, rf s (snsR (0x040 + 4 * n)) 4 0)

/-- The check of R220. -/
def tgCheck (s : State) : Bool :=
  let l := tgEntries s
  let lead := rf s (snsR 0x010) 14 0
  decide (100 * l.length + 10 ≤ lead) && decide (lead + 500 ≤ periodLt s) && l.all fun e => decide (e.2 ≤ 16)

/-- A channel is in the tick group. -/
def inTg (s : State) (c : Nat) : Bool := (tgEntries s).any (·.2 == c)

/-- What a cell's table set must meet (R220): the check, channels 0 and 16 (R217) and the gate supply of every
enabled bootstrap channel (R214). -/
def snsTableOk (s : State) : Bool :=
  tgCheck s && inTg s 0 && inTg s 16 &&
    (List.range 8).all fun m => !(chOn s m && rb s (swgCfg m) 30) || inTg s (8 + m)

/-- VALUE of a code (R224, R225). -/
def sarValue (s : State) (c : Nat) (code : Nat) : Nat :=
  if 8 ≤ c ∧ c ≤ 15 then code * 1800 / 16384
  else
    let cfg := reg s (snsCfgR c)
    let v := ((code : Int) - sext 16 (fld cfg 15 0)) * (rf s (snsCfgR c + 4) 15 0 : Int)
    let r := (v + 2048).fdiv 4096
    if bitOf cfg 31 then (clampI (-32768) 32767 r % 65536).toNat else (clampI 0 65535 r).toNat

def stuckAddr : Nat := snsR 0x008

/-- The end of a block of 256 dithered samples (R227). -/
def ditherEnd (s : State) (c : Nat) : State :=
  let sum := kget 0 s.sns.dSum c
  let s := modSns s fun q => { q with dSum := kput 0 q.dSum c 0, dCnt := kput 0 q.dCnt c 0 }
  if sum < (rf s (snsR 0x014) 15 0 : Int) then
    let s := modSns s fun q => { q with frozen := q.frozen ||| BitVec.ofNat 17 (2 ^ c) }
    report (flag s stuckAddr (2 ^ c)) (192 + c) .adcStuck stuckAddr
  else modSns s fun q => { q with frozen := q.frozen &&& ~~~ BitVec.ofNat 17 (2 ^ c) }

/-- The next d of the sequence of R226, shared by the dithered channels: +1 while its low bit is 1. (Log 121 DESIGN CHOICE unsafe.) -/
def ditherBit (s : State) : Bool := s.sns.prbs.getLsbD 0

/-- The code of a conversion (R226): with dither the 15-bit internal code r and d of +1 or -1. -/
def sarCode (dither : Bool) (raw : Nat) (d : Bool) : Nat :=
  if dither then Nat.min 16383 ((raw + 1 - (if d then 1 else 0) + (if d then 0 else 1)) / 2) else raw % 16384

/-- One sample of a dithered channel. (Log 68 DEDUCED unsafe, 121 DESIGN CHOICE unsafe.) -/
def ditherSample (s : State) (c : Nat) (raw : Nat) (d : Bool) : State :=
  let s := if 256 ≤ kget 0 s.sns.dCnt c then ditherEnd s c else s
  let last := kget (raw : Int) s.sns.dLast c
  let dv : Int := if d then 1 else -1
  modSns s fun q =>
    { q with dSum := kmod 0 q.dSum c fun x => x + dv * ((raw : Int) - last)
             dCnt := kmod 0 q.dCnt c (· + 1)
             dLast := kins q.dLast c (raw : Int)
             prbs := Config.ditherNext q.prbs }

/-- R219: TG_LEAD before the expected tick the first slot starts, once for a tick. -/
def execTickGroupStart (s : State) : Out :=
  .next (live s fun s =>
    if rb s (snsR 0x000) 0 && !(tgEntries s).isEmpty && !s.sns.begun && decide (expectedLt s ≤ now s + rf s (snsR 0x010) 14 0) then
      modSns s fun q => { q with running := true, begun := true, groupAt := now s, entry := 0, done := [], doneLt := [] }
    else s)

/-- The next scan channel at or after c, in ascending order and round (R223). -/
def nextScan (s : State) (c : Nat) : Option Nat :=
  let l := (List.range 17).filter fun k => rb s (snsCfgR k) 29
  match l.find? (decide <| c ≤ ·) with
  | some k => some k
  | none => l.head?

/-- A scan conversion may end now: 200 ns after the one before, and, while the group of the coming tick has not reached
its second sample, not after its first, 40 ns into the group (R218, R223). -/
def scanFits (s : State) : Bool :=
  decide (s.sns.convAt + 100 ≤ now s) &&
    (if s.sns.running then decide (now s ≤ s.sns.groupAt + 20)
     else s.sns.begun || (tgEntries s).isEmpty || decide (now s + rf s (snsR 0x010) 14 0 ≤ expectedLt s + 20))

/-- The conversion that ends is the one of the running group's entry: its slot of 200 ns is over (R219). -/
def groupFits (s : State) (c : Nat) : Bool :=
  s.sns.running && decide (s.sns.groupAt + 100 * (s.sns.entry + 1) ≤ now s) &&
    (match (tgEntries s)[s.sns.entry]? with | some (_, k) => k == c | none => false)

/-- A conversion is taken: CODE and VALUE, and the sample of a dithered channel (R218, R224 to R226). -/
def sarTake (s : State) (c raw : Nat) : State :=
  let di := rb s (snsCfgR c) 30
  let code := sarCode di raw (ditherBit s)
  let v := sarValue s c code
  let s := if di then ditherSample s c raw (ditherBit s) else s
  modSns (setReg s (snsRes c) (wd (code * 65536 + v))) fun q => { q with convAt := now s }

/-- R218: a conversion completes, of the tick group or of the scan; no conversion is made while SAR_EN is 0 (R504). The
sample is what the converter resolved: 15 bits on a dithered channel, 14 otherwise. -/
def execSarConversionDone (c : Fin 17) (raw : BitVec 15) (s : State) : Out :=
  .next (live s fun s =>
    if !rb s (snsR 0x000) 0 then s
    else if groupFits s c then
      let s := sarTake s c raw.toNat
      modSns s fun q =>
        { q with done := kput none q.done c.val (some (wd (rf s (snsRes c) 15 0))), doneLt := kput 0 q.doneLt c.val (now s)
                 entry := q.entry + 1, running := decide (q.entry + 1 < (tgEntries s).length) }
    else if rb s (snsR 0x000) 1 && scanFits s && nextScan s s.sns.scan == some c.val then
      modSns (sarTake s c raw.toNat) fun q => { q with scan := (c.val + 1) % 17 }
    else s)

/-- R227: 256 dithered samples are complete. -/
def execDitherBlockEnd (c : Fin 17) (s : State) : Out :=
  .next (live s fun s => if 256 ≤ kget 0 s.sns.dCnt c.val then ditherEnd s c.val else s)

/-- The snapshot of one tick-group channel (R219, R222, R504). A value that became valid in the cycle of the tick before
is taken where this tick brings none (R21). -/
def sarLatch (late : KV (Option Word)) (s : State) (c : Nat) : State :=
  match (if rb s (snsR 0x000) 0 && decide (kget 0 s.sns.doneLt c < now s) then kget none s.sns.done c else none) with
  | some v => setReg s (snsSnap c) v
  | none =>
    let s := match kget none late c with
      | some v => setReg s (snsSnap c) v
      | none => s
    let s := modSns s fun q => { q with stale := q.stale ++ [c] }
    report (flag s (snsR 0x004) (2 ^ c)) (192 + c) .snsStale (snsR 0x004)

/-- The latest result of a sigma-delta channel at a tick: not one of the tick's own cycle (R21, R233). -/
def sdAtTick (s : State) (n : Nat) : SdWas :=
  if kget 0 s.sns.sdAt n = now s then kget default s.sns.sdWas n
  else ⟨reg s (sdRes n), kget 0 s.sns.sdAt n, has8 s.sns.sdValid n⟩

/-- The snapshots of a tick application (R20 to R22, R222, R233, R504): a value that became valid in the same
2 ns cycle is left to the next tick (R21). -/
def snsLatch (s : State) : State :=
  let t := now s
  let late := s.sns.late
  let s := modSns s fun q => { q with stale := [] }
  let s := (tgEntries s).foldl (fun s e => sarLatch late s e.2) s
  let s := modSns s fun q =>
    { q with running := false, begun := false, convAt := if q.running then t else q.convAt
             late := q.done.filter fun e => kget 0 q.doneLt e.1 == t
             done := [], doneLt := [], tFrozen := q.frozen, tQuiet := q.noPulse }
  let s := (List.range 8).foldl (fun s n =>
    let w := sdAtTick s n
    let s := modSns s fun q => { q with tSd := set8 q.tSd n w.ok }
    setReg (setReg s (sdRes n + 4) w.res) (sdRes n + 8) (wd (Nat.min 65535 (t - w.lt)))) s
  let cur := if rf s (snsR 0x500) 25 24 = 1 then reg s (snsR 0x508) else reg s (snsR 0x504)
  setReg s (snsR 0x50C) (if s.sns.pLt = t ∧ s.sns.pLt ≠ 0 then s.sns.pPrev else cur)

/-- OSR, DIV of the clock, and T_out in ns of a sigma-delta channel. -/
def sdOsr (cfg : Word) : Nat := clampN 16 256 (fld cfg 8 0)
def sdDiv (s : State) (x : Nat) : Nat := clampN 20 100 (rf s (snsR (0x300 + 4 * x)) 6 0)
def sdTout (s : State) (cfg : Word) : Nat := sdOsr cfg * sdDiv s (fld cfg 27 26) * 2

/-- Division of an integer by a positive number, to nearest with halves toward +infinity. (Log 68 DEDUCED unsafe.) -/
def rdivUp (a : Int) (b : Nat) : Int := (2 * a + b).fdiv (2 * b)

/-- The frame value of R230. (Log 68 DEDUCED unsafe.) -/
def sdFrame (osr raw : Nat) : Int :=
  let o := osr ^ 3
  clampI (-8388608) 8388607 (((2 * (Nat.min raw o : Int) - o) * 2 ^ 24 + o).fdiv (2 * o))

/-- One modulator bit enters a sinc3 filter (R230). (Log 122 DEDUCED unsafe.) -/
def sincBit (f : Sinc) (b : Bool) : Sinc :=
  let i1 := f.i1 + (if b then 1 else 0)
  let i2 := f.i2 + i1
  { f with i1 := i1, i2 := i2, i3 := f.i3 + i2 }

/-- The modulator bits of a frame, the first in bit 0. -/
def frameBits (osr : Nat) (bits : BitVec 256) : List Bool := (List.range osr).map bits.getLsbD

/-- A frame of modulator bits passes a sinc3 filter: the filter after it, and raw, from 0 to OSR^3 (R230). (Log 122 DEDUCED unsafe.) -/
def sincFrame (f : Sinc) (bs : List Bool) : Sinc × Nat :=
  let f := bs.foldl sincBit f
  let c1 := f.i3 - f.d1
  let c2 := c1 - f.d2
  ({ f with d1 := f.i3, d2 := c1, d3 := c2 }, (c2 - f.d3).toNat)

/-- A frame shows a transition, the bit before it included (R232). -/
def moves : Bool → List Bool → Bool
  | _, [] => false
  | b, c :: l => b != c || moves c l

/-- A channel is enabled and has its clock (R229). -/
def sdRuns (s : State) (n : Nat) : Bool := rb s (sdCfg n) 31 && rb s (snsR (0x300 + 4 * rf s (sdCfg n) 27 26)) 31

/-- A trigger reaches an enabled cascade. One whose last trigger has not been run, or whose run has not completed, is in
overrun: that run is discarded (R265). -/
def qTrigger (s : State) (c : Nat) (hit : Option (Nat × Word)) : State :=
  let busy := s.lpe.pend.any (·.c == c) || s.lpe.runs.any (·.c == c)
  let s := if busy then report s (228 + c) .lpeOverrun (qcR c 0) else s
  modLpe s fun l => { l with pend := l.pend.filter (·.c != c) ++ [⟨c, hit⟩], runs := l.runs.filter (·.c != c) }

/-- Every enabled cascade with this TRIG and TIDX has its trigger (Table 9-12). -/
def qTriggers (s : State) (trig ix : Nat) (hit : Option (Nat × Word)) : State :=
  (List.range 16).foldl (fun s c =>
    if rb s (qcR c 0) 31 && rf s (qcR c 0) 30 28 == trig && rf s (qcR c 0) 27 24 == ix then qTrigger s c hit else s) s

/-- A result is delivered: RESULT, SD_VALID from the third frame on, the limit checkers and the cascades it triggers
(R230, R231, R385, R261). -/
def sdDeliver (s : State) (n : Nat) (frm : Nat) (v : Int) : State :=
  let same := kget 0 s.sns.sdSame n != 0 && reg s (sdRes n) == wdI v
  let s := modSns s fun q =>
    { q with sdWas := kput default q.sdWas n ⟨reg s (sdRes n), kget 0 q.sdAt n, has8 q.sdValid n⟩
             sdAt := kput 0 q.sdAt n (now s)
             sdSame := kput 0 q.sdSame n (if same then kget 0 q.sdSame n + 1 else 1)
             sdValid := if 3 ≤ frm then set8 q.sdValid n true else q.sdValid
             sdLost := if 3 ≤ frm then set8 q.sdLost n false else q.sdLost }
  let s := (List.range 8).foldl (fun s k => limitCheck s k n v) (setReg s (sdRes n) (wdI v))
  qTriggers s 1 n (some (n, wdI v))

/-- R230 to R232, R385: the modulator bits of a frame are complete. In loss only frames with transitions count, and RESULT
stays until the third. (Log 68 DEDUCED unsafe.) -/
def execSdResult (n : Fin 8) (bits : BitVec 256) (s : State) : Out :=
  .next (live s fun s =>
    let cfg := reg s (sdCfg n)
    if !sdRuns s n then s
    else
      let bs := frameBits (sdOsr cfg) bits
      let r := sincFrame (kget default s.sns.sinc n) bs
      let y := sdFrame (sdOsr cfg) r.2
      let y1 := if kget 0 s.sns.sdFrm n = 0 then y else kget 0 s.sns.sdRaw n
      let v := rdivUp (y * sdTout s cfg + (y1 - y) * fld cfg 23 16) (sdTout s cfg)
      let lost := has8 s.sns.sdLost n
      let f := kget 0 s.sns.sdFrm n + b2n (!lost || moves (kget false s.sns.sdBit n) bs)
      let s := modSns s fun q =>
        { q with sinc := kput default q.sinc n r.1, sdBit := kput false q.sdBit n (bs.getLastD false)
                 sdRaw := kput 0 q.sdRaw n y, sdFrm := kput 0 q.sdFrm n (Nat.min 3 f) }
      if lost && decide (f < 3) then s else sdDeliver s n f v)

/-- R232: no transition for 64 modulator clocks; once for a loss. -/
def execSdLoss (n : Fin 8) (s : State) : Out :=
  .next (live s fun s =>
    if !sdRuns s n || (has8 s.sns.sdLost n && kget 0 s.sns.sdFrm n == 0) then s
    else
      let s := modSns s fun q =>
        { q with sdValid := set8 q.sdValid n false, sdLost := set8 q.sdLost n true, sdFrm := kput 0 q.sdFrm n 0 }
      report (flag s (snsR 0x380) (2 ^ n.val)) (209 + n) .sdLoss (snsR 0x380))

/-- The place of a pair of levels in the usual four-state sequence 00, 10, 11, 01. (Log 69 PRESUMED unsafe.) -/
def quadPlace (a b : Bool) : Nat := match a, b with
  | false, false => 0
  | true, false => 1
  | true, true => 2
  | false, true => 3

/-- The count or period before a change is kept for a tick of the same cycle (R21). -/
def pulseMark (s : State) (old : Word) : State :=
  modSns s fun q => { q with pPrev := if q.pLt = now s then q.pPrev else old, pLt := now s }

/-- R235, R236: levels accepted on PULSE_A and PULSE_B at LT `t`. -/
def pulseStep (s : State) (a b : Bool) (t : Nat) : State :=
  let cfg := reg s (snsR 0x500)
  let oa := s.sns.pa
  let ob := s.sns.pb
  let cnt := reg s (snsR 0x504)
  let per := reg s (snsR 0x508)
  let s := modSns s fun q => { q with pa := a, pb := b }
  if !bitOf cfg 31 then s
  else match fld cfg 25 24 with
    | 1 =>
      if a && !oa then
        let u := modSns s fun q => { q with edgeLt := some t, pFrom := t }
        match s.sns.edgeLt with
        | some e => pulseMark (modSns (setReg u (snsR 0x508) (wd (Nat.min 0xFFFFFFFF (t - e)))) fun q => { q with noPulse := false }) per
        | none => u
      else s
    | 2 =>
      if a != oa && b != ob then report (flag s (snsR 0x510) 1) 217 .quadErr (snsR 0x510)
      else if a != oa || b != ob then
        pulseMark (setReg s (snsR 0x504) (if (quadPlace oa ob + 1) % 4 = quadPlace a b then cnt + 1 else cnt - 1)) cnt
      else s
    | _ => if a && !oa then pulseMark (setReg s (snsR 0x504) (if b then cnt - 1 else cnt + 1)) cnt else s

/-- The LT at which a level that differs from the accepted one has been stable for FILT, if it has (R234). -/
def stableAt (s : State) (raw acc : Bool) (since : Nat) : Option Nat :=
  let t := since + rf s (snsR 0x500) 7 0
  if raw != acc && decide (t ≤ now s) then some t else none

/-- The levels that have become stable are accepted, the earlier first (R234). -/
def pulseAccept (s : State) : State :=
  let q := s.sns
  match stableAt s q.rawA q.pa q.rawAAt, stableAt s q.rawB q.pb q.rawBAt with
  | some t, some u =>
    if t = u then pulseStep s q.rawA q.rawB t
    else if t < u then pulseStep (pulseStep s q.rawA q.pb t) q.rawA q.rawB u
    else pulseStep (pulseStep s q.pa q.rawB u) q.rawA q.rawB t
  | some t, none => pulseStep s q.rawA q.pb t
  | none, some u => pulseStep s q.pa q.rawB u
  | none, none => s

/-- R234, R235: the levels on PULSE_A and PULSE_B. A change starts the time of the filter again. (Log 69 PRESUMED unsafe, 70 DEDUCED unsafe.) -/
def execPulseEdge (a b : Bool) (s : State) : Out :=
  .next (live s fun s =>
    let s := pulseAccept s
    pulseAccept (modSns s fun q =>
      { q with rawA := a, rawAAt := if a = q.rawA then q.rawAAt else now s
               rawB := b, rawBAt := if b = q.rawB then q.rawBAt else now s }))

/-- R237: no rising edge for TMO ms. -/
def execNoPulse (s : State) : Out :=
  .next (live s fun s =>
    let cfg := reg s (snsR 0x500)
    if bitOf cfg 31 && fld cfg 25 24 == 1 && decide (s.sns.pFrom + ms (Nat.max 1 (fld cfg 23 16)) ≤ now s) then
      modSns (setReg s (snsR 0x508) 0) fun q => { q with noPulse := true, edgeLt := none, pFrom := now s }
    else s)

/-- A write to an SNS register with a check of its own (R220, R231, R238, R239). -/
def snsWrite (s : State) (o : Origin) (a : Nat) (val : Word) : State :=
  let off := a - snsR 0
  let t := genWrite s o a val
  let bad (s : State) : State := report s 218 .snsCfg a
  if !(modeOf s == .boot || modeOf s == .precharge || modeOf s == .ready) then t
  else if (0x040 ≤ off ∧ off < 0x080) ∨ off = 0x010 then
    if isUpper s && !tgCheck t then bad s else t
  else if off = 0x018 then (if bitOf val 31 && !inTg s (fld val 2 0) then bad s else t)
  else if 0x300 ≤ off ∧ off < 0x310 then
    (if (List.range 8).any fun n => let c := reg t (sdCfg n); decide (sdTout t c ≤ fld c 23 16) then bad s else t)
  else if 0x400 ≤ off ∧ off < 0x480 then
    let n := (off - 0x400) / 0x10
    let c := reg t (sdCfg n)
    if sdTout t c ≤ fld c 23 16 then bad s
    else if rb s (sdCfg n) 31 != bitOf c 31 then
      modSns t fun q =>
        { q with sdFrm := kput 0 q.sdFrm n 0, sdValid := set8 q.sdValid n false, sdLost := set8 q.sdLost n false
                 sinc := kput default q.sinc n default }
    else t
  else if off = 0x500 then
    let on (w : Word) : Bool := bitOf w 31 && fld w 25 24 == 1
    if (!rb s (snsR 0x500) 31 && bitOf val 31) || (!on (reg s (snsR 0x500)) && on (reg t (snsR 0x500))) then modSns t fun q => { q with edgeLt := none, pFrom := now s } else t
  else t

end Sys2Proof.Machine
end

