-- ==== Sys2Proof/Machine/Ledger.lean ====
section
/-! DEFINITION. The energy ledger of a cell: its quantities at each recompute, LOW and RESERVE, the wake-up
stages, the bootstrap model, and the hold-up supervision of every role. -/

namespace Sys2Proof.Machine

open Sys2Proof

/-- The greatest unsigned quantity, µJ (R210). -/
def uSat (n : Nat) : Nat := Nat.min 4294967295 n

/-- Enabled gate channels. -/
def enChans (s : State) : List Nat := (List.range 8).filter (chOn s)

/-- E_gate (Table 7-4): measured rates once 64 ticks exist, EV_WC before. -/
def eGate (s : State) : Nat :=
  let esw (m : Nat) : Nat := rf s (supR (0x180 + 4 * m)) 15 0
  let sum (f : Nat → Nat) : Nat := (enChans s).foldl (fun a m => a + f m) 0
  if s.sup.pow.length = 64 then
    let cyc (m : Nat) : Nat := s.sup.cycs.foldl (fun a l => a + l.getD m 0) 0
    divUp (sum fun m => esw m * cyc m * horizon s * 2000) (64 * s.tmk.period)
  else divUp (sum fun m => esw m * rf s (supR (0x180 + 4 * m)) 31 16 * horizon s) 1000

/-- Deblocking of the channels named is admitted (R213): H covers the sum of E_SW * EV_WC over HORIZON, exactly. (Log 64 DEDUCED safe.) -/
def deblockAdmit (s : State) (ch : List Nat) : Bool :=
  let p := ch.foldl (fun a m => a + rf s (supR (0x180 + 4 * m)) 15 0 * rf s (supR (0x180 + 4 * m)) 31 16) 0
  decide ((p * horizon s : Int) ≤ s.sup.head * 1000)

/-- The wake-up stages and further ports of the ledger's own sequence (R444 to R446): at most one a recompute. -/
def wakeStep (s : State) : State :=
  if !s.sup.wake then s
  else
    let covers (mW : Nat) : Bool := decide ((mW * horizon s : Int) ≤ s.sup.head)
    let st := s.sup.stage
    let power (p : Nat) (s : State) : State := modPort s p fun t => { t with powered := true, since := now s }
    let downs := downPorts s
    match [2, 3, 4, 5].find? fun n => !st.toNat.testBit n with
    | some n =>
      let mw := [100, 80, 50, 20].getD (n - 2) 100
      if covers mw then
        let s := modSup s fun u => { u with stage := u.stage ||| BitVec.ofNat 6 (2 ^ n), waiting := 0 }
        match n, downs.head? with
        | 2, some p => power p s
        | _, _ => s
      else modSup s fun u => { u with waiting := n }
    | none =>
      match downs.find? fun p => !(portOf s p).powered with
      | some p => if covers 100 then power p s else s
      | none => modSup s fun u => { u with waiting := 0 }

/-- One channel of the bootstrap model (R214, R216). A sample is missing when its conversion was stale or not in
the tick group; V_BS then falls by IQ * period / C_BS for each tick in which GCMD was high. (Log 66 DEDUCED unsafe.) -/
def bsStep (s : State) (m : Nat) : State :=
  let cfg := reg s (supR (0x140 + 8 * m))
  if !(has8 s.swg.armed m && rb s (swgCfg m) 30) then s
  else
    let c := fld cfg 31 20
    let qg := fld cfg 19 10
    let iq := fld cfg 9 0
    let dv := Nat.max 1 (rf s (swgCfg m) 28 24)
    let miss := s.sns.stale.contains (8 + m) || !inTg s (8 + m)
    let fresh := snapOf s (8 + m) * dv
    let base := if miss then kget 0 s.sup.vbs m else fresh
    let n := if miss then kget 0 s.sup.vTicks m + b2n (has8 s.swg.onTick m) else 0
    let v : Nat := base - (if c = 0 then 0 else divUp (50 * iq * s.tmk.period * n) (c * 1000))
    let uv := 100 * rf s (swgTh m) 15 8
    let head : Int := (c : Int) * ((v : Int) - uv) * 20 - (if has8 s.swg.gcmd m then 0 else qg * 10000)
    let t := if c = 0 ∨ head ≤ 0 then 0 else if iq = 0 then 65535 else Nat.min 65535 (head.toNat / (iq * s.tmk.period))
    let s := modSup s fun u => { u with vbs := kput 0 u.vbs m base, vTicks := kput 0 u.vTicks m n, tRem := kput 0 u.tRem m t }
    let s := setReg s (supR (0x144 + 8 * m)) (wd (t * 65536 + Nat.min 65535 v))
    if miss then report (flag s (supR 0x128) 0x40) srcLedger .bsExtrap (supR 0x128) else s

/-- A recompute of the ledger (R210 to R212), CELL only, from the latest snapshots. -/
def ledger (s : State) : State :=
  if !isCell s then s
  else
    let vc := snapOf s 0
    let va := snapOf s 16
    let psu := rf s (supR 0x104) 15 0
    let hmin := rf s (supR 0x108) 15 0
    let aux := rf s (supR 0x10C) 31 16
    let eta := clampN 50 100 (rf s (supR 0x10C) 7 0)
    let inCap := decide (psu < vc) && decide (aux ≤ va)
    let eCap := if inCap then uSat (eta * rf s (supR 0x104) 31 16 * (vc * vc - psu * psu) / 2000) else 0
    let eHold := if va ≤ hmin then 0 else uSat (rf s (supR 0x108) 31 16 * (va * va - hmin * hmin) / 20)
    let avail := uSat (eCap + eHold)
    let meas := decide (s.sup.pow.length = 64)
    let pUse := if meas then divUp (s.sup.pow.foldl (· + ·) 0) 64 else rf s (supR 0x100) 11 0
    let f := uSat (pUse * horizon s + eGate s)
    let h := clampI (-2147483647) 2147483647 ((avail : Int) - f - eRes s)
    let s := modSup s fun u => { u with eAvail := avail, head := h, capIn := inCap
                                        low := decide (0 ≤ h) && decide (h < (reg s (supR 0x114)).toNat) }
    let s := setReg (setReg (setReg (setReg s (supR 0x118) (wd avail)) (supR 0x11C) (wd f)) (supR 0x120) (wdI h)) (supR 0x124) (wd (pUse % 65536))
    let s := (List.range 8).foldl bsStep s
    let s := if h < 0 then
        if s.sup.resRun then s
        else
          let s := report (flag (modSup s fun u => { u with resRun := true }) (supR 0x128) 2) srcLedger .ledgerReserve (supR 0x128)
          if running s then safDemand (enterSafe (turnOff s) 19 (some srcLedger)) 3 else s
      else modSup s fun u => { u with resRun := false }
    wakeStep s

/-- The measurements of the tick that ends: feed power and on-off cycles, of the last 64 ticks (Table 7-4). -/
def ledgerMeasure (s : State) (mw : Nat) : State :=
  let s := modSup s fun u =>
    { u with pow := (mw :: u.pow).take 64
             cycs := ((List.range 8).map (kget 0 s.swg.cyc) :: u.cycs).take 64 }
  s

/-- The counts of a tick begin anew. -/
def ledgerNewTick (s : State) : State := modSwg s fun g => { g with cyc := [], onTick := g.gcmd }

/-- R439: the hold-up bus at a tick snapshot. -/
def holdupCheck (s : State) : State :=
  let lim := rf s (supR 0x00C) 15 0
  let v := snapOf s 16
  if lim = 0 ∨ inTg s 16 = false then s
  else if v < lim then
    if s.sup.holdLow then s else report (modSup s fun u => { u with holdLow := true }) 386 .holdupLow (supR 0x00C)
  else if lim + 5 ≤ v then modSup s fun u => { u with holdLow := false } else s

/-- R221: before the first tick, snapshots and recompute at every multiple of 10 µs of LT. -/
def execPreTickSnapshot (s : State) : Out :=
  .next (live s fun s => if !s.tmk.ticked && now s % us 10 == 0 then holdupCheck (ledger (snsLatch s)) else s)

end Sys2Proof.Machine
end

