-- ==== Sys2Proof/Machine/Riddle.lean ====
section
/-! DEFINITION. The Riddle: cell classes and bins, the Rake and its merge, the selection at the arm with its bins
and quota, and the descent with its split, its holds and its stored counts. -/

namespace Sys2Proof.Machine

open Sys2Proof

def rdlStat : Nat := rdlR 0x004

/-- A tick's number as RAKE and DESCENT carry it. -/
def tt8 (s : State) : Nat := s.tmk.tick.toNat % 256

/-- A C1 packet of one hop (R150): TYPE 0x10 RAKE, 0x11 BINS, 0x12 DESCENT. -/
def hopPacket (s : State) (typ seq : Nat) (ws : List Word) : Packet :=
  ownPacket s 0 0 typ 1 (BitVec.ofNat 8 seq) ws

/-- The switch temperature in 0.1 °C as fp32, from the curve of the table set. -/
def swTempNow (s : State) : Option Word :=
  s.rdl.swTemp.map fun e =>
    let v : Int := if rb s (snsCfgR e.1) 31 then sext 16 (snapOf s e.1) else (snapOf s e.1 : Nat)
    (lutEval (e.2.getD 0 0) (e.2.getD 1 0) (e.2.getD 2 0).toNat (fun i => e.2.getD (4 + i) 0) (fpOfInt v).1).1

/-- The hot cause: from HOT_ON until it falls below HOT_OFF (Table 5-1). -/
def hotNow (s : State) : Bool :=
  match swTempNow s with
  | none => false
  | some t =>
    let lim (hi lo : Nat) : Word := (fpOfInt (sext 16 (rf s (rdlR 0x044) hi lo))).1
    decide (0 ≤ fpCmp t (lim 31 16)) || (s.rdl.hot && decide (0 ≤ fpCmp t (lim 15 0)))

/-- The causes of Table 5-1, bit n the row n (R143, R215). (Log 58 DEDUCED unsafe.) -/
def classCause (s : State) : BitVec 7 :=
  let boot := (List.range 8).filter fun m => has8 s.swg.armed m && rb s (swgCfg m) 30
  let below (hi lo : Nat) : Bool := boot.any fun m => decide (kget 0 s.sup.tRem m < rf s (supR 0x12C) hi lo)
  BitVec.ofNat 7 (b2n (below 31 16) + 2 * b2n s.rdl.hot + 4 * b2n s.sup.low + 8 * b2n (below 15 0) +
    16 * b2n (!running s || (List.range 8).any fun m => chOn s m && !has8 s.swg.armed m) +
    32 * b2n (quarHeld s) + 64 * b2n s.rdl.bins.isNone)

/-- The class the causes give: 0, 1, 2 for 2R, 3 for 2X. -/
def classOf (c : BitVec 7) : Nat :=
  if c.toNat / 16 ≠ 0 then 3 else if c.toNat / 8 % 2 = 1 then 2 else if c.toNat ≠ 0 then 1 else 0

/-- The bin of a voltage (R145); a WIDTH of 0 counts as 1. (Log 60 DEDUCED safe.) -/
def binOf (b : Bins) (v : Nat) : Nat := if v < b.base then 0 else Nat.min 31 ((v - b.base) / Nat.max 1 b.width)

/-- The Riddle at a tick application, after the snapshots and the ledger: bins, class and bin of a cell, and the
start of a new tick (R143 to R146, R151, R166). (Log 57 DEDUCED unsafe.) -/
def rdlTick (s : State) : State :=
  let s := modRdl s fun r =>
    { r with bins := r.binsNew, binsNew := none, limit := match r.binsNew with | some b => b.hold | none => r.limit
             dec := none, gotDesc := false, edgeDone := false, prev := r.inp.map (·.1), inp := [], heldNow := []
             sentA := false, sentB := false, hist := none, selDone := false, bad := [], late := false
             iArm := if roleOf s = .arm then Config.armCurrent (reg s (snsR 0x408)) (reg s (snsR 0x418)) else r.iArm
             forceNow := match r.forceNew with | some f => some f | none => r.forceNow
             forceNew := none }
  let s := setReg s (rdlR 0x010) (match s.rdl.bins with | some b => wd (b.base * 65536 + b.width) | none => reg s (rdlR 0x010))
  if !isCell s then s
  else
    let s := if s.rdl.bins.isNone then report (flag s rdlStat 0x80) 129 .binsMissing rdlStat else s
    let s := modRdl s fun r => { r with hot := hotNow s }
    let c := classCause s
    let k := classOf c
    modRdl s fun r =>
      { r with cause := c, cls := k, bin := if 2 ≤ k then 0 else match r.bins with | some b => binOf b (snapOf s 0) | none => 0 }

/-- A histogram as a RAKE payload and back (Table 5-3). -/
def histWords (planeB : Bool) (h : Hist) : List Word :=
  let big := h.cnt.foldl (fun n e => n + e.2 % 4096 * 2 ^ (12 * e.1)) 0
  [wd (b2n planeB * 2 ^ 31 + h.held % 4096 * 4096 + h.c2r % 4096), wd (h.c2x % 4096)] ++
    (List.range 24).map fun i => wd (big / 2 ^ (32 * i))

def histOf (ws : List Word) : Hist :=
  let w (i : Nat) : Word := ws.getD i 0
  let big := (List.range 24).foldl (fun n i => n + (w (2 + i)).toNat * 2 ^ (32 * i)) 0
  { held := fld (w 0) 23 12, c2r := fld (w 0) 11 0, c2x := fld (w 1) 11 0
    cnt := (List.range 64).foldl (fun m n => kput 0 m n (big / 2 ^ (12 * n) % 4096)) [] }

/-- The sum of two histograms. -/
def histAdd (a b : Hist) : Hist :=
  ⟨a.held + b.held, a.c2r + b.c2r, a.c2x + b.c2x, b.cnt.foldl (fun m e => kmod 0 m e.1 (· + e.2)) a.cnt⟩

/-- A cell's own report. -/
def ownHist (s : State) : Hist :=
  match s.rdl.cls with
  | 0 => ⟨0, 0, 0, [(s.rdl.bin, 1)]⟩
  | 1 => ⟨0, 0, 0, [(32 + s.rdl.bin, 1)]⟩
  | 2 => ⟨0, 1, 0, []⟩
  | _ => ⟨0, 0, 1, []⟩

/-- The key of a plane and a port. -/
def ppKey (planeB : Bool) (p : Nat) : Nat := 8 * b2n planeB + p

/-- The inputs a node expects for a plane (R151): by the peer's CAPS DIR, and by the previous tick. -/
def rakeExpected (s : State) (planeB : Bool) : List Nat :=
  (downPorts s).filter fun p =>
    (isActive s p && rf s (trlR (0x110 + 0x40 * p)) 11 10 == (if planeB then 2 else 1)) || s.rdl.prev.contains (ppKey planeB p)

def rakeSent (s : State) (planeB : Bool) : Bool := if planeB then s.rdl.sentB else s.rdl.sentA

/-- HOLD_LIMIT at this node: of its own register in the ARM role, else of the last BINS (R167). (Log 59 DEDUCED safe.) -/
def holdLimit (s : State) : Nat :=
  if roleOf s = .arm then Nat.max 1 (rf s (rdlR 0x02C) 3 0) else Nat.max 1 s.rdl.limit

/-- R150, R151: a RAKE input arrives; one that fails its CRC has begun, and is missing. -/
def rakeIn (s : State) (p : Nat) (pk : Packet) (arr : Arrival) : State :=
  let pb := bitOf (pk.payload.getD 0 0) 31
  if dirOf s p = 3 ∧ isActive s p = true ∧ pk.seq.toNat = tt8 s ∧ rakeSent s pb = false then
    modRdl s fun r => if arr = .good then { r with inp := kput none r.inp (ppKey pb p) (some (histOf pk.payload)) }
                      else { r with bad := r.bad ++ [ppKey pb p] }
  else s

def execRakeRx (p : Port) (pk : Packet) (arr : Arrival) (s : State) : Out :=
  .next (live s fun s => hopIn s 0x10 pk fun s => rakeIn s p.val pk arr)

/-- The ARM part's plane: its side. (Log 62 DEDUCED unsafe.) -/
def armPlane (s : State) : Bool := rb s (sysR 0x050) 30

/-- The merged histogram of the own plane at an ARM part: RDL_HISTn, RDL_CNT, RDL_AVAIL, RDL_VSUM (R170). -/
def histStore (s : State) (h : Hist) : State :=
  let s := (List.range 64).foldl (fun s n => setReg s (rdlR (0x100 + 4 * n)) (wd (kget 0 h.cnt n % 4096))) s
  let tot := h.cnt.foldl (fun n e => n + e.2) 0
  let b := reg s (rdlR 0x010)
  let v2 := h.cnt.foldl (fun n e => n + e.2 * (2 * fld b 31 16 + (2 * (e.1 % 32) + 1) * fld b 15 0)) 0
  let s := setReg s (rdlR 0x030) (wd (h.c2r % 4096 * 4096 + h.c2x % 4096))
  let s := setReg s (rdlR 0x034) (wd (h.held % 4096 * 4096 + tot % 4096))
  setReg s (rdlR 0x060) (wd (v2 / 2))

/-- The bins of the next tick (R148): BASE and WIDTH from the histogram. MARGIN above 12 counts as 12 and WMIN 0 as 1: the
model's choice. (Log 120 DESIGN CHOICE unsafe.) -/
def zoom (s : State) (h : Hist) : Nat × Nat :=
  let b := reg s (rdlR 0x010)
  let base : Int := (fld b 31 16 : Nat)
  let w := fld b 15 0
  let fsB : Int := (rf s (rdlR 0x008) 31 16 : Nat)
  let fsW := rf s (rdlR 0x008) 15 0
  let marg := clampN 0 12 (rf s (rdlR 0x00C) 11 8)
  let wmin := Nat.max 1 (rf s (rdlR 0x00C) 7 0)
  let used := (List.range 32).filter fun j => kget 0 h.cnt j + kget 0 h.cnt (32 + j) != 0
  let r : Int × Nat := match used.head?, used.getLast? with
    | some lo, some hi =>
      if (lo = 0 ∨ hi = 31) ∧ w < fsW then
        let nw := Nat.min (2 * w) fsW
        (base + 16 * w - 16 * nw, nw)
      else
        let nw := Nat.min fsW (Nat.max (Nat.max (divUp ((hi - lo + 1) * w) (32 - 2 * marg)) wmin) (divUp w 2))
        (base + ((lo + hi + 1) * w / 2 : Nat) - 16 * nw, nw)
    | _, _ => (base, w)
  ((Int.toNat (min (max r.1 fsB) (fsB + 32 * fsW - 32 * r.2))) % 65536, r.2 % 65536)

/-- The histogram of the own plane is complete at an ARM part: its registers, the next bins, and HIST. -/
def histDone (s : State) (h : Hist) : State :=
  let s := histStore s h
  let z := zoom s h
  let s := if s.rdl.first || rb s (rdlR 0x018) 0 then s else setReg s (rdlR 0x014) (wd (z.1 * 65536 + z.2))
  raiseEvAll (modRdl s fun r => { r with hist := some h }) 0x400

/-- The ports a cell may send a plane on (R149): P0 then P1 for plane A, P1 then P0 for plane B. -/
def rakePort (s : State) (planeB : Bool) : Option Nat :=
  (if planeB then [1, 0] else [0, 1]).find? fun p => isActive s p && (dirOf s p == 1 || dirOf s p == 2)

/-- A plane's inputs are merged, missing ones counted as held (R152, R166, R167), and its output starts (R149). (Log 59 DEDUCED safe.) -/
def rakeStart (s : State) (planeB : Bool) : State :=
  let exp := rakeExpected s planeB
  let miss := exp.filter fun p => (kget none s.rdl.inp (ppKey planeB p)).isNone
  let wait := miss.any fun p => !s.rdl.bad.contains (ppKey planeB p)
  if rakeSent s planeB || (wait && decide (phaseOf s < rf s (rdlR 0x028) 14 0)) then s
  else
    let lim := holdLimit s
    let count (n : Nat) : Nat := Nat.min 255 (n + 1)
    let got := (downPorts s).filterMap fun p => kget none s.rdl.inp (ppKey planeB p)
    let held := (miss.map fun p =>
      if lim ≤ kget 0 s.rdl.quiet (ppKey planeB p) then 0 else kget 0 s.rdl.heldCnt (ppKey planeB p)).foldl (· + ·) 0
    let own := if isCell s then ownHist s else default
    let h := got.foldl histAdd { own with held := held }
    let lost := miss.any fun p => kget 0 s.rdl.heldRun (ppKey planeB p) + 1 == lim
    let s := modRdl s fun r =>
      { r with heldNow := r.heldNow ++ miss.map (ppKey planeB)
               heldRun := (List.range 6).foldl (fun m p =>
                 if miss.contains p then kmod 0 m (ppKey planeB p) count else kput 0 m (ppKey planeB p) 0) r.heldRun
               quiet := (List.range 6).foldl (fun m p =>
                 if (kget none r.inp (ppKey planeB p)).isNone then kmod 0 m (ppKey planeB p) count else kput 0 m (ppKey planeB p) 0) r.quiet
               sentA := r.sentA || !planeB, sentB := r.sentB || planeB }
    let s := if miss.isEmpty then s else flag s rdlStat 0x20
    if isCell s then
      match rakePort s planeB with
      | some p => enqueue s p (hopPacket s 0x10 (tt8 s) (histWords planeB h)) false
      | none => s
    else
      let s := if miss.isEmpty then s else report s 128 .rakeHold rdlStat
      let s := if lost then report (flag s rdlStat 0x40) 128 .rakeLost rdlStat else s
      histDone s h

/-- R151: an output starts; of two on one port plane A goes first (R149). An ARM part takes its own plane. -/
def rakeOutput (s : State) (planeB : Bool) : State :=
  if isCell s then
    if planeB && rakePort s true == rakePort s false then
      let s := rakeStart s false
      if s.rdl.sentA then rakeStart s true else s
    else rakeStart s planeB
  else if roleOf s = .arm ∧ planeB = armPlane s then rakeStart s planeB
  else s

def execRakeOutputStart (planeB : Bool) (s : State) : Out := .next (live s fun s => rakeOutput s planeB)

/-- The bin of position n in the order of R155, counted low to high or high to low. -/
def orderBin (high : Bool) (n : Nat) : Nat := if high then 31 - n else n

/-- The counts of a histogram in the order of R155: 32 of class 0, 32 of class 1, then 2R. -/
def orderCounts (high : Bool) (h : Hist) : List Nat :=
  (List.range 32).map (fun n => kget 0 h.cnt (orderBin high n)) ++
    (List.range 32).map (fun n => kget 0 h.cnt (32 + orderBin high n)) ++ [h.c2r]

/-- The position of a class and bin in that order; none for 2X and for a boundary of NONE. -/
def orderPos (high : Bool) (cls bin : Nat) : Option Nat :=
  match cls with
  | 0 => some (orderBin high (bin % 32))
  | 1 => some (32 + orderBin high (bin % 32))
  | 2 => some 64
  | _ => none

/-- The boundary: the position at which p is reached, and what is left of p there. -/
def boundary : List Nat → Nat → Nat → Option (Nat × Nat)
  | [], _, _ => none
  | c :: l, pos, p => if p ≤ c then some (pos, p) else boundary l (pos + 1) (p - c)

/-- The shares of a quota among participants in visiting order: (identity, share, FRAC) (R160, R162). -/
def splitQ : List (Nat × Nat) → Nat → Bool → List (Nat × Nat × Bool)
  | [], _, _ => []
  | (i, c) :: l, q, fr =>
    let g := Nat.min q c
    (i, g, fr && decide (0 < g) && g == q) :: splitQ l (q - g) fr

/-- A list in rotation from index k. -/
def rotateAt {α : Type} (l : List α) (k : Nat) : List α := l.drop k ++ l.take k

/-- Table 5-4. -/
def quotaWords (q : Quota) : List Word :=
  [wd (b2n q.plane * 2 ^ 31 + b2n q.hold * 2 ^ 30 + q.cb % 4 * 2 ^ 28 + b2n q.dir * 2 ^ 27 + b2n q.neg * 2 ^ 26 +
      b2n q.frac * 2 ^ 25 + q.bin % 32 * 2 ^ 20 + q.q % 4096), wd (q.fduty % 65536 * 65536)]

def quotaOf (ws : List Word) : Quota :=
  let w := ws.getD 0 0
  { plane := bitOf w 31, hold := bitOf w 30, cb := fld w 29 28, dir := bitOf w 27, neg := bitOf w 26, frac := bitOf w 25
    bin := fld w 24 20, q := fld w 11 0, fduty := fld (ws.getD 1 0) 31 16 }

/-- A DESCENT leaves a port that is ACTIVE. -/
def descSend (s : State) (p : Nat) (q : Quota) : State :=
  if isActive s p then enqueue s p (hopPacket s 0x12 (tt8 s) (quotaWords q)) false else s

/-- Held ports of a plane receive HOLD (R152, R163). -/
def holdSend (s : State) (q : Quota) : State :=
  ((downPorts s).filter fun p => s.rdl.heldNow.contains (ppKey q.plane p)).foldl
    (fun s p => descSend s p { q with hold := true, q := 0, frac := false }) s

/-- A quota is split among the node itself (identity 6, a cell only) and its delivering ports, sent on and stored
(R160 to R164); the node's own share. -/
def splitSend (s : State) (q : Quota) : State × Nat × Bool :=
  let bp := if q.cb = 3 then none else orderPos q.dir q.cb q.bin
  let self : List (Nat × Hist) := if isCell s then [(6, ownHist s)] else []
  let parts := self ++ (downPorts s).filterMap fun p => (kget none s.rdl.inp (ppKey q.plane p)).map fun h => (p, h)
  let at_ (h : Hist) : Nat := match bp with | some n => (orderCounts q.dir h).getD n 0 | none => 0
  let before (h : Hist) : Nat := match bp with | some n => ((orderCounts q.dir h).take n).foldl (· + ·) 0 | none => 0
  let k := (s.tmk.tick.toNat % 65536 + (nodeId s).toNat) % Nat.max 1 parts.length
  let sh := splitQ (rotateAt (parts.map fun e => (e.1, at_ e.2)) k) q.q q.frac
  let s := parts.foldl (fun s e =>
    if e.1 = 6 then s
    else
      let g := (sh.find? (·.1 == e.1)).getD (e.1, 0, false)
      let s := descSend s e.1 { q with hold := false, q := g.2.1, frac := g.2.2 }
      modRdl s fun r => { r with heldCnt := kput 0 r.heldCnt (ppKey q.plane e.1) (before e.2 + g.2.1 - b2n g.2.2) }) s
  let mine := (sh.find? (·.1 == 6)).getD (6, 0, false)
  (holdSend s q, mine.2.1, mine.2.2)

/-- A copy of an active part's packet goes unchanged to its partner (R423). (Log 61 DEDUCED unsafe.) -/
def mirrorSend (s : State) (pk : Packet) : State :=
  match partnerPort s with
  | some p => if s.sys.pair.active && rb s (sysR 0x050) 31 && isActive s p then enqueue s p pk false else s
  | none => s

/-- The BINS of the next tick leave on every DOWN port (R146), and as a copy to the partner (R423); a part in the
switch-over gap sends them on DOWN ports alone (R430). (Log 61 DEDUCED unsafe.) -/
def binsSend (s : State) : State :=
  let nb := reg s (rdlR 0x014)
  let hold := Nat.max 1 (rf s (rdlR 0x02C) 3 0)
  let pk := hopPacket s 0x11 ((tt8 s + 1) % 256) [nb, wd (hold * 2 ^ 28)]
  let s := modRdl s fun r => { r with binsNew := some ⟨fld nb 31 16, fld nb 15 0, hold⟩ }
  if s.sys.pair.active || s.sys.pair.gap then
    mirrorSend ((downPorts s).foldl (fun s p => if isActive s p then enqueue s p pk false else s) s) pk
  else s

/-- The current direction with its hysteresis (R154), in A. -/
def iDir (s : State) (i : Int) : Bool :=
  let h : Int := (rf s (rdlR 0x024) 31 16 : Nat)
  if h < i then true else if i < -h then false else rb s (rdlR 0x024) 0

/-- The selection of R155 on the merged histogram: the quota, SHORT, and whether HELD exceeded abs(N). -/
def selectQuota (s : State) (h : Hist) (ipos : Bool) (n : Int) (fduty : Nat) : Quota × Bool × Bool :=
  let neg := decide (n < 0)
  let charge := ipos != neg
  let exc := decide (n.natAbs < h.held)
  let p0 := n.natAbs - h.held
  let avail := (orderCounts false h).foldl (· + ·) 0
  let fr := decide (0 < fduty)
  let p1 := p0 + b2n fr
  let drop := fr && decide (avail < p1)
  let p2 := if drop then p1 - 1 else p1
  let fr := fr && !drop
  let short := decide (avail < p2)
  let p := if short then avail else p2
  let base : Quota := { (default : Quota) with plane := armPlane s, cb := 3, dir := !charge, neg := neg, frac := fr, fduty := fduty }
  match (if p = 0 then none else boundary (orderCounts (!charge) h) 0 p) with
  | none => (base, short, exc)
  | some (pos, q) =>
    ({ base with cb := if pos < 32 then 0 else if pos < 64 then 1 else 2
                 bin := if pos < 64 then orderBin (!charge) (pos % 32) else 0, q := q }, short, exc)

/-- A RDL_STATUS flag is set and reported by the selection unit. -/
def rdlFlag (s : State) (bit : Nat) (k : Kind) : State := report (flag s rdlStat (2 ^ bit)) 128 k rdlStat

/-- The selection runs (R153 to R158, R147, R423). (Log 60 DEDUCED safe.) -/
def selectRun (s : State) (n0 : Int) (fduty : Nat) : State :=
  match s.rdl.hist with
  | none => s
  | some h =>
    let s := unflag s (rdlR 0x01C) 0x80000000
    let ipos := iDir s s.rdl.iArm
    let s := setRf s (rdlR 0x024) 0 0 (b2n ipos)
    let range := decide (n0 < 0) && !rb s (rdlR 0x000) 2
    let n := if range then 0 else n0
    let s := if range then rdlFlag s 3 .levelRange else s
    let (q, short, exc) := selectQuota s h ipos n fduty
    let s := if exc then rdlFlag s 4 .heldExcess else s
    let s := if short then rdlFlag s 1 .cellsShort else s
    let star := q.cb == 2
    let s := if star then
        let c := (reg s (rdlR 0x038)).toNat
        let s := flag (setReg s (rdlR 0x038) (wd (Nat.min 4294967295 (c + 1)))) rdlStat 1
        if s.rdl.starve then s else report s 128 .refreshStarved rdlStat
      else s
    let s := setReg s (rdlR 0x020) (wd (q.cb * 2 ^ 30 + b2n q.dir * 2 ^ 29 + b2n q.neg * 2 ^ 28 + b2n q.frac * 2 ^ 27 +
      b2n short * 2 ^ 26 + q.bin * 2 ^ 21 + q.q % 4096))
    let s := if s.rdl.first then setReg s (rdlR 0x014) (reg s (rdlR 0x008)) else s
    let s := modRdl s fun r =>
      { r with selDone := true, quota := q, starve := star, lastN := n0, lastF := fduty, first := false }
    let s := raiseEvAll s 0x800
    let s := if s.sys.pair.active && running s then mirrorSend (splitSend s q).1 (hopPacket s 0x12 (tt8 s) (quotaWords q)) else s
    binsSend s

/-- N and FDUTY of RDL_LEVEL. -/
def levelN (s : State) : Int := sext 13 (rf s (rdlR 0x01C) 28 16)
def levelF (s : State) : Nat := rf s (rdlR 0x01C) 15 0

/-- R153: histogram complete and GO written. (Log 60 DEDUCED safe.) -/
def selectTry (s : State) : State :=
  if roleOf s ≠ .arm ∨ s.rdl.selDone = true ∨ s.rdl.hist.isNone = true then s
  else if s.rdl.late then selectRun s s.rdl.lastN s.rdl.lastF
  else if rb s (rdlR 0x01C) 31 then selectRun s (levelN s) (levelF s)
  else s

def execSelectionRun (s : State) : Out := .next (live s selectTry)

/-- R153: GO has not been written by phase LEVEL_DL: LEVEL_LATE, and the tick's selection takes the N and FDUTY of the one
before, now or as soon as the histogram is complete. (Log 60 DEDUCED safe.) -/
def levelLate (s : State) : State :=
  if roleOf s = .arm ∧ s.rdl.selDone = false ∧ s.rdl.late = false ∧ rb s (rdlR 0x01C) 31 = false ∧ rf s (rdlR 0x028) 30 16 ≤ phaseOf s then
    selectTry (modRdl (rdlFlag s 2 .levelLate) fun r => { r with late := true })
  else s

def execLevelDeadline (s : State) : Out := .next (live s levelLate)

/-- A write of RDL_LEVEL; one after LEVEL_DL comes too late for its tick (R153). -/
def levelWrite (s : State) (o : Origin) (val : Word) : State :=
  genWrite (if rf s (rdlR 0x028) 30 16 < phaseOf s then levelLate s else s) o (rdlR 0x01C) val

def execLevelGoWrite (o : Origin) (val : Word) (s : State) : Out :=
  .next (live s fun s => gate s (rdlR 0x01C) fun s => levelWrite s o val)

/-- A write of RDL_CTRL: 1 to ENABLE starts the Riddle (R147); 0 is stored and stops nothing: the model's choice. (Log 120 DESIGN CHOICE unsafe.) -/
def rdlCtrlWrite (s : State) (o : Origin) (val : Word) : State :=
  let s := genWrite s o (rdlR 0x000) val
  if bitOf val 0 then rdlStart s else s

def execRdlEnableWrite (o : Origin) (val : Word) (s : State) : Out := .next (live s fun s => gate s (rdlR 0x000) fun s => rdlCtrlWrite s o val)

/-- R150, R146: a BINS is kept for the next tick and goes on to every DOWN port. -/
def binsIn (s : State) (p : Nat) (pk : Packet) : State :=
  let w := pk.payload.getD 0 0
  if isCell s && isActive s p && (dirOf s p == 1 || dirOf s p == 2) && pk.seq.toNat == (tt8 s + 1) % 256 then
    let s := modRdl s fun r => { r with binsNew := some ⟨fld w 31 16, fld w 15 0, fld (pk.payload.getD 1 0) 31 28⟩ }
    (downPorts s).foldl (fun s q => if isActive s q then enqueue s q (hopPacket s 0x11 pk.seq.toNat pk.payload) false else s) s
  else s

def execBinsRx (p : Port) (pk : Packet) (s : State) : Out := .next (live s fun s => hopIn s 0x11 pk fun s => binsIn s p.val pk)

/-- The state a cell holds through a tick without its own quota (R165, R167): its full state, or 0 when it was the
fractional cell or has held HOLD_LIMIT ticks. -/
def holdState (s : State) : Option Decision :=
  match s.rdl.state with
  | .blocked => none
  | .bypassed => none
  | st =>
    some ⟨if s.rdl.fracNow || s.rdl.pulse.isSome || decide (holdLimit s ≤ s.rdl.holdRun) then .zero else st, false, 0⟩

/-- The cell holds for this tick; past HOLD_LIMIT its stored counts are 0 as well. (Log 59 DEDUCED safe.) -/
def holdTick (s : State) : State :=
  let d := if running s then holdState s else none
  let past := decide (holdLimit s ≤ s.rdl.holdRun)
  modRdl s fun r =>
    { r with dec := d, gotDesc := true, holdRun := Nat.min 15 (r.holdRun + 1), heldCnt := if past then [] else r.heldCnt }

/-- FIRST_EDGE in units of LT. -/
def firstEdge (s : State) : Nat := rf s (rdlR 0x048) 14 0

/-- RDL_CTRL FULLBRIDGE. -/
def fullBridge (s : State) : Bool := rb s (rdlR 0x000) 2

/-- T_on of a duty (R180), in 2 ns units, halves up. -/
def tOn (s : State) (fduty : Nat) : Nat := (2 * fduty * periodLt s + 65536) / 131072

/-- The state a cell takes from a quota and its share (R159, R162, R171, R502). -/
def cellState (s : State) (q : Quota) (share : Nat) (fr : Bool) : Decision :=
  let bp := if q.cb = 3 then none else orderPos q.dir q.cb q.bin
  let full : Cell := if q.neg then (if fullBridge s then .minus else .zero) else .plus
  let inside := match bp, orderPos q.dir s.rdl.cls s.rdl.bin with
    | some b, some m => decide (m < b) || (m == b && decide (0 < share))
    | _, _ => false
  let at_ := match bp, orderPos q.dir s.rdl.cls s.rdl.bin with
    | some b, some m => m == b
    | _, _ => false
  if !inside then ⟨.zero, false, 0⟩
  else if at_ && fr then (if full = .zero then ⟨.zero, false, 0⟩ else ⟨full, true, tOn s q.fduty⟩)
  else ⟨full, false, 0⟩

/-- A cell in READY enters RUN on a whole DESCENT, when the ledger admits deblocking and QUARANTINE is not held
(Table 17-5, R213). -/
def deblock (s : State) : State :=
  if modeOf s ≠ .ready then s
  else if quarHeld s then s
  else if deblockAdmit s (enChans s) then setMode s .run else ledgerRefuse s

/-- R160, R165, R179: a DESCENT arrives. (Log 59 DEDUCED safe.) -/
def descentIn (s : State) (p : Nat) (pk : Packet) : State :=
  let ok := isCell s && isActive s p && (dirOf s p == 1 || dirOf s p == 2) && pk.seq.toNat == tt8 s && !s.rdl.gotDesc &&
    decide (phaseOf s ≤ firstEdge s)
  if !ok then s
  else
    let q := quotaOf pk.payload
    if q.hold then
      let s := holdTick s
      let ds := (downPorts s).filter fun d =>
        (kget none s.rdl.inp (ppKey q.plane d)).isSome || s.rdl.heldNow.contains (ppKey q.plane d)
      ds.foldl (fun s d => descSend s d q) s
    else
      let s := deblock s
      let (s, share, fr) := splitSend s q
      let s := modRdl s fun r => { r with gotDesc := true, holdRun := 0 }
      if !running s then s
      else
        let want := cellState s { q with neg := false } share fr
        let s := if q.neg && !fullBridge s && want.st != .zero then report (flag s rdlStat 8) 129 .levelRange rdlStat else s
        modRdl s fun r => { r with dec := if r.state = .bypassed then none else some (cellState s q share fr) }

def execDescentRx (p : Port) (pk : Packet) (s : State) : Out := .next (live s fun s => hopIn s 0x12 pk fun s => descentIn s p.val pk)

/-- R165, R179: no DESCENT by the first edge phase. A cell in state B holds it. (Log 59 DEDUCED safe.) -/
def descentMissed (s : State) : State :=
  if isCell s && s.tmk.ticked && !s.rdl.gotDesc && decide (firstEdge s ≤ phaseOf s) then
    report (flag (holdTick s) rdlStat 0x100) 129 .descentMissing rdlStat
  else s

def execDescentDeadline (s : State) : Out := .next (live s descentMissed)

end Sys2Proof.Machine
end

