-- ==== Sys2Proof/Machine/Insertion.lean ====
section
/-! DEFINITION. Insertion and modulation at the cell: the edge instant, the switch patterns, the staging of leg B,
the fractional pulse, and forced states in test. Times are in 2 ns units. -/

namespace Sys2Proof.Machine

open Sys2Proof

/-- The fields of Tables 6-5 to 6-8, as they count. -/
def stagger (s : State) : Nat := Nat.max 50 (rf s (rdlR 0x048) 31 24)
def layerStep (s : State) : Nat := Nat.max 1 (rf s (rdlR 0x048) 23 20)
def nLayer (s : State) : Nat := Nat.max 1 (rf s (rdlR 0x04C) 28 24)
def nSlot (s : State) : Nat := Nat.max 1 (rf s (rdlR 0x04C) 23 16)
def edgePos (s : State) : Nat := rf s (rdlR 0x04C) 10 0
def minOff (s : State) : Nat := Nat.max 50 (rf s (rdlR 0x050) 23 12)
def minOn (s : State) : Nat := rf s (rdlR 0x050) 11 0
def legGap (s : State) : Nat := Nat.min 250 (rf s (rdlR 0x054) 23 16)
def edgeSpan (s : State) : Nat := (nLayer s - 1) * layerStep s
def edgeStat : Nat := rdlR 0x058

/-- The edge instant of each tick as a phase (R174). -/
def edgePhase (s : State) : Nat :=
  firstEdge s + (edgePos s % nSlot s) * stagger s + edgePos s / nSlot s * layerStep s

/-- The conditions of R175 for a period in units of LT. -/
def edgeCfgOk (s : State) (period : Nat) : Bool :=
  decide (edgePos s < nSlot s * nLayer s) && decide (edgeSpan s + 20 ≤ stagger s) &&
    decide (firstEdge s + (nSlot s - 1) * stagger s + edgeSpan s + legGap s < period) &&
    (legGap s == 0 || (decide (edgeSpan s + 10 ≤ legGap s) && decide (legGap s + edgeSpan s + 10 ≤ stagger s))) &&
    decide (minOn s + minOff s < period)

/-- A broken condition of R175 is marked and reported. -/
def edgeCfgFault (s : State) : State := report (flag s edgeStat 8) 130 .edgeCfg edgeStat

/-- The switches of a state on leg A and on leg B, upper then lower (Table 6-1). -/
def legA (full : Bool) : Cell → Bool × Bool
  | .plus => (true, false)
  | .zero => (false, true)
  | .minus => if full then (false, true) else (false, true)
  | .blocked => (false, false)
  | .bypassed => (false, false)

def legB (full : Bool) : Cell → Bool × Bool
  | .plus => if full then (false, true) else (false, false)
  | .zero => if full then (false, true) else (false, false)
  | .minus => if full then (true, false) else (false, false)
  | .blocked => (false, false)
  | .bypassed => (false, false)

/-- The channels a state turns on. -/
def stateChans (full : Bool) (c : Cell) : List Nat :=
  let a := legA full c
  let b := legB full c
  [(0, a.1), (1, a.2), (2, b.1), (3, b.2)].filterMap fun e => if e.2 then some e.1 else none

/-- The switches asked of a leg now. -/
def legWant (s : State) (l : Nat) : Bool × Bool := (has8 s.swg.want (2 * l), has8 s.swg.want (2 * l + 1))

/-- The cell takes a state: leg A at once, leg B with it or LEG_GAP later when both move (R177, R178). -/
def cellTake (s : State) (c : Cell) (fr : Bool) : State :=
  let f := fullBridge s
  let a := legA f c
  let b := legB f c
  let both := legWant s 0 != a && legWant s 1 != b
  let s := modRdl s fun r => { r with state := c, fracNow := fr, legB := none }
  let s := legSet s 0 a.1 a.2
  if both && legGap s != 0 then modRdl s fun r => { r with legB := some c } else legSet s 1 b.1 b.2

/-- The off edge of a pulse of duty t from phase te (R181, R182): its final length, and whether it was limited or
moved; none where the pulse is too short. (Log 63 DEDUCED unsafe.) -/
def pulseShape (s : State) (te t : Nat) : Option (Nat × Bool × Bool) :=
  if t < minOn s then none
  else
    let per := periodLt s
    let lim := per - minOff s
    let t1 := Nat.min t lim
    let clip := decide (lim < t)
    let len := edgeSpan s + 20
    let gaps := if legGap s = 0 then [0] else [0, legGap s]
    let starts := (List.range (nSlot s)).flatMap fun k => gaps.map fun g => firstEdge s + k * stagger s + g + per - 10
    match starts.find? fun w => decide ((te + t1 + per * 4 - w) % per ≤ len) with
    | some w => some (t1 + (len - (te + t1 + per * 4 - w) % per), clip, true)
    | none => some (t1, clip, false)

/-- The edge of a decision at the edge instant. -/
def edgeTake (s : State) (d : Decision) : State :=
  let s := modRdl s fun r => { r with pulse := none }
  if !d.frac then cellTake s d.st false
  else
    let te := edgePhase s
    match pulseShape s te d.ton with
    | none => cellTake (flag s edgeStat 2) .zero false
    | some (t, clip, defer) =>
      let s := cellTake s d.st true
      modRdl s fun r => { r with pulse := some ⟨now s - phaseOf s + te + t, t, clip, defer⟩ }

/-- A forced state at the edge instant of READY (R185, R188). -/
def forcedEdge (s : State) : State :=
  match s.rdl.forceNow, s.rdl.forced with
  | some f, _ =>
    cellTake (modRdl s fun r => { r with forced := some ⟨f.st, f.left - 1⟩, forceNow := none }) f.st false
  | none, some f =>
    if f.left = 0 then cellTake (modRdl s fun r => { r with forced := none }) .blocked false
    else cellTake (modRdl s fun r => { r with forced := some ⟨f.st, f.left - 1⟩ }) f.st false
  | none, none => s

/-- R177: the edge instant. -/
def edgeInstant (s : State) : State :=
  if !isCell s || s.rdl.edgeDone || decide (phaseOf s < edgePhase s) then s
  else
    let s := descentMissed s
    let s := modRdl s fun r => { r with edgeDone := true }
    if running s then
      match s.rdl.dec with
      | some d => modRdl (edgeTake s d) fun r => { r with dec := none }
      | none => s
    else if modeOf s = .ready then forcedEdge s
    else s

def execEdgeInstant (s : State) : Out := .next (live s edgeInstant)

/-- R178: leg B follows at t_e + LEG_GAP. -/
def execLegBEdge (s : State) : Out :=
  .next (live s fun s =>
    match s.rdl.legB with
    | some c =>
      if edgePhase s + legGap s ≤ phaseOf s then
        let b := legB (fullBridge s) c
        legSet (modRdl s fun r => { r with legB := none }) 1 b.1 b.2
      else s
    | none => s)

/-- R180 to R182: the off edge of the fractional pulse. (Log 63 DEDUCED unsafe.) -/
def execFracOffEdge (s : State) : Out :=
  .next (live s fun s =>
    match s.rdl.pulse with
    | some p =>
      if p.offAt ≤ now s then
        let s := cellTake (modRdl s fun r => { r with pulse := none }) .zero false
        let s := if p.clip then flag s edgeStat 2 else s
        let s := if p.defer then flag s edgeStat 4 else s
        setRf s edgeStat 31 16 p.ton
      else s
    | none => s)

/-- The state an INSERT names (Table 6-3). -/
def insertCell : Nat → Option Cell
  | 0 => some .zero
  | 1 => some .plus
  | 2 => some .minus
  | 3 => some .blocked
  | _ => none

/-- An INSERT is refused (R187). -/
def insertRefuse (s : State) : State := report (flag s edgeStat 1) 130 .insertRefused edgeStat

/-- R187, R188, R213: an INSERT arrives. (Log 64 DEDUCED safe.) -/
def insertIn (s : State) (pk : Packet) : State :=
  let w := pk.payload.getD 0 0
  if !isCell s then s
  else
    match insertCell (fld w 31 29) with
    | some c =>
      if modeOf s = .ready ∧ rb s (rdlR 0x054) 0 = true ∧ fld w 15 8 ≠ 0 ∧ (c ≠ .minus ∨ fullBridge s = true) then
        if deblockAdmit s ((stateChans (fullBridge s) c).filter (chOn s)) then
          modRdl s fun r => { r with forceNew := some ⟨c, fld w 15 8⟩ }
        else insertRefuse (ledgerRefuse s)
      else insertRefuse s
    | none => insertRefuse s

def execInsertRx (pk : Packet) (s : State) : Out :=
  .next (live s fun s => ownIn s [0x13] pk fun s => if epOf pk.dest = 0 then insertIn s pk else s)

/-- A write of RDL_CELL_CFG: clearing INSERT_EN ends a forced state (R189). -/
def cellCfgWrite (s : State) (o : Origin) (val : Word) : State :=
  let s := genWrite s o (rdlR 0x054) val
  if rb s (rdlR 0x054) 0 then s else forcedEnd s

end Sys2Proof.Machine
end

