-- ==== Sys2Proof/Machine/Loop.lean ====
section
/-! DEFINITION. The loop engine: sources and their validity, the Class S job with its states, the Class Q
cascades, the checks of both, the reference buffer, and what a tick application does to them. -/

namespace Sys2Proof.Machine

open Sys2Proof

def siCtrl (i : Nat) : Nat := lpeR (0x100 + 0x80 * i)
def siSize (i : Nat) : Nat := lpeR (0x104 + 0x80 * i)
def siStat (i : Nat) : Nat := lpeR (0x108 + 0x80 * i)
def siPhase (i : Nat) : Nat := lpeR (0x10C + 0x80 * i)
def siU (i m : Nat) : Nat := lpeR (0x160 + 0x80 * i + 4 * m)
def secR (k w : Nat) : Nat := lpeR (0x2000 + 0x20 * k + 4 * w)

def instOf (s : State) (i : Nat) : Inst := kget default s.lpe.inst i
def modInst (s : State) (i : Nat) (f : Inst → Inst) : State := modLpe s fun l => { l with inst := kmod default l.inst i f }

/-- The sizes NO, NZ, M, P, NR of an instance. -/
structure Sizes where
  no : Nat
  nz : Nat
  m  : Nat
  p  : Nat
  nr : Nat
  deriving DecidableEq, Repr

def sizesOf (s : State) (i : Nat) : Sizes :=
  let w := reg s (siSize i)
  ⟨fld w 20 16, fld w 15 12, fld w 11 8, fld w 7 4, fld w 3 0⟩

/-- The byte of instance i in a register of one byte each. -/
def lpeByte (s : State) (o i : Nat) : Nat := rf s (lpeR o) (8 * i + 7) (8 * i)

/-- A configuration is refused: LPE_CFG. -/
def lpeCfgFault (s : State) (a : Nat) : State := report s 245 .lpeCfg a

/-- The start condition of R247 for a period in units of LT. -/
def lpeStartOk (s : State) (i period : Nat) : Bool := decide (rf s (siPhase i) 14 0 + 450 ≤ period)

/-- The checks of R247 for ENABLE = 1 with the tracked pairs given; Class S runs in upper roles only (R240). -/
def lpeCheck (s : State) (i track : Nat) : Bool :=
  let z := sizesOf s i
  isUpper s && decide (1 ≤ z.no) && decide (z.no ≤ 16) && decide (z.no + z.nz ≤ 16) &&
    decide (1 ≤ z.m) && decide (z.m ≤ 8) && decide (1 ≤ z.p) && decide (z.p ≤ 8) && decide (1 ≤ z.nr) && decide (z.nr ≤ 8) &&
    decide (z.nz ≤ Nat.min z.p z.nr) && decide (track < 2 ^ Nat.min z.p z.nr) && lpeStartOk s i (periodLt s)

/-- The RESULT of a sigma-delta channel that triggered a run. -/
def hitOf (hit : Option (Nat × Word)) (ix : Nat) : Option Word :=
  match hit with
  | some (n, w) => if n = ix then some w else none
  | none => none

/-- The raw value of a source (Table 9-4), as fp32; `hit` is the sigma-delta result that triggered a cascade. -/
def srcRaw (s : State) (hit : Option (Nat × Word)) (kind ix : Nat) : Word :=
  let int (i : Int) : Word := (fpOfInt i).1
  let sar (c : Nat) : Word := int (if rb s (snsCfgR c) 31 then sext 16 (snapOf s c) else (snapOf s c : Nat))
  match kind with
  | 1 => if ix ≤ 16 then sar ix else 0
  | 2 => if ix < 8 then int ((hitOf hit ix).getD (reg s (sdRes ix + 4))).toInt else 0
  | 3 => if ix < 512 then int (reg s (stpR (0x1000 + 0x100 * (ix / 32) + 8 * (ix % 32)))).toInt else 0
  | 4 => let w := reg s (snsR 0x50C); int (if rf s (snsR 0x500) 25 24 = 1 then (w.toNat : Int) else w.toInt)
  | 5 => kget 0 s.lpe.hreg (ix % 32)
  | 6 => reg s (lpeR (0x700 + 4 * (ix % 64)))
  | 7 => reg s (qcR (ix % 16) 0x1C)
  | 8 => reg s (siU (ix / 8 % 4) (ix % 8))
  | 9 => sar (rf s (snsR 0x018) 2 0)
  | 10 => reg s (lpeMem (ix / 8 % 4) (32 + ix % 8))
  | _ => 0

/-- The nominal rates of R325, samples/s. -/
def svRate (s : State) (k : Nat) : Nat :=
  [4000, 4800, 12800, 14400, 96000].getD (rf s (stpR (0x400 + 0x40 * k)) 22 20) 4800

/-- ceil(1.5 * T_s / period) of a stream (Table 9-5). -/
def svLimit (s : State) (k : Nat) : Nat := divUp (3 * 1000000) (svRate s k * s.tmk.period)

/-- A SAR channel is valid in this tick. -/
def sarValid (s : State) (c : Nat) : Bool := !s.sns.tFrozen.toNat.testBit c && !s.sns.stale.contains c

/-- The validity of a source (R249, Table 9-5), as it was at the tick application but for a triggering result (R20); frz
is FRZ_N of the instance, 0 for none. -/
def srcValid (s : State) (hit : Option (Nat × Word)) (frz kind ix : Nat) (raw : Word) : Bool :=
  !fpBad raw &&
  (match kind with
   | 1 => sarValid s ix
   | 9 => sarValid s (rf s (snsR 0x018) 2 0) && rb s (snsR 0x018) 31
   | 2 => has8 (if (hitOf hit ix).isSome then s.sns.sdValid else s.sns.tSd) (ix % 8) && !(frz != 0 && decide (frz ≤ kget 0 s.sns.sdSame ix))
   | 3 =>
     let k := ix / 32
     decide (kget 0 s.stp.svIdle k < svLimit s k) && !kget false s.stp.svLate k &&
       (kget 0 s.stp.svGood k).toNat.testBit (ix % 32) && !(frz != 0 && decide (frz ≤ kget 0 s.stp.svSame ix))
   | 4 => !s.sns.tQuiet
   | 6 => rb s (lpeR 0x018) 31
   | 7 => rb s (qcR (ix % 16) 0) 31 && !rb s (qcR (ix % 16) 0) 0
   | _ => true)

/-- A word of the coefficient bank in force. -/
def coef (s : State) (i k : Nat) : Word := reg s (lpeR (0x8000 + 0x2000 * i + 0x1000 * b2n (instOf s i).bank + 4 * k))

/-- A dot product in ascending index order, one fused multiply-add a term (R243). (Log 71 DEDUCED unsafe.) -/
def dot (a b : List Word) : Word := (List.zip a b).foldl (fun c e => (fpFma e.1 e.2 c).1) 0

def addW (a b : Word) : Word := (fpAdd a b).1
def subW (a b : Word) : Word := (fpSub a b).1
def mulW (a b : Word) : Word := (fpMul a b).1

/-- n coefficients from word k. -/
def coefs (s : State) (i k n : Nat) : List Word := (List.range n).map fun c => coef s i (k + c)

/-- n words of state memory from word w. -/
def memWs (s : State) (i w n : Nat) : List Word := (List.range n).map fun c => reg s (lpeMem i (w + c))

/-- min(max(v, lo), hi), a NaN staying one. -/
def clampW (lo hi v : Word) : Word := if fpIsNan v then fpNan else fpClamp lo hi v

/-- The Class Q addition a_m of an output (R261): the outputs of the cascades that add into it. (Log 75 DEDUCED unsafe.) -/
def qAddition (s : State) (i m : Nat) : Word :=
  (List.range 16).foldl (fun a c =>
    if rb s (qcR c 0) 31 && rb s (qcR c 8) 31 && rf s (qcR c 8) 4 3 == i && rf s (qcR c 8) 2 0 == m then addW a (reg s (qcR c 0x1C)) else a) 0

/-- The instance runs as in SETTLE: in that state, and in PRECHARGE and READY (R258). (Log 72 DEDUCED unsafe.) -/
def asSettle (s : State) (st : LoopSt) : Bool := st == .settle || modeOf s == .precharge || modeOf s == .ready

/-- What a job has computed. -/
structure Job where
  u   : List Word
  x   : List Word
  z   : List Word
  r   : List Word
  y   : List Word
  e   : List Word
  sat : Bool
  deriving DecidableEq, Repr

/-- The state x_i that row j of C measures directly, if any (R256). -/
def directState (s : State) (i no j : Nat) : Option Nat :=
  let row := coefs s i (384 + 16 * j) no
  let nz := (List.range no).filter fun k => fpCmp (row.getD k 0) 0 != 0 || fpBad (row.getD k 0)
  match nz with
  | [k] => if row.getD k 0 = 0x3F800000 then some k else none
  | _ => none

/-- Directly measured states take their measurements (R256); the lowest row wins. -/
def seedStates (s : State) (i : Nat) (z : Sizes) (x y : List Word) : List Word :=
  (List.range z.no).map fun k =>
    match (List.range z.p).find? fun j => directState s i z.no j == some k with
    | some j => y.getD j 0
    | none => x.getD k 0

/-- Steps 1 to 10 of Table 9-1 (R242 to R245, R250), for the measurements, their validity and the state the job
computes in. (Log 71 DEDUCED unsafe.) -/
def jobRun (s : State) (i : Nat) (st : LoopSt) (z : Sizes) (y0 : List Word) (ok : List Bool) (rs : List (Word × Bool))
    (seed : Bool) : Job :=
  let cf := coef s i
  let settling := asSettle s st
  let x0 := memWs s i 0 z.no
  let x := if seed then seedStates s i z x0 y0 else x0
  let zi := memWs s i z.no z.nz
  let yh := (List.range z.p).map fun j => dot (coefs s i (384 + 16 * j) z.no) x
  let y := (List.range z.p).map fun j => if ok.getD j false then y0.getD j 0 else yh.getD j 0
  let inn := List.zipWith subW y yh
  let xc := (List.range z.no).map fun k => addW (x.getD k 0) (dot (coefs s i (512 + 8 * k) z.p) inn)
  let r := (List.range z.nr).map fun j =>
    let old := reg s (lpeMem i (16 + j))
    match rs.getD j (0, false) with
    | (_, false) => old
    | (raw, true) =>
      let t := mulW (cf (904 + j)) (subW raw (cf (912 + j)))
      let sl := cf (920 + j)
      if fpCmp sl 0 = 0 then t else addW old (clampW (fpNeg sl) sl (subW t old))
  let e := (List.range (Nat.min z.p z.nr)).map fun q => subW (r.getD q 0) (y.getD q 0)
  let v := (List.range z.m).map fun m =>
    let a := addW (addW (dot (coefs s i (768 + 8 * m) z.nr) r) (cf (840 + m))) (qAddition s i m)
    if settling then a else subW a (dot (coefs s i (640 + 16 * m) (z.no + z.nz)) (xc ++ zi))
  let held := !settling && st == .hold
  let u := (List.range z.m).map fun m => if held then reg s (siU i m) else clampW (cf (848 + m)) (cf (856 + m)) (v.getD m 0)
  let side (m : Nat) : Int := if held then 0 else if fpCmp (cf (856 + m)) (v.getD m 0) < 0 then 1 else if fpCmp (v.getD m 0) (cf (848 + m)) < 0 then -1 else 0
  let z' := (List.range z.nz).map fun q =>
    let old := zi.getD q 0
    let new := clampW (cf (864 + q)) (cf (872 + q)) (addW old (mulW (cf (832 + q)) (e.getD q 0)))
    let d := fpCmp new old
    let wind := (List.range z.m).any fun m =>
      let k := fpCmp (cf (640 + 16 * m + z.no + q)) 0
      k != 0 && side m != 0 && decide (0 < side m * (-(k * d)))
    if !ok.getD q false || held || settling || s.sys.pair.gap || wind then (if settling then 0 else old) else new
  let x' := (List.range z.no).map fun k => addW (dot (coefs s i (16 * k) z.no) xc) (dot (coefs s i (256 + 8 * k) z.m) u)
  ⟨u, x', z', r, y, e, (List.range z.m).any fun m => side m != 0⟩

/-- Words are written from an address on. -/
def putWords (s : State) (a : Nat) (ws : List Word) : State :=
  (List.range ws.length).foldl (fun s k => setReg s (a + 4 * k) (ws.getD k 0)) s

/-- The state of an instance after a tick with or without every measurement valid (R252 to R254, R257). -/
def instNext (s : State) (i : Nat) (x : Inst) (allOk : Bool) : Inst :=
  let coast := lpeByte s 0x004 i
  let up := Nat.min 511 (x.runCnt + 1)
  match x.st with
  | .settle => if allOk then { x with runCnt := up } else if running s then { x with loss := Nat.min 511 (x.loss + 1) } else x
  | .normal => if allOk then x else { x with st := if coast = 0 then .hold else .coast, runCnt := 1, okRun := false }
  | .coast =>
    if allOk then { x with st := .normal, runCnt := 0 }
    else { x with st := if coast ≤ x.runCnt then .hold else .coast, runCnt := up, okRun := false }
  | .hold =>
    if allOk && x.okRun then { x with st := .normal, runCnt := 0, okRun := false }
    else { x with runCnt := up, okRun := allOk }
  | _ => x

/-- The end of SETTLE (R257): in PRECHARGE and READY the instance stays in it (R258). (Log 72 DEDUCED unsafe.) -/
def settleEnd (s : State) (i : Nat) (x : Inst) : Inst :=
  if x.st = .settle ∧ Nat.max 1 (lpeByte s 0x00C i) ≤ x.runCnt ∧ modeOf s ≠ .precharge ∧ modeOf s ≠ .ready then
    { x with st := .normal, runCnt := 0, loss := 0 }
  else x

/-- R251 on the set-points and measurements in state memory. -/
def followErr (s : State) (i : Nat) (z : Sizes) (st : LoopSt) : State :=
  let track := rf s (siCtrl i) 23 16
  let out := (List.range (Nat.min z.p z.nr)).any fun q =>
    track.testBit q && decide (0 < fpCmp (fpAbs (subW (reg s (lpeMem i (16 + q))) (reg s (lpeMem i (24 + q))))) (coef s i (880 + q)))
  let s := modInst s i fun x =>
    { x with feCnt := if asSettle s st then 0 else if st == .hold || out then Nat.min 255 (x.feCnt + 1) else x.feCnt - 1 }
  if decide (Nat.max 1 (rf s (siCtrl i) 15 8) ≤ (instOf s i).feCnt) && !rb s (siStat i) 0 then
    report (flag s (siStat i) 1) (224 + i) .followErr (siStat i)
  else s

/-- R255: the feedback of an instance is lost. -/
def feedbackLost (s : State) (i : Nat) : State :=
  let x := instOf s i
  let lim := lpeByte s 0x004 i + Nat.max 1 (lpeByte s 0x008 i) + 1
  let n := if x.st == .settle then x.loss else if x.st == .coast || x.st == .hold then x.runCnt else 0
  if running s && decide (lim ≤ n) then
    enterSafe (report (flag s (siStat i) 2) (224 + i) .fbLost (siStat i)) 16 (some (224 + i))
  else s

/-- Every enabled instance has run its job in this tick: the LPE event. -/
def lpeEvent (s : State) : State :=
  if (List.range 4).all fun i => let x := instOf s i; x.st == .off || x.st == .stopped || x.ran then raiseEvAll s 0x1000 else s

/-- The job of an instance (R241, R242, R244, R249 to R258). (Log 73 DEDUCED unsafe.) -/
def classS (s : State) (i : Nat) : State :=
  let x := instOf s i
  let z := sizesOf s i
  let idle := x.st == .off || x.st == .stopped || modeOf s == .boot || modeOf s == .safe
  if idle || x.ran || decide (phaseOf s < rf s (siPhase i) 14 0) then s
  else
    let frz := lpeByte s 0x010 i
    let raws := (List.range z.p).map fun j =>
      let a := reg s (lpeR (0x120 + 0x80 * i + 4 * j))
      let w := srcRaw s none (fld a 15 12) (fld a 11 0)
      (w, srcValid s none frz (fld a 15 12) (fld a 11 0) w)
    let ok := raws.map (·.2)
    let y0 := (List.range z.p).map fun j => mulW (coef s i (888 + j)) (subW (raws.getD j (0, false)).1 (coef s i (896 + j)))
    let rs := (List.range z.nr).map fun j =>
      let a := kget 0 x.rsrc j
      let w := srcRaw s none (fld a 15 12) (fld a 11 0)
      (w, srcValid s none frz (fld a 15 12) (fld a 11 0) w)
    let allOk := ok.all id
    let seed := x.st == .settle && allOk && !x.seeded
    let nx := instNext s i x allOk
    let j := jobRun s i nx.st z y0 ok rs seed
    let bad := (j.u ++ j.x ++ j.z).any fpBad
    let s := modInst s i fun y => { y with ran := true }
    let s :=
      if bad then
        let s := report (flag s (siStat i) 0x10) (224 + i) .lpeNan (siStat i)
        modInst s i fun y => { instNext s i { y with ran := true } false with ran := true }
      else
        let s := putWords (putWords (putWords s (lpeMem i 0) (j.x ++ j.z)) (lpeMem i 16) j.r) (lpeMem i 24) j.y
        let s := putWords (putWords s (lpeMem i 32) j.e) (siU i 0) j.u
        let s := if j.sat then flag s (siStat i) 8 else s
        let s := (List.range z.nr).foldl (fun s q =>
          let bit := BitVec.ofNat 8 (2 ^ q)
          if (rs.getD q (0, true)).2 then modInst s i fun y => { y with setHold := y.setHold &&& ~~~ bit }
          else if (instOf s i).setHold &&& bit = 0 then
            report (modInst s i fun y => { y with setHold := y.setHold ||| bit }) (224 + i) .setpLost (siStat i)
          else s) s
        modInst s i fun y => { nx with ran := true, setHold := y.setHold, seeded := y.seeded || seed }
    let s := followErr s i z (instOf s i).st
    let s := modInst s i (settleEnd s i)
    lpeEvent (feedbackLost s i)

def execClassSJob (ix : Fin 4) (s : State) : Out := .next (live s fun s => classS s ix.val)

/-- A write of LPE_SiCTRL (R246, R247): SWAP waits for the tick, ENABLE is checked. The job of the running tick is due if
its START is still to come (R241). -/
def siCtrlWrite (s : State) (o : Origin) (i : Nat) (val : Word) : State :=
  let was := rb s (siCtrl i) 0
  let bad := bitOf val 0 && !was && !lpeCheck s i (fld val 23 16)
  let s := genWrite s o (siCtrl i) (if bad then setBit val 0 false else val)
  if bad then lpeCfgFault s (siCtrl i)
  else if bitOf val 0 && !was then
    settle (modInst s i fun x =>
      { x with ran := !s.tmk.ticked || decide (rf s (siPhase i) 14 0 ≤ phaseOf s), setHold := 0
               rsrc := (List.range 8).foldl (fun m j => kput 0 m j (reg s (lpeR (0x140 + 0x80 * i + 4 * j)))) [] }) i
  else if !bitOf val 0 && was then modInst s i fun x => { x with st := .off }
  else s

def execLpeEnableWrite (o : Origin) (ix : Fin 4) (val : Word) (s : State) : Out :=
  .next (live s fun s => siCtrlWrite s o ix.val val)

def execSwapRequest (o : Origin) (ix : Fin 4) (s : State) : Out :=
  .next (live s fun s => siCtrlWrite s o ix.val (setBit (reg s (siCtrl ix.val)) 31 true))

/-- The trigger rate of a cascade as a fraction of samples/s (R262), following CHAIN at most n times; none on a
cycle or for a trigger that does not exist. -/
def qRate (ctl : Nat → Word) (s : State) : Nat → Nat → Nat → Option (Nat × Nat)
  | 0, _, _ => none
  | n + 1, c, per =>
    let w := ctl c
    let x := fld w 27 24
    match fld w 30 28 with
    | 0 => some (2000000, per)
    | 1 => if x < 8 then some (1000000000, sdTout s (reg s (sdCfg x))) else none
    | 2 => some (svRate s x, 1)
    | 3 => qRate ctl s n x per
    | _ => none

/-- One cascade's own conditions of R262. -/
def qOwnOk (ctl : Nat → Word) (s : State) (per c : Nat) : Bool :=
  let w := ctl c
  let n := fld w 13 8
  match qRate ctl s 17 c per with
  | none => false
  | some (a, b) =>
    decide (1 ≤ n) && decide (n ≤ 32) && decide (fld w 22 16 + n ≤ 128) &&
      (if n ≤ 8 then decide (a ≤ 1000000 * b) else decide (a * n ≤ 8000000 * b))

/-- The load of the enabled cascades as a fraction. (Log 74 DEDUCED unsafe.) -/
def qLoadF (ctl : Nat → Word) (s : State) (per : Nat) : Nat × Nat :=
  (List.range 16).foldl (fun acc c =>
    if bitOf (ctl c) 31 then
      match qRate ctl s 17 c per with
      | some (a, b) => (acc.1 * (b * 1000000000) + a * (32 + 16 * fld (ctl c) 13 8) * acc.2, acc.2 * (b * 1000000000))
      | none => acc
    else acc) (0, 1)

/-- R262 for the cascades as they stand under a period. -/
def qOk (ctl : Nat → Word) (s : State) (per : Nat) : Bool :=
  let l := qLoadF ctl s per
  ((List.range 16).all fun c => !bitOf (ctl c) 31 || qOwnOk ctl s per c) && decide (10 * l.1 ≤ 9 * l.2)

def qCtl (s : State) (c : Nat) : Word := reg s (qcR c 0)

/-- LPE_QLOAD: the sum of R262 in units of 1/1,024. -/
def qLoad (s : State) : Nat :=
  let l := qLoadF (qCtl s) s s.tmk.period
  l.1 * 1024 / l.2 % 2048

/-- A cascade that is switched off has no trigger and no run. -/
def qStop (s : State) (c : Nat) : State :=
  modLpe s fun l => { l with pend := l.pend.filter (·.c != c), runs := l.runs.filter (·.c != c) }

/-- A write of LPE_QcCTRL (R262, R263). (Log 75 DEDUCED unsafe.) -/
def qCtrlWrite (s : State) (o : Origin) (c : Nat) (val : Word) : State :=
  let was := rb s (qcR c 0) 31
  let ok := qOk (fun k => if k = c then val else qCtl s k) s s.tmk.period
  if !bitOf val 31 then qStop (genWrite s o (qcR c 0) val) c
  else if ok then genWrite s o (qcR c 0) val
  else
    let s := lpeCfgFault s (qcR c 0)
    if was then s else genWrite s o (qcR c 0) (setBit val 31 false)

def execCascadeEnWrite (o : Origin) (c : Fin 16) (val : Word) (s : State) : Out :=
  .next (live s fun s => qCtrlWrite s o c.val val)

/-- One section (R260): its output, and S1 and S2 after it. -/
def sectionRun (s : State) (k : Nat) (x : Word) : Word × Word × Word :=
  let w (j : Nat) : Word := reg s (secR k j)
  let y := addW (mulW (w 0) x) (w 5)
  (y, addW (subW (mulW (w 1) x) (mulW (w 3) y)) (w 6), subW (mulW (w 2) x) (mulW (w 4) y))

/-- n sections from k: the output of the last, and S1 and S2 of each. -/
def sectionsRun (s : State) : Nat → Nat → Word → Word × List (Word × Word)
  | 0, _, x => (x, [])
  | n + 1, k, x =>
    let r := sectionRun s k x
    let t := sectionsRun s n (k + 1) r.1
    (t.1, r.2 :: t.2)

/-- A cascade adds into an instance that holds it frozen (R264). (Log 74 DEDUCED unsafe.) -/
def qFrozen (s : State) (c : Nat) : Bool :=
  rb s (qcR c 8) 31 && (let st := (instOf s (rf s (qcR c 8) 4 3)).st; st == .hold || st == .settle || st == .stopped)

/-- The run of a cascade that starts now, on a raw value (R261, R262): it completes 32 + 16 COUNT ns later. -/
def qRunOf (s : State) (c : Nat) (hit : Option (Nat × Word)) (raw : Word) : QRun :=
  let ctl := qCtl s c
  let r := sectionsRun s (fld ctl 13 8) (fld ctl 22 16) (mulW (reg s (qcR c 0x10)) raw)
  let lim := reg s (qcR c 0x18)
  let v := mulW (reg s (qcR c 0x14)) r.1
  ⟨c, hit, now s + 16 + 8 * fld ctl 13 8, clampW (fpNeg lim) lim v, decide (fpCmp lim v < 0) || decide (fpCmp v (fpNeg lim) < 0),
    fld ctl 22 16, r.2⟩

/-- What a trigger of a cascade does (R261, R264): its run starts, unless its source is invalid or the instance it adds
into holds it frozen. -/
def cascadeOne (s : State) (c : Nat) (hit : Option (Nat × Word)) : State :=
  let src := reg s (qcR c 4)
  let kind := fld src 15 12
  let ix := fld src 11 0
  let raw := srcRaw s hit kind ix
  if !srcValid s hit 0 kind ix raw then
    if bitOf (qCtl s c) 0 then s else report (setReg s (qcR c 0) (setBit (qCtl s c) 0 true)) (228 + c) .qInput (qcR c 0)
  else
    let s := setReg s (qcR c 0) (setBit (qCtl s c) 0 false)
    if qFrozen s c then s else modLpe s fun l => { l with runs := l.runs ++ [qRunOf s c hit raw] }

/-- The cascades chained to one (Table 9-12). (Log 76 DEDUCED safe.) -/
def chained (s : State) (c : Nat) : List Nat :=
  (List.range 16).filter fun k => rb s (qcR k 0) 31 && rf s (qcR k 0) 30 28 == 3 && rf s (qcR k 0) 27 24 == c

/-- A chained cascade that is still running at its trigger is in overrun (R265). -/
def chainOver (s : State) (c : Nat) : State :=
  if s.lpe.runs.any (·.c == c) then qStop (report s (228 + c) .lpeOverrun (qcR c 0)) c else s

/-- A cascade is triggered; one that starts no run hands the trigger on to those chained to it. (Log 76 DEDUCED safe.) -/
def cascadeRun : Nat → State → Nat → Option (Nat × Word) → State
  | 0, s, _, _ => s
  | n + 1, s, c, hit =>
    let s := cascadeOne (chainOver s c) c hit
    if s.lpe.runs.any (·.c == c) then s else (chained s c).foldl (fun s k => cascadeRun n s k hit) s

/-- A run completes (R261): OUT, SAT, S1 and S2 of its sections; those chained to it start on the same sample (R262). -/
def qFinish (s : State) (r : QRun) : State :=
  let s := modLpe s fun l => { l with runs := l.runs.filter (·.c != r.c) }
  let s := (List.range r.secs.length).foldl (fun s k =>
    let e := r.secs.getD k (0, 0)
    setReg (setReg s (secR (r.first + k) 5) e.1) (secR (r.first + k) 6) e.2) s
  let s := setReg s (qcR r.c 0x1C) r.out
  let s := if r.sat then flag s (qcR r.c 0) 2 else s
  (chained s r.c).foldl (fun s k => cascadeRun 16 s k r.hit) s

/-- The loop engine at a clock cycle: runs that are complete, then the triggers of the tick cascades at their phase. -/
def lpeClock (s : State) : State :=
  let s := (s.lpe.runs.filter fun r => decide (r.till ≤ now s)).foldl qFinish s
  if s.tmk.ticked then
    (List.range 16).foldl (fun s c =>
      if rb s (qcR c 0) 31 && rf s (qcR c 0) 30 28 == 0 && rf s (qcR c 0xC) 14 0 == phaseOf s then qTrigger s c none else s) s
  else s

/-- A cascade has been triggered and has not run yet. -/
def cascadeDue (s : State) (c : Nat) : Bool := s.lpe.pend.any (·.c == c)

/-- The trigger of a cascade is taken out of those that wait. -/
def takeTrigger (s : State) (c : Nat) : State := modLpe s fun l => { l with pend := l.pend.filter (·.c != c) }

def execCascadeRun (c : Fin 16) (s : State) : Out :=
  .next (live s fun s =>
    match s.lpe.pend.find? (·.c == c.val) with
    | some t => if rb s (qcR c 0) 31 then cascadeRun 17 (takeTrigger s c) c t.hit else takeTrigger s c
    | none => s)

/-- A write of LPE_SiSIZE, LPE_SiYSRCj and state memory while ENABLE is 0 only (R247). -/
def lpeIdleWrite (s : State) (o : Origin) (i a : Nat) (val : Word) : State :=
  if rb s (siCtrl i) 0 then accessFault s a else genWrite s o a val

/-- A reserved source kind; in the CELL role a cascade takes only 0, 1, 2, 4 and 7 (R240, Table 9-4). -/
def kindBad (s : State) (cascade : Bool) (val : Word) : Bool :=
  let k := fld val 15 12
  decide (10 < k) || (cascade && isCell s && !([0, 1, 2, 4, 7].contains k))

/-- A write to a register of the loop engine, by the rule of its place. -/
def lpeWrite (s : State) (o : Origin) (off : Nat) (val : Word) : State :=
  let a := lpeR off
  let gen := genWrite s o a val
  if off = 0x018 then (if val = 0 then setReg s a (reg s a &&& 0x80FF0000) else s)
  else if 0x100 ≤ off ∧ off < 0x300 then
    let i := (off - 0x100) / 0x80
    let r := (off - 0x100) % 0x80
    if r = 0 then siCtrlWrite s o i val
    else if r = 4 then lpeIdleWrite s o i a val
    else if 0x20 ≤ r ∧ r < 0x40 then (if kindBad s false val then lpeCfgFault s a else lpeIdleWrite s o i a val)
    else if 0x40 ≤ r ∧ r < 0x60 then (if kindBad s false val then lpeCfgFault s a else gen)
    else gen
  else if 0x400 ≤ off ∧ off < 0x600 then
    let c := (off - 0x400) / 0x20
    let r := off % 0x20
    if r = 0 then qCtrlWrite s o c val
    else if r = 4 then (if kindBad s true val then lpeCfgFault s a else gen)
    else if r = 8 then (if isCell s && bitOf val 31 then lpeCfgFault s a else gen)
    else gen
  else if 0x2000 ≤ off ∧ off < 0x3000 then
    let k := (off - 0x2000) / 0x20
    let used := (List.range 16).any fun c =>
      rb s (qcR c 0) 31 && decide (rf s (qcR c 0) 22 16 ≤ k) && decide (k < rf s (qcR c 0) 22 16 + rf s (qcR c 0) 13 8)
    if used then accessFault s a else gen
  else if 0x3000 ≤ off ∧ off < 0x3400 then lpeIdleWrite s o ((off - 0x3000) / 0x100) a val
  else if 0x8000 ≤ off then
    let i := (off - 0x8000) / 0x2000
    if decide (0x1000 ≤ (off - 0x8000) % 0x2000) == (instOf s i).bank then accessFault s a else gen
  else gen

/-- R301, R302: a REFERENCE reaches the node. -/
def referenceIn (s : State) (pk : Packet) : State :=
  let a := lpeR 0x018
  if pk.seq.toNat ≠ s.tmk.tick.toNat % 256 then report (countUp s a 15 8) 244 .refStale a
  else
    let s := if s.lpe.ref.isSome then countUp s a 7 4 else s
    modLpe s fun l => { l with ref := some (pk.seq, pk.payload) }

/-- R303: the reference buffer at a tick application. (Log 74 DEDUCED unsafe.) -/
def referenceLatch (s : State) : State :=
  let a := lpeR 0x018
  match s.lpe.ref with
  | some (q, ws) =>
    let s := (List.range 64).foldl (fun s w => setReg s (lpeR (0x700 + 4 * w)) (ws.getD w 0)) s
    modLpe (setReg s a (setFld (setBit (reg s a) 31 true) 23 16 q.toNat)) fun l => { l with ref := none, refRun := false }
  | none =>
    let s := setReg s a (setBit (reg s a) 31 false)
    if s.lpe.refRun then s else report (modLpe s fun l => { l with refRun := true }) 244 .refMissing a

/-- The loop engine at a tick application: overruns (R265), bank changes (R246), set-point selectors (R250), the
reference buffer, and what is due in the new tick. (Log 76 DEDUCED safe.) -/
def lpeTick (s : State) : State :=
  let run (s : State) (i : Nat) : Bool :=
    let x := instOf s i
    !(x.st == .off || x.st == .stopped || modeOf s == .boot || modeOf s == .safe)
  let s := (List.range 4).foldl (fun s i =>
    let s := if run s i && !(instOf s i).ran then
        feedbackLost (report (flag (modInst s i fun x => instNext s i x false) (siStat i) 0x20) (224 + i) .lpeOverrun (siStat i)) i
      else s
    let s := if rb s (siCtrl i) 31 then
        unflag (modInst s i fun x => { x with bank := !x.bank }) (siCtrl i) 0x80000000
      else s
    modInst s i fun x =>
      if x.st = .off then x
      else { x with ran := !run s i
                    rsrc := (List.range 8).foldl (fun m j => kput 0 m j (reg s (lpeR (0x140 + 0x80 * i + 4 * j)))) [] }) s
  let s := modLpe s fun l =>
    { l with hreg := (List.range 32).foldl (fun m n => kput 0 m n (reg s (lpeR (0x600 + 4 * n)))) [] }
  let s := (List.range 16).foldl (fun s c =>
    if rb s (qcR c 0) 31 && rf s (qcR c 0) 30 28 == 0 && rf s (qcR c 0xC) 14 0 == 0 then qTrigger s c none else s) s
  referenceLatch s

/-- The checks of the loop engine that depend on the period (R46, R247, R262). -/
def lpePeriodOk (s : State) (units : Nat) : Bool :=
  ((List.range 4).all fun i => (instOf s i).st == .off || lpeStartOk s i (units * 250)) && qOk (qCtl s) s units


end Sys2Proof.Machine
end

