-- ==== Sys2Proof/Machine/Period.lean ====
section
/-! DEFINITION. A change of the tick period and announced renumberings: the STATION part's write, the checks that
depend on the period, and the receipt of an announcement. -/

namespace Sys2Proof.Machine

open Sys2Proof

/-- The state with another period, for the checks of R46. -/
def withPeriod (s : State) (units : Nat) : State := modTmk s fun t => { t with period := units }

/-- The load checks that depend on the period (R46): those of R175 and R220 at a cell, of R220, R247 and R262 in
the upper roles. -/
def edgeOkFor (s : State) (units : Nat) : Bool := !isCell s || edgeCfgOk s (units * 250)
def snsOkFor (s : State) (units : Nat) : Bool := tgCheck (withPeriod s units)
def lpeOkFor (s : State) (units : Nat) : Bool := isCell s || lpePeriodOk s units

/-- A broken period check is reported by kind and enters QUARANTINE (R46). -/
def periodCheck (s : State) (units : Nat) : State :=
  let e := edgeOkFor s units
  let n := snsOkFor s units
  let l := lpeOkFor s units
  let s := if e then s else edgeCfgFault s
  let s := if n then s else report s 218 .snsCfg (snsR 0x010)
  let s := if l then s else lpeCfgFault s (lpeR 0x000)
  if e && n && l then s else quarantine s 4

/-- A write of TMK_TICK_PERIOD (R43 to R45, R247). -/
def periodWrite (s : State) (o : Origin) (val : Word) : State :=
  let a := tmkR 0x008
  let u := fld val 7 0
  if roleOf s ≠ .station ∨ s.tmk.coupled = true ∨ s.tmk.annPer.isSome = true ∨ u < 8 ∨ 128 < u ∨ snsOkFor s u = false then accessFault s a
  else if !lpeOkFor s u then accessFault (lpeCfgFault s a) a
  else
    let k := s.tmk.tick + 64
    announce (modTmk (genWrite s o a val) fun t => { t with annPer := some (u, k) }) (.period (BitVec.ofNat 8 u) k)

def execTickPeriodWrite (o : Origin) (val : Word) (s : State) : Out := .next (live s fun s => periodWrite s o val)

/-- An announcement arrives from the parent, or at a standby STATION part from its partner (R45, R49, R50). A
renumbering whose grid number is its own boundary is the answer to a TICKNO_REQ. (Log 43 DEDUCED unsafe.) -/
def announceIn (s : State) (p : Nat) (a : Announce) : State :=
  let from_ := isActive s p && selPort s == some p && (roleOf s != .station || standbyStation s)
  if !from_ then s
  else
    match a with
    | .period u k =>
      if u.toNat < 8 ∨ 128 < u.toNat then s
      else
        let s := modTmk s fun t => { t with annPer := some (u.toNat, if t.okNo then k else nextNo s) }
        announce (periodCheck s u.toNat) a
    | .renumber k g =>
      if k = g then
        if s.tmk.okNo then s else modTmk s fun t => { t with annNum := some (nextNo s, g) }
      else announce (modTmk s fun t => { t with annNum := some (k, g) }) a

def execRenumberRx (p : Port) (ann : Announce) (s : State) : Out :=
  .next (live s fun s => alignSync (announceIn (creditSend s p 1 0 0) p.val ann))

end Sys2Proof.Machine
end

