-- ==== Sys2Proof/Machine/Station.lean ====
section
/-! DEFINITION. The station port: Ethernet ports, frames and redundancy, sampled values, GOOSE, the queue of the
host protocol with its replies and NOTIFY. -/

namespace Sys2Proof.Machine

open Sys2Proof

def stpSub (k o : Nat) : Nat := stpR (0x400 + 0x40 * k + o)
/-- Log 97 DESIGN CHOICE unsafe. (Log 97 DESIGN CHOICE unsafe.) -/
def stpPub (k w : Nat) : Nat := stpR (0x800 + 0x80 * k + 4 * w)
/-- Log 97 DESIGN CHOICE unsafe. (Log 97 DESIGN CHOICE unsafe.) -/
def stpGp (g w : Nat) : Nat := stpR (0x2000 + 0x40 * g + 4 * w)
/-- Log 97 DESIGN CHOICE unsafe. (Log 97 DESIGN CHOICE unsafe.) -/
def stpGs (g w : Nat) : Nat := stpR (0x3000 + 0x40 * g + 4 * w)

/-- The part clocks the station port. -/
def stpOn (s : State) : Bool := blockOn (roleOf s) 8 && (kget none s.flt.rstBlk 8).isNone

/-- Ex_IF of a port: 1 or 2 where it is enabled; E1 not when it is pruned. -/
def ethOn (s : State) (e : Nat) : Bool :=
  let v := if e = 0 then rf s (stpR 0) 3 2 else rf s (stpR 0) 5 4
  (v == 1 || v == 2) && !(e == 1 && rb s (fltR 0x090) 10) && stpOn s

def ethUp (s : State) (e : Nat) : Bool := ethOn s e && s.stp.link.toNat.testBit e

/-- RED: 0 independent, 1 PRP, 2 HSR. -/
def redMode (s : State) : Nat := let v := rf s (stpR 0) 9 8; if v = 3 then 0 else v

/-- R317: link up and link loss. -/
def execEthLinkUp (e : Fin 2) (s : State) : Out :=
  .next (live s fun s =>
    if ethOn s e then modStp s fun t => { t with link := t.link ||| BitVec.ofNat 2 (2 ^ e.val) } else s)

def execEthLinkDown (e : Fin 2) (s : State) : Out :=
  .next (live s fun s =>
    if ethUp s e then
      report (modStp s fun t => { t with link := t.link &&& ~~~ BitVec.ofNat 2 (2 ^ e.val) }) (256 + e) .ethLink (stpR 0x004)
    else s)

/-- A frame waits on a port. -/
def ethQueue (s : State) (e : Nat) (f : EthTx) : State := modStp s fun t => { t with txq := kmod [] t.txq e (· ++ [f]) }

/-- The ports a frame of the part leaves on: both in PRP and HSR, else the lowest port with link. (Log 99 DESIGN CHOICE unsafe.) -/
def ethPorts (s : State) : List Nat :=
  let up := [0, 1].filter (ethUp s)
  if redMode s = 0 then up.take 1 else up

/-- Bytes that a redundancy tag or trailer adds to a frame of the part's own: an HSR tag or a PRP trailer (Table 12-1). (Log 125 PRESUMED unsafe.) -/
def tagLen (s : State) : Nat := if redMode s = 0 then 0 else 6

/-- A frame that the part originates waits on ports; one longer than 1,518 bytes with its tag is not originated (R318). -/
def ethOrig (s : State) (ps : List Nat) (f : EthTx) : State :=
  let f := { f with len := f.len + tagLen s }
  if 1518 < f.len then s else ps.foldl (fun s e => ethQueue s e f) s

def ethSend (s : State) (f : EthTx) : State := ethOrig s (ethPorts s) f

/-- A frame that answers one of a port, or that firmware queues on it: there, or on both ports in PRP and HSR. -/
def ethFrom (s : State) (e : Nat) (f : EthTx) : State := ethOrig s (if redMode s = 0 then [e] else ethPorts s) f

/-- The length of a frame with its frame check sequence, at least 64 bytes. -/
def ethLen (l : List Byte) : Nat := Nat.max 64 (l.length + 4)

/-- The time of a frame with preamble and inter-frame gap, in units of LT. -/
def ethTime (len : Nat) : Nat := (len + 20) * 4

/-- Registers of a launch slot: port in [0], PT instance in [5:4] (3 taken as PT2), descriptor in [15:8] and STATE in
[19:16] of TMK_LCHj_CTRL: the model's layout. (Log 116 DESIGN CHOICE unsafe.) -/
def lchR (j o : Nat) : Nat := tmkR (0x300 + 0x10 * j + o)
def lchState (s : State) (j : Nat) : Nat := rf s (lchR j 0) 19 16
def lchPort (s : State) (j : Nat) : Nat := rf s (lchR j 0) 0 0
/-- Log 116 DESIGN CHOICE unsafe. (Log 116 DESIGN CHOICE unsafe.) -/
def lchPt (s : State) (j : Nat) : Nat := Nat.min 2 (rf s (lchR j 0) 5 4)

/-- The full-width difference target - now of a slot, in ns (R72, R76). -/
def lchDelta (s : State) (j : Nat) : Int :=
  let v := ptOf s (lchPt s j)
  signedMod (2 ^ 32 * 1000000000)
    (((reg s (lchR j 4)).toNat * 1000000000 + (reg s (lchR j 8)).toNat : Nat) - ((ptSec v % 2 ^ 32 * 1000000000 + ptNs v : Nat) : Int))

/-- The difference target - now on which a slot is decided: of the low 32 bits, signed (R68). -/
def lchDiff (s : State) (j : Nat) : Int :=
  (wd ((reg s (lchR j 4)).toNat * 1000000000 + (reg s (lchR j 8)).toNat) - cmpNow s (lchPt s j + 2)).toInt

/-- An armed slot keeps untimed frames off a port from 12.384 µs before its target (R74). -/
def lchBlocks (s : State) (e : Nat) : Bool :=
  (List.range 4).any fun j => lchState s j == 1 && lchPort s j == e && decide (lchDiff s j ≤ 12384)

/-- The first frame of the lowest group that waits (R319). -/
def ethPick (l : List EthTx) : Option EthTx :=
  ((List.range 6).filterMap fun g => l.find? fun f => f.group == g).head?

/-- A response of the host protocol carries the EPOCH current as it leaves (R37). (Log 100 DEDUCED unsafe.) -/
def epochNow (s : State) (f : EthTx) : EthTx :=
  if f.dest.isSome && decide (128 ≤ (f.what.getD 3 0).toNat) then
    { f with what := f.what.take 8 ++ wordBytes (reg s (sysR 0x010)) ++ f.what.drop 12 }
  else f

/-- A big-endian number at byte i of a frame. -/
def beAt (l : List Byte) (i n : Nat) : Nat := ((l.drop i).take n).foldl (fun a b => a * 256 + b.toNat) 0

/-- The place of the EtherType, after a VLAN tag and an HSR tag. -/
def etherAt (l : List Byte) : Nat :=
  let i := if beAt l 12 2 = 0x8100 then 16 else 12
  if beAt l i 2 = 0x892F then i + 6 else i

/-- A frame of the stream that subscription k names by its APPID (Table 12-9). (Log 125 PRESUMED unsafe.) -/
def svMatch (s : State) (k : Nat) (l : List Byte) : Bool :=
  beAt l (etherAt l) 2 == 0x88BA && rf s (stpSub k 0) 15 0 == beAt l (etherAt l + 2) 2

/-- The place after a BER tag and length at place i: 0 where the tag is another. (Log 125 PRESUMED unsafe.) -/
def berIn (l : List Byte) (i tag : Nat) : Nat :=
  if byteAt l i ≠ tag then 0 else if byteAt l (i + 1) < 128 then i + 2 else i + 2 + byteAt l (i + 1) % 128

/-- The gocbRef of a GOOSE frame: the first element of its PDU. (Log 125 PRESUMED unsafe.) -/
def gocbRef (l : List Byte) : List Byte :=
  let p := berIn l (etherAt l + 10) 0x61
  let q := berIn l p 0x80
  if p = 0 ∨ q = 0 then [] else (l.drop q).take (byteAt l (q - 1))

/-- What subscription g matches: the destination address, the APPID and 40 bytes of the gocbRef in words 4 to 15. (Log 97 DESIGN CHOICE unsafe.) -/
def gooseKey (s : State) (g : Nat) : List Byte := (List.range 12).flatMap fun i => wordBytes (reg s (stpGs g (4 + i)))

/-- A frame that matches subscription g (R331). (Log 125 PRESUMED unsafe.) -/
def gooseMatch (s : State) (g : Nat) (l : List Byte) : Bool :=
  beAt l (etherAt l) 2 == 0x88B8 &&
    (l.take 6 ++ (l.drop (etherAt l + 2)).take 2 ++ gocbRef l ++ List.replicate 40 0).take 48 == gooseKey s g

/-- The UDP datagram of a frame on IPv4 for the address and port of XHP, not a fragment: the source address and port and
the payload. (Log 125 PRESUMED unsafe.) -/
def xhpGram (s : State) (l : List Byte) : Option (Nat × Nat × List Byte) :=
  let h := etherAt l + 2
  let u := h + 4 * (byteAt l h % 16)
  if beAt l (h - 2) 2 = 0x0800 ∧ byteAt l (h + 9) = 17 ∧ beAt l (h + 6) 2 % 16384 = 0 ∧
      beAt l (h + 16) 4 = (reg s (stpR 0x010)).toNat ∧ beAt l (u + 2) 2 = rf s (stpR 0x014) 15 0 then
    some (beAt l (h + 12) 4, beAt l u 2, (l.drop (u + 8)).take (beAt l (u + 4) 2 - 8))
  else none

/-- A frame that a hardware function takes as a command of its own: sampled values and GOOSE of a subscription in use, and
XHP datagrams for the part. -/
def ethConsumed (s : State) (l : List Byte) : Bool :=
  ((List.range 16).any fun k => rb s (stpSub k 0) 31 && svMatch s k l) ||
    ((List.range 64).any fun g => rb s (stpGs g 0) 31 && gooseMatch s g l) || (rb s (stpR 0) 11 && (xhpGram s l).isSome)

/-- The own station address as bytes. -/
def ownMac (s : State) : List Byte := (natLe 6 (rf s (stpR 0x008) 15 0 * 2 ^ 32 + (reg s (stpR 0x00C)).toNat)).reverse

/-- An answer to an ARP request for the own address, as a frame. -/
def arpReply (s : State) (l : List Byte) : Option (List Byte) :=
  let i := etherAt l
  if beAt l i 2 = 0x0806 ∧ beAt l (i + 8) 2 = 1 ∧ reg s (stpR 0x010) ≠ 0 ∧ beAt l (i + 26) 4 = (reg s (stpR 0x010)).toNat then
    let them := (l.drop (i + 10)).take 10
    some (them.take 6 ++ ownMac s ++ (l.drop i).take 8 ++ [0, 2] ++ ownMac s ++ wordBytes (reg s (stpR 0x010)) ++ them)
  else none

/-- The ones' complement sum of 16-bit big-endian words, folded twice. -/
def onesSum : List Byte → Nat
  | a :: b :: l => a.toNat * 256 + b.toNat + onesSum l
  | [a] => a.toNat * 256
  | [] => 0

def checksum (l : List Byte) : List Byte :=
  let n := onesSum l
  let n := n % 65536 + n / 65536
  let n := n % 65536 + n / 65536
  [BitVec.ofNat 8 ((65535 - n) / 256), BitVec.ofNat 8 (65535 - n)]

/-- An answer to an ICMP echo request to the own address, as a frame. -/
def echoReply (s : State) (l : List Byte) : Option (List Byte) :=
  let i := etherAt l
  let h := i + 2
  let hl := 4 * (byteAt l h % 16)
  if beAt l i 2 = 0x0800 ∧ byteAt l (h + 9) = 1 ∧ byteAt l (h + hl) = 8 ∧ reg s (stpR 0x010) ≠ 0 ∧
      beAt l (h + 16) 4 = (reg s (stpR 0x010)).toNat then
    let body := (l.drop (h + hl + 4)).take (beAt l (h + 2) 2 - hl - 4)
    let icmp := [0, 0] ++ checksum ([0, 0, 0, 0] ++ body) ++ body
    some ((l.drop 6).take 6 ++ ownMac s ++ (l.drop 12).take (i - 10) ++ (l.drop h).take 12 ++ (l.drop (h + 16)).take 4 ++
      (l.drop (h + 12)).take 4 ++ (l.drop (h + 20)).take (hl - 20) ++ icmp)
  else none

/-- Bytes of a list from place i on are replaced. -/
def putBytes (l : List Byte) (i : Nat) (bs : List Byte) : List Byte := l.take i ++ bs ++ l.drop (i + bs.length)

/-- The place of the PTP header of a frame, after EtherType 0x88F7; its messageType, its domainNumber. (Log 125 PRESUMED unsafe.) -/
def ptpAt (l : List Byte) : Option Nat := if beAt l (etherAt l) 2 = 0x88F7 then some (etherAt l + 2) else none
def ptpType (l : List Byte) (o : Nat) : Nat := byteAt l o % 16
def ptpDomain (l : List Byte) (o : Nat) : Nat := byteAt l (o + 4)

/-- The place of the header of a PTP event message: Sync, Delay_Req, Pdelay_Req and Pdelay_Resp. (Log 125 PRESUMED unsafe.) -/
def ptpEvent (l : List Byte) : Option Nat := (ptpAt l).filter fun o => decide (ptpType l o < 4)

/-- The PT instances bound to a port and a domain (Table 12-3). -/
def ptpBound (s : State) (e d : Nat) : List Nat :=
  (List.range 3).filter fun n => rb s (tmkR (0x118 + 0x40 * n)) (16 + e) && rf s (tmkR (0x118 + 0x40 * n)) 7 0 == d

/-- A span of LT on the scale of a PT instance, at its rate; units of 2^-32 ns. -/
def ptSpan (s : State) (n : Option Nat) (span : Int) : Int :=
  span * 2 * ((ptOne : Int) + match n with | some n => ptRate s n | none => 0)

/-- A PT instance at a later or earlier LT. -/
def ptAt (s : State) (n : Nat) (span : Int) : Nat := (((ptOf s n : Int) + ptSpan s (some n) span) % (ptMod : Int)).toNat

/-- The stamps of a message whose message timestamp point passed at an LT on a port (R322, R79). -/
def ptpStamp (s : State) (e at_ : Nat) (l : List Byte) (o : Nat) : Stamp :=
  ⟨at_, (ptpBound s e (ptpDomain l o)).map fun n => (n, ptAt s n ((at_ : Int) - (now s : Int)))⟩

/-- Units of 2^-32 ns are added to correctionField, which counts 2^-16 ns. (Log 125 PRESUMED unsafe.) -/
def ptpCorrect (l : List Byte) (o : Nat) (d : Int) : List Byte :=
  putBytes l (o + 8) (natLe 8 (((beAt l (o + 8) 8 : Int) + d / 65536) % 18446744073709551616).toNat).reverse

/-- What the part writes into a PTP message as its message timestamp point leaves at an LT (R77, R78): the departure time and
its sub-nanosecond part into a Sync of its own, the turnaround into its Pdelay_Resp, the residence time into a
forwarded Sync; `n` is the PT instance bound to it. (Log 125 PRESUMED unsafe.) -/
def ptpOut (s : State) (e at_ : Nat) (n : Option Nat) (f : EthTx) : EthTx :=
  let l := f.what
  match ptpAt l, f.rx with
  | none, _ => f
  | some o, some (_, t) => if ptpType l o = 0 then { f with what := ptpCorrect l o (ptSpan s n ((at_ : Int) - t)) } else f
  | some o, none =>
    if ptpType l o = 0 then
      match n with
      | some n =>
        let v := ptAt s n ((at_ : Int) - (now s : Int))
        { f with what := ptpCorrect (putBytes l (o + 34) ((natLe 6 (ptSec v)).reverse ++ (natLe 4 (ptNs v)).reverse)) o (v % ptOne) }
      | none => f
    else if ptpType l o = 3 then
      match kget none s.stp.pdReq (256 * e + ptpDomain l o) with
      | some (q, who, t) =>
        if q = beAt l (o + 30) 2 ∧ who = beAt l (o + 44) 10 then { f with what := ptpCorrect l o (ptSpan s n ((at_ : Int) - t)) } else f
      | none => f
    else f

/-- The instance bound to a PTP message that leaves a port, by the port it came from where it is forwarded. -/
def ptpInst (s : State) (e : Nat) (f : EthTx) : Option Nat :=
  (ptpAt f.what).bind fun o => (ptpBound s (match f.rx with | some (p, _) => p | none => e) (ptpDomain f.what o)).head?

/-- A whole frame, and not the record of a function's datagram: one of firmware or a forwarded one. -/
def ethRaw (f : EthTx) : Bool := f.dest.isNone && (f.group == 1 || decide (4 ≤ f.group))

/-- A frame starts on a port, its message timestamp point at an LT. -/
def ethStart (s : State) (e : Fin 2) (at_ : Nat) (n : Option Nat) (f : EthTx) : State :=
  let s := modStp s fun t => { t with busyTil := kput 0 t.busyTil e (at_ + ethTime f.len) }
  send s (.eth e (if ethRaw f then ptpOut s e at_ n f else epochNow s f))

/-- The supervision frame of PRP and HSR, every 2 s (Table 12-1). (Log 125 PRESUMED unsafe.) -/
def supervise (s : State) : State :=
  if redMode s = 0 ∨ now s < s.stp.supAt + sec 2 then s
  else
    let b : List Byte := [0x01, 0x15, 0x4E, 0, 1, 0] ++ ownMac s ++ [0x88, 0xFB, 0, 1] ++ (natLe 2 s.stp.supNo).reverse ++
      [if redMode s = 2 then 23 else 20, 6] ++ ownMac s ++ [0, 0]
    ethSend (modStp s fun t => { t with supAt := now s, supNo := t.supNo + 1 }) ⟨5, ethLen b, none, b, none⟩

/-- A frame that firmware queues on a port by its transmit descriptor (R319). (Log 99 DESIGN CHOICE unsafe.) -/
def ethFirmware (s : State) (e : Nat) (desc : Option (BitVec 8)) : State :=
  match desc with
  | some d =>
    let b := Config.txFrame d.toNat s.mem
    ethFrom s e ⟨if (ptpAt b).isSome then 4 else 5, ethLen b, none, b, none⟩
  | none => s

/-- R319: a waiting frame starts; `desc` names a frame that firmware has queued on the port since the last one. -/
def ethTx (s : State) (e : Fin 2) (desc : Option (BitVec 8)) : State :=
  if !ethUp s e then s
  else
    let s := supervise (ethFirmware s e desc)
    if now s < kget 0 s.stp.busyTil e ∨ lchBlocks s e then s
    else match ethPick (kget [] s.stp.txq e) with
      | some f => ethStart (modStp s fun t => { t with txq := kmod [] t.txq e (·.erase f) }) e (now s) (ptpInst s e f) f
      | none => s

def execEthFrameTx (e : Fin 2) (desc : Option (BitVec 8)) (s : State) : Out := .next (live s fun s => ethTx s e desc)

/-- Entries of the duplicate table younger than 400 ms. -/
def dupLive (s : State) : List (BitVec 48 × BitVec 16 × Nat) := s.stp.dup.filter fun d => decide (now s < d.2.2 + ms 400)

/-- The source address of a frame, and the sequence number of its HSR tag or PRP trailer. (Log 125 PRESUMED unsafe.) -/
def ethSource (l : List Byte) : BitVec 48 := BitVec.ofNat 48 (beAt l 6 6)
def ethSeq (s : State) (l : List Byte) : Option (BitVec 16) :=
  let i := if beAt l 12 2 = 0x8100 then 16 else 12
  if redMode s = 2 ∧ beAt l i 2 = 0x892F then some (BitVec.ofNat 16 (beAt l (i + 4) 2))
  else if redMode s = 1 ∧ 20 ≤ l.length ∧ beAt l (l.length - 2) 2 = 0x88FB then some (BitVec.ofNat 16 (beAt l (l.length - 6) 2))
  else none

/-- A frame without its HSR tag or PRP trailer. -/
def ethUntag (s : State) (l : List Byte) : List Byte :=
  if (ethSeq s l).isNone then l
  else if redMode s = 1 then l.take (l.length - 6)
  else let i := if beAt l 12 2 = 0x8100 then 16 else 12
       l.take i ++ l.drop (i + 6)

/-- Arrival stamps, and the record of a Pdelay_Req (R322, R78); the command comes as the frame ends. (Log 125 PRESUMED unsafe.) -/
def ethStamp (s : State) (e : Nat) (l : List Byte) : State :=
  let at_ := now s - 4 * (l.length + 4)
  match ptpEvent l with
  | some o =>
    let s := modStp s fun t => { t with stamp := kput none t.stamp e (some (ptpStamp s e at_ l o)) }
    if ptpType l o = 2 then
      modStp s fun t => { t with pdReq := kput none t.pdReq (256 * e + ptpDomain l o) (some (beAt l (o + 30) 2, beAt l (o + 20) 10, at_)) }
    else s
  | none => s

/-- HSR: a frame that is not addressed solely to the part goes on through the other port, once in each direction; PTP
messages only under TC_EN (R321, R324). (Log 99 DESIGN CHOICE unsafe.) -/
def ethForward (s : State) (e : Nat) (l : List Byte) : State :=
  let seq := ethSeq s l
  let old := s.stp.fwdSeen
  if redMode s ≠ 2 ∨ l.take 6 = ownMac s ∨ ethSource l = BitVec.ofNat 48 (beAt (ownMac s) 0 6) ∨ !ethUp s (1 - e) ∨
      ((ptpAt l).isSome ∧ rb s (stpR 0) 10 = false) ∨ seq.any (fun q => old.contains (e, ethSource l, q)) then s
  else
    let s := match seq with | some q => modStp s fun t => { t with fwdSeen := ((e, ethSource l, q) :: old).take 512 } | none => s
    let ptp := (ptpAt l).isSome
    ethQueue s (1 - e) ⟨if ptp then 4 else 5, l.length + 4, none, l, if ptp then some (e, now s - 4 * (l.length + 4)) else none⟩

/-- A frame is received on a port: checked, stamped, forwarded; true where it is the first copy, which goes on to its
function (R318, R320 to R322). -/
def ethTake (s : State) (e : Nat) (f : EthFrame) : State × Bool :=
  if !ethUp s e then (s, false)
  else if 1528 < f.len ∨ f.fcsOk = false then (countUp s (stpR 0x030) 31 0, false)
  else
    let src := ethSource f.bytes
    let s := ethForward (ethStamp s e f.bytes) e f.bytes
    if redMode s = 2 ∧ src = BitVec.ofNat 48 (beAt (ownMac s) 0 6) then (s, false)
    else match ethSeq s f.bytes with
      | none => (s, true)
      | some q =>
        if (dupLive s).any fun d => d.1 == src && d.2.1 == q then (countUp s (stpR 0x038) 31 0, false)
        else (modStp s fun t => { t with dup := ((src, q, now s) :: dupLive s).take 512 }, true)

/-- R318 to R322: a frame is received; ARP and ICMP echo requests for the part are answered, and what no function takes goes
to the ring of 64 descriptors. `freed` is how many of its oldest descriptors firmware has taken since. (Log 99 DESIGN CHOICE unsafe.) -/
def ethFrameIn (s : State) (e : Nat) (f : EthFrame) (freed : Nat) : State :=
  let s := modStp s fun t => { t with ring := t.ring.drop freed }
  let r := ethTake s e f
  let s := r.1
  if !r.2 then s
  else
    let l := ethUntag s f.bytes
    match arpReply s l, echoReply s l with
    | some b, _ => ethFrom s e ⟨5, ethLen b, none, b, none⟩
    | none, some b => ethFrom s e ⟨5, ethLen b, none, b, none⟩
    | none, none =>
      if ethConsumed s l then s
      else if s.stp.ring.length < 64 then
        modStp s fun t => { t with ring := t.ring ++ [⟨l, if (ptpEvent l).isSome then kget none t.stamp e else none⟩] }
      else countUp s (stpR 0x034) 31 0

def execEthFrameRx (e : Fin 2) (f : EthFrame) (freed : Fin 65) (s : State) : Out := .next (live s fun s => ethFrameIn s e.val f freed.val)

/-- The first copy of a frame reaches its function (R320). -/
def ethFirst (s : State) (e : Nat) (f : EthFrame) (g : State → List Byte → State) : State :=
  let r := ethTake s e f
  if r.2 then g r.1 (ethUntag r.1 f.bytes) else r.1

/-- A write of STP_SUBs_CFG (R335, Table 12-9): a reserved RATE keeps EN at 0. -/
def subCfgWrite (s : State) (o : Origin) (k : Nat) (val : Word) : State :=
  let a := stpSub k 0
  if !preRun s then accessFault s a
  else
    let was := rb s a 31
    let s := genWrite s o a (if 4 < fld val 22 20 then setBit val 31 false else val)
    if rb s a 31 && !was then
      modStp s fun t => { t with svSeen := kput false t.svSeen k false, svLate := kput false t.svLate k false
                                 svHad := kput false t.svHad k false, svGood := kput 0 t.svGood k 0 }
    else s

/-- R325 to R328: a frame of a subscribed stream. -/
def svFrameIn (s : State) (k : Nat) (f : SvFrame) : State :=
  let cfg := reg s (stpSub k 0)
  let st := stpSub k 4
  if !bitOf cfg 31 || !stpOn s then s
  else if !f.rateOk || f.nasdu != fld cfg 19 16 || f.values.length != Nat.max 1 (fld cfg 28 24) then
    report (flag s st 8) 258 .svLen st
  else
    let old := kget default s.stp.svNow k
    let seen := kget false s.stp.svSeen k
    let s := modStp s fun t =>
      { t with svPrev := kput default t.svPrev k old, svNow := kput default t.svNow k ⟨f.values, f.smpCnt, f.synch⟩
               svAt := kput 0 t.svAt k (now s), svSeen := kput false t.svSeen k true, svLate := kput false t.svLate k false
               svSame := (List.range f.values.length).foldl (fun m v =>
                 let same := seen && (f.values.getD v (0, 0)).1 == (old.values.getD v (0, 0)).1
                 kput 0 m (32 * k + v) (if same then kget 0 m (32 * k + v) + 1 else 1)) t.svSame }
    let s := qTriggers s 2 k none
    if f.synch.toNat < 2 ∧ bitOf cfg 29 = true then report (flag s st 0x20) 258 .svSync st else s

def execSvFrameRx (e : Fin 2) (raw : EthFrame) (k : Fin 16) (f : SvFrame) (s : State) : Out :=
  .next (live s fun s => ethFirst s e.val raw fun s l => if svMatch s k.val l then svFrameIn s k.val f else s)

/-- R327: good quality of a value of a sample: validity in bits [1:0] and test in bit 11 of its quality. (Log 98 PRESUMED unsafe.) -/
def svGoodOf (cfg : Word) (y : SvSample) (v : Nat) : Bool :=
  let q := (y.values.getD v (0, 0)).2
  fld q 1 0 == 0 && (!bitOf q 11 || bitOf cfg 30) && (y.synch == 2 || !bitOf cfg 29)

/-- Subscriptions at a tick application (R20, R21, R326). -/
def svTick (s : State) : State :=
  (List.range 16).foldl (fun s k =>
    let cfg := reg s (stpSub k 0)
    if !bitOf cfg 31 then modStp s fun t => { t with svIdle := kput 0 t.svIdle k (kget 0 t.svIdle k + 1), svGood := kput 0 t.svGood k 0 }
    else
      let y := if kget 0 s.stp.svAt k = now s then kget default s.stp.svPrev k else kget default s.stp.svNow k
      let have_ := kget false s.stp.svSeen k && !y.values.isEmpty
      let adv := have_ && (!kget false s.stp.svHad k || rf s (stpSub k 4) 31 16 != y.cnt.toNat)
      let s := modStp s fun t => { t with svIdle := kput 0 t.svIdle k (if adv then 0 else kget 0 t.svIdle k + 1) }
      if !have_ then s
      else
        let s := (List.range y.values.length).foldl (fun s v =>
          let e := y.values.getD v (0, 0)
          setReg (setReg s (stpR (0x1000 + 0x100 * k + 8 * v)) e.1) (stpR (0x1004 + 0x100 * k + 8 * v)) e.2) s
        let good := (List.range y.values.length).foldl (fun n v => n + b2n (svGoodOf cfg y v) * 2 ^ v) 0
        modStp (setRf s (stpSub k 4) 31 16 y.cnt.toNat) fun t =>
          { t with svGood := kput 0 t.svGood k (BitVec.ofNat 32 good), svHad := kput false t.svHad k true }) s

/-- R328: TMO µs without an accepted frame. -/
def execSvTimeout (k : Fin 16) (s : State) : Out :=
  .next (live s fun s =>
    if rb s (stpSub k 0) 31 && kget false s.stp.svSeen k && !kget false s.stp.svLate k &&
        decide (kget 0 s.stp.svAt k + us (rf s (stpSub k 8) 15 0) < now s) then
      report (modStp s fun t => { t with svLate := kput false t.svLate k true }) 258 .svTimeout (stpSub k 4)
    else s)

/-- The latest completed value of a source as INT32 (R329). -/
def pubValue (s : State) (sel : Nat) : Word :=
  let kind := sel / 4096
  let ix := sel % 4096
  match kind with
  | 1 => let v := rf s (snsRes ix) 15 0; wdI (if rb s (snsCfgR ix) 31 then sext 16 v else (v : Nat))
  | 2 => reg s (sdRes ix)
  | 3 => ((kget default s.stp.svNow (ix / 32)).values.getD (ix % 32) (0, 0)).1
  | 4 => if rf s (snsR 0x500) 25 24 = 1 then reg s (snsR 0x508) else reg s (snsR 0x504)
  | 5 => (fpToInt .near (reg s (lpeR (0x600 + 4 * (ix % 32))))).1
  | _ => (fpToInt .near (srcRaw s none kind ix)).1

/-- R329: a publication at a sample instant: smpCnt, smpSynch and the values. -/
def svPublish (s : State) (k : Nat) : State :=
  let cfg := reg s (stpPub k 0)
  let rate := [4000, 4800, 12800, 14400, 96000].getD (fld cfg 22 20) 4800
  let v := ptOf s 0
  let m := ptNs v * rate / 1000000000
  let key := ptSec v * rate + m + 1
  if !bitOf cfg 31 || !stpOn s || key == kget 0 s.stp.pubNo k then s
  else
    let n := Nat.max 1 (fld cfg 28 24)
    let vals := (List.range n).flatMap fun i => wordBytes (pubValue s (rf s (stpPub k (16 + i / 2)) (16 * (i % 2) + 15) (16 * (i % 2))))
    let sy : Byte := if rb s (tmkR 0x000) 1 then 2 else 0
    let s := modStp s fun t => { t with pubNo := kput 0 t.pubNo k key }
    ethSend s ⟨2, 64 + 8 * n, none, [BitVec.ofNat 8 k, BitVec.ofNat 8 (m / 256), BitVec.ofNat 8 m, sy] ++ vals, none⟩

def execSvPublish (k : Fin 4) (s : State) : Out := .next (live s fun s => svPublish s k.val)

/-- Interval n of the repetition of a GOOSE publication, ms (R330). -/
def gooseGap (s : State) (g n : Nat) : Nat :=
  Nat.min (Nat.max 1 (rf s (stpGp g 2) 15 0)) (Nat.max 1 (rf s (stpGp g 1) 15 0) * 2 ^ Nat.min 16 n)

/-- A GOOSE frame leaves: stNum, sqNum, timeAllowedToLive and allData; the next repetition falls due. -/
def gooseSend (s : State) (g : Nat) : State :=
  let d := gooseGap s g (kget 0 s.stp.gStep g)
  let n := Nat.min 512 (rf s (stpGp g 0) 9 0)
  let data := ((List.range 128).flatMap fun w => (wordBytes (reg s (stpR (0x4000 + 0x200 * g + 4 * w)))).reverse).take n
  let s := modStp s fun t => { t with gDue := kput none t.gDue g (some (now s + ms d)) }
  ethSend s ⟨3, 128 + n, none, [BitVec.ofNat 8 g] ++ wordBytes (wd (kget 0 s.stp.gSt g)) ++ wordBytes (wd (kget 0 s.stp.gSq g)) ++
    wordBytes (wd (2 * d)) ++ data, none⟩

/-- R330: CHANGE. -/
def gooseChange (s : State) (g : Nat) : State :=
  if !stpOn s then s
  else
    gooseSend (modStp s fun t =>
      { t with gSt := kput 0 t.gSt g ((kget 0 t.gSt g + 1) % 4294967296), gSq := kput 0 t.gSq g 0, gStep := kput 0 t.gStep g 0 }) g

/-- A write of the first word of STP_GPUBg. -/
def gpubWrite (s : State) (o : Origin) (g : Nat) (val : Word) : State :=
  let s := genWrite s o (stpGp g 0) (setBit val 31 false)
  if bitOf val 31 then gooseChange s g else s

def execGooseChange (o : Origin) (g : Fin 32) (s : State) : Out :=
  .next (live s fun s => gate s (stpGp g.val 0) fun s => gpubWrite s o g.val (setBit (reg s (stpGp g.val 0)) 31 true))

/-- R330: the repetition interval expires. -/
def execGooseRepeat (g : Fin 32) (s : State) : Out :=
  .next (live s fun s =>
    match kget none s.stp.gDue g with
    | some t =>
      if t ≤ now s then
        gooseSend (modStp s fun t => { t with gSq := kput 0 t.gSq g ((kget 0 t.gSq g + 1) % 4294967296), gStep := kput 0 t.gStep g (kget 0 t.gStep g + 1) }) g
      else s
    | none => s)

/-- R331: a GOOSE frame that matches a subscription. -/
def gooseIn (s : State) (g : Nat) (f : GooseFrame) : State :=
  let cfg := reg s (stpGs g 0)
  let stale := kget false s.stp.gsSeen g && reg s (stpGs g 1) == f.stNum && decide (f.sqNum.toNat ≤ (reg s (stpGs g 2)).toNat)
  if !bitOf cfg 31 || !stpOn s || stale || (f.sim && !bitOf cfg 30) || f.nds then s
  else
    let data := f.data.take 512
    let s := setReg (setReg (setReg s (stpGs g 1) f.stNum) (stpGs g 2) f.sqNum) (stpGs g 3) (wd data.length)
    let s := (List.range 128).foldl (fun s w => setReg s (stpR (0x8000 + 0x200 * g + 4 * w)) (wd (leNat ((data.drop (4 * w)).take 4)))) s
    modStp s fun t => { t with gsSeen := kput false t.gsSeen g true, gsDue := kput none t.gsDue g (some (now s + ms f.ttlMs.toNat)) }

def execGooseFrameRx (e : Fin 2) (raw : EthFrame) (g : Fin 64) (f : GooseFrame) (s : State) : Out :=
  .next (live s fun s => ethFirst s e.val raw fun s l => if gooseMatch s g.val l then gooseIn s g.val f else s)

/-- R332: timeAllowedToLive expires. -/
def execGooseTtl (g : Fin 64) (s : State) : Out :=
  .next (live s fun s =>
    match kget none s.stp.gsDue g with
    | some t =>
      if t ≤ now s then
        let s := setReg (modStp s fun t => { t with gsDue := kput none t.gsDue g none }) (stpGs g 0) (reg s (stpGs g 0) ||| 1)
        report s 259 .gooseTtl (stpGs g 0)
      else s
    | none => s)

/-- A write of the first word of STP_GSUBg: bit 0 is TTL_EXP, cleared by 1. -/
def gsubWrite (s : State) (o : Origin) (g : Nat) (val : Word) : State :=
  let ttl := rb s (stpGs g 0) 0 && !bitOf val 0
  genWrite s o (stpGs g 0) (setBit val 0 ttl)

/-- A datagram of the host protocol (Table 12-5) to an address and port. -/
def xhpSend (s : State) (ip : Word) (port : BitVec 16) (op : Nat) (tag : Word) (status : Nat) (data : List Word) : State :=
  let hdr : List Byte := [0x58, 0x48, 1, BitVec.ofNat 8 op] ++ wordBytes tag ++ wordBytes (reg s (sysR 0x010)) ++
    [BitVec.ofNat 8 (status / 256), BitVec.ofNat 8 status, BitVec.ofNat 8 (data.length / 256), BitVec.ofNat 8 data.length]
  let b := hdr ++ data.flatMap wordBytes
  ethSend s ⟨5, Nat.max 64 (b.length + 46), some (ip, port), b, none⟩

/-- The answer to a command goes to where it came from (R333). -/
def xhpReply (s : State) (c : XCmd) (status : Nat) (data : List Word) : State :=
  xhpSend s c.ip c.port (c.op + 0x80) c.tag status data

/-- XHP is served: XHP_EN and an address. -/
def xhpOn (s : State) : Bool := stpOn s && rb s (stpR 0) 11 && reg s (stpR 0x010) != 0

/-- Table 12-6: the form of a command's payload. (Log 100 DEDUCED unsafe.) -/
def xhpFormOk (op : Nat) (d : List Word) : Bool :=
  let w (i : Nat) : Nat := (d.getD i 0).toNat
  match op with
  | 1 => d.length == 2 && decide (1 ≤ w 1) && decide (w 1 ≤ 256)
  | 2 => decide (2 ≤ d.length) && decide (d.length ≤ 257)
  | 3 => d.length == 3 && decide (1 ≤ w 2) && decide (w 2 ≤ 63)
  | 4 => decide (3 ≤ d.length) && decide (d.length ≤ 65)
  | 7 => true
  | _ => false

/-- R333: a datagram arrives. (Log 100 DEDUCED unsafe.) -/
def xhpIn (s : State) (ip : Word) (port : BitVec 16) (b : List Byte) : State :=
  let allowed := ip != 0 && (List.range 4).any fun a => reg s (stpR (0x018 + 4 * a)) == ip
  if !xhpOn s || !allowed then s
  else
    let d := bytesWords (b.drop 16)
    let c : XCmd := ⟨ip, port, byteAt b 3, wd (beAt b 4 4), d⟩
    let form := decide (16 ≤ b.length) && beAt b 0 2 == 0x5848 && byteAt b 2 == 1 && b.length == 16 + 4 * beAt b 14 2 &&
      xhpFormOk c.op d
    if !form then xhpReply s { c with op := c.op % 128 } 5 []
    else if 16 ≤ s.stp.xq.length then xhpReply s c 4 []
    else modStp s fun t => { t with xq := t.xq ++ [c] }

def execXhpCommandRx (e : Fin 2) (raw : EthFrame) (ip : Word) (port : BitVec 16) (bytes : List Byte) (s : State) : Out :=
  .next (live s fun s => ethFirst s e.val raw fun s l =>
    if xhpGram s l = some (ip.toNat, port.toNat, bytes) then xhpIn s ip port bytes else s)

/-- The CAP_XHP destination. -/
def capXhp (s : State) : Word × BitVec 16 :=
  (reg s (stpR (0x018 + 4 * rf s (capR 0x02C) 17 16)), BitVec.ofNat 16 (rf s (capR 0x02C) 15 0))

/-- R363: waiting log entries leave as one NOTIFY. (Log 35 DEDUCED unsafe.) -/
def execXhpNotifySend (s : State) : Out :=
  .next (live s fun s =>
    let l := s.stp.notify
    if xhpOn s && !l.isEmpty && (decide (16 ≤ l.length) || l.head?.any fun e => decide (e.1 + ms 1 ≤ now s)) then
      let s := xhpSend s (capXhp s).1 (capXhp s).2 5 (wd (nodeId s).toNat) 0 ((l.take 16).flatMap (·.2))
      modStp s fun t => { t with notify := t.notify.drop 16 }
    else s)

/-- The state of a launch slot. -/
def setLch (s : State) (j st : Nat) : State := setRf s (lchR j 0) 19 16 st

/-- A write of TMK_LCHj_NS arms the slot or refuses it (R72). -/
def lchArm (s : State) (o : Origin) (j : Nat) (val : Word) : State :=
  let s := genWrite s o (lchR j 8) val
  let d := lchDelta s j
  setLch s j (if d < 2000 then 8 else if 2147483648 ≤ d then 9 else 1)

def execLaunchArm (o : Origin) (j : Fin 4) (val : Word) (s : State) : Out :=
  .next (live s fun s => gate s (lchR j.val 8) fun s => lchArm s o j.val val)

/-- A slot's frame starts (R73, R75 to R77, R79), once the port is free: its message timestamp point takes the departure
time of the bound instance, which LATE (0xE) writes back; a port without link gives LINKDOWN (0xF). Both codes are the
model's choice. (Log 99 DESIGN CHOICE unsafe, 116 DESIGN CHOICE unsafe.) -/
def lchSend (s : State) (j st : Nat) : State :=
  let e := lchPort s j
  if !ethUp s e then setLch s j 0xF
  else if h : e < 2 then
    let at_ := Nat.max (now s) (kget 0 s.stp.busyTil e)
    let n := lchPt s j
    let b := Config.txFrame (rf s (lchR j 0) 15 8) s.mem
    let v := ptAt s n ((at_ : Int) - (now s : Int))
    let s := modStp s fun t => { t with lchAt := kput none t.lchAt e (some (now s - (-(lchDiff s j)).toNat / 2)) }
    let s := if 1518 < ethLen b + tagLen s then s else ethStart s ⟨e, h⟩ at_ (some n) ⟨1, ethLen b + tagLen s, none, b, none⟩
    let s := if st = 0xE then setReg (setReg s (lchR j 4) (wd (ptSec v))) (lchR j 8) (wd (ptNs v)) else s
    setLch s j st
  else s

/-- Another due slot on the port goes first: the earlier target, then the lower slot (R75). -/
def lchYields (s : State) (j : Nat) : Bool :=
  (List.range 4).any fun k => k != j && lchState s k == 1 && lchPort s k == lchPort s j && decide (lchDiff s k ≤ 0) &&
    (decide (lchDiff s k < lchDiff s j) || (lchDiff s k == lchDiff s j && decide (k < j)))

/-- The target of a due slot lies within 12.384 µs after that of the frame launched before it on the port (R75). (Log 99 DESIGN CHOICE unsafe.) -/
def lchNear (s : State) (j : Nat) : Bool :=
  (kget none s.stp.lchAt (lchPort s j)).any fun t => decide (now s - (-(lchDiff s j)).toNat / 2 ≤ t + 6192)

/-- An armed slot at its target (R68, R73 to R76). (Log 99 DESIGN CHOICE unsafe, 116 DESIGN CHOICE unsafe.) -/
def lchTry (s : State) (j : Nat) : State :=
  let d := lchDiff s j
  if lchState s j ≠ 1 ∨ 0 < d then s
  else if !ethUp s (lchPort s j) then setLch s j 0xF
  else if lchYields s j || decide (now s < kget 0 s.stp.busyTil (lchPort s j)) then s
  else lchSend s j (if lchNear s j || decide (d < -16) then 0xE else 2)

def execLaunchFire (j : Fin 4) (s : State) : Out := .next (live s fun s => lchTry s j.val)

/-- A slot after a step of its PT instance (R76). -/
def lchStepped (s : State) (j : Nat) : State :=
  let d := lchDelta s j
  if d < 0 then lchSend s j 3 else if 2147483648 ≤ d then setLch s j 0xC else s

/-- The units and slots of a PT instance look at a step: a match in the same cycle is taken first (R71). -/
def ptChange (s : State) (n : Nat) (v : Nat) : State :=
  let mine (m : Nat) (s : State) : Bool := cmpState s m == 1 && cmpBase s m == n + 2
  let slot (j : Nat) (s : State) : Bool := lchState s j == 1 && lchPt s j == n
  let s := (List.range 8).foldl (fun s m => if mine m s then cmpTry s m else s) s
  let s := (List.range 4).foldl (fun s j => if slot j s then lchTry s j else s) s
  let s := modTmk s fun t => { t with pt := kput 0 t.pt n (v % ptMod) }
  let s := (List.range 8).foldl (fun s m => if mine m s then cmpStepped s m else s) s
  (List.range 4).foldl (fun s j => if slot j s then lchStepped s j else s) s

/-- R40: a step of signed nanoseconds; the register keeps the value written. (Log 16 DEDUCED unsafe.) -/
def ptStep (s : State) (n : Nat) (val : Word) : State :=
  ptChange (setReg s (tmkR (0x114 + 0x40 * n)) val) n ((((ptOf s n : Int) + val.toInt * (ptOne : Int)) % (ptMod : Int)).toNat)

def execPtStep (_ : Origin) (n : Fin 3) (val : Word) (s : State) : Out :=
  .next (live s fun s => gate s (tmkR (0x114 + 0x40 * n.val)) fun s => ptStep s n.val val)

/-- A write of a time register of a PT instance sets that part of its value. (Log 16 DEDUCED unsafe.) -/
def ptWrite (s : State) (n off : Nat) (val : Word) : State :=
  let v := ptOf s n
  let mk (sec ns sub : Nat) : Nat := (sec * 1000000000 + ns) * ptOne + sub
  match off with
  | 0x00 => ptChange s n (mk (fld val 15 0 * 2 ^ 32 + ptSec v % 2 ^ 32) (ptNs v) (v % ptOne))
  | 0x04 => ptChange s n (mk (ptSec v / 2 ^ 32 * 2 ^ 32 + val.toNat) (ptNs v) (v % ptOne))
  | 0x08 => ptChange s n (mk (ptSec v) (fld val 29 0) (v % ptOne))
  | 0x0C => ptChange s n (mk (ptSec v) (ptNs v) (fld val 15 0 * 65536))
  | _ => s

/-- A write of TMK_PTn_DOMAIN (R323, R335). -/
def ptDomainWrite (s : State) (o : Origin) (n : Nat) (val : Word) : State :=
  let a := tmkR (0x118 + 0x40 * n)
  let clash := (List.range 3).any fun k =>
    let w := reg s (tmkR (0x118 + 0x40 * k))
    k != n && fld w 7 0 == fld val 7 0 && ((bitOf w 16 && bitOf val 16) || (bitOf w 17 && bitOf val 17))
  if !preRun s || clash then accessFault s a else genWrite s o a val

end Sys2Proof.Machine
end

