-- ==== Sys2Proof/Machine/Read.lean ====
section
/-! DEFINITION. What a register reads as: its stored word, with the bits the engines hold and without its
write-only bits. -/

namespace Sys2Proof.Machine

open Sys2Proof

/-- The code of a bring-up stage (STAGE of Table 3-8). -/
def Stage.code : Stage → Nat
  | .detect => 0
  | .train => 1
  | .lock => 2
  | .caps => 3
  | .active => 4
  | .off => 5

/-- STATE of Table 5-13. -/
def cellCode (r : Rdl) : Nat :=
  if r.fracNow then 5
  else match r.state with
    | .zero => 0
    | .plus => 1
    | .minus => 2
    | .blocked => 3
    | .bypassed => 4

/-- STATE of Table 9-11. -/
def LoopSt.code : LoopSt → Nat
  | .off => 0
  | .settle => 1
  | .normal => 2
  | .coast => 3
  | .hold => 4
  | .stopped => 5

/-- STATE of Table 10-12. -/
def CoreSt.code : CoreSt → Nat
  | .off => 0
  | .halted => 1
  | .running => 2
  | .waiting => 3
  | .double => 4
  | .pruned => 5

/-- STATE of CAP_STATUS. -/
def CapSt.code : CapSt → Nat
  | .idle => 0
  | .pre => 1
  | .post => 2
  | .full => 3
  | .stream => 4

/-- Seconds, rounded up, from now to an LT; 0 once it is reached. -/
def secondsTo (s : State) (t : Nat) : Nat := divUp (t - now s) (sec 1)

/-- A word of the SVB_RXHEAD entry (Table 18-3); 0 while the FIFO is empty. -/
def canWord (f : CanFrame) (w : Nat) : Word :=
  match w with
  | 0 => wd (b2n f.ide * 2 ^ 31 + b2n f.rtr * 2 ^ 30 + b2n f.fdf * 2 ^ 29 + f.ident.toNat)
  | 1 => wd (b2n f.brs * 2 ^ 31 + b2n f.esi * 2 ^ 30 + f.dlc.toNat)
  | 2 => f.lt
  | w => if w < 19 then wd (leNat ((f.data.drop (4 * (w - 3))).take 4)) else 0

/-- The SVB node is error-passive (ISO 11898-1: a counter above 127). (Log 111 PRESUMED unsafe.) -/
def canPassive (v : Svb) : Bool := decide (128 ≤ v.tec) || decide (128 ≤ v.recErr)

/-- The SVB block has a W1C bit set (R291). (Log 37 DEDUCED unsafe.) -/
def svbIrq (s : State) : Bool :=
  rf s (svbR 0x004) 2 1 != 0 || rf s (svbR 0x800) 15 0 != 0 || rf s (svbR 0x808) 7 4 != 0 || rb s (svbR 0x830) 1

/-- The level of a block's interrupt line (R291). (Log 37 DEDUCED unsafe.) -/
def irqLine (s : State) (b : Nat) : Bool :=
  match b with
  | 1 => (List.range 8).any fun m => rb s (cmpR m 0) 8 && (cmpState s m == 2 || cmpState s m == 3)
  | 10 => rb s (fltR 0x004) 31
  | 13 => svbIrq s
  | _ => false

/-- The pending interrupt lines, by block index. -/
def irqPend (s : State) : Nat := (List.range 15).foldl (fun n b => n + b2n (irqLine s b) * 2 ^ b) 0

/-- A snapshot value of a subscription is not of good quality. (Log 98 PRESUMED unsafe.) -/
def svQualBad (s : State) (k : Nat) : Bool :=
  kget false s.stp.svHad k &&
    (List.range (kget default s.stp.svNow k).values.length).any fun v => !(kget 0 s.stp.svGood k).toNat.testBit v

/-- The bits of a register of SYS that its engines hold. -/
def sysHeld (s : State) (off : Nat) : Nat :=
  match off with
  | 0x004 => s.sys.strap.toNat
  | 0x008 => s.sys.refuse * 2 ^ 28 + s.sys.cause.toNat * 2 ^ 16 + b2n (rb s (sysR 0x030) 0) * 2 ^ 8 + (modeOf s).code
  | 0x02C => s.nv.pwrCnt.toNat
  | 0x044 => if s.sys.tbl.busyTil.isSome then 1 else s.sys.tbl.record % 2 ^ 16 * 2 ^ 16 + s.sys.tbl.result
  | 0x048 => s.sys.tbl.setId.toNat
  | 0x054 =>
    let p := s.sys.pair
    b2n p.intlOut * 2 ^ 31 + b2n p.intlIn * 2 ^ 30 + b2n p.active * 2 ^ 29 + b2n p.gap * 2 ^ 28 + b2n p.synced * 2 ^ 27 +
      b2n p.syncing * 2 ^ 26 + b2n p.peerSyn * 2 ^ 25 + Nat.min 15 p.mmRun * 2 ^ 20 + Nat.min 15 p.lowRun * 2 ^ 16
  | 0x108 => b2n s.sys.qspi.isSome
  | _ => 0

/-- The bits of a register of TMK that its engines hold. -/
def tmkHeld (s : State) (off : Nat) : Nat :=
  if off = 0x004 then
    Nat.min 15 s.tmk.missRun * 2 ^ 12 + b2n s.tmk.second * 2 ^ 11 +
      b2n ((selPort s).any fun p => (portOf s p).fwd) * 2 ^ 10 + b2n s.tmk.coupled * 2 ^ 9 + b2n s.tmk.slewing * 2 ^ 8 +
      b2n (alignNow s) * 2 ^ 7
  else if off = 0x020 then s.tmk.tick.toNat % 256 * 2 ^ 24 + s.tmk.phase.toNat
  else if off = 0x030 then now s
  else if off = 0x024 ∨ off = 0x034 then (kget 0 s.tmk.latch off).toNat
  else if off = 0x040 then s.tmk.dacc
  else if 0x100 ≤ off ∧ off < 0x1C0 then
    let n := (off - 0x100) / 0x40
    match (off - 0x100) % 0x40 with
    | 0x0 => (kget 0 s.tmk.latch off).toNat
    | 0x4 => (kget 0 s.tmk.latch off).toNat
    | 0x8 => (kget 0 s.tmk.latch off).toNat
    | 0xC => ptSub (ptOf s n)
    | _ => 0
  else 0

/-- The bits of a register of TRL that its engines hold. -/
def trlHeld (s : State) (off : Nat) : Nat :=
  if 0x100 ≤ off ∧ off < 0x280 then
    let p := (off - 0x100) / 0x40
    let t := portOf s p
    match (off - 0x100) % 0x40 with
    | 0x4 =>
      Nat.min 255 t.fails * 2 ^ 24 + b2n t.polInv * 2 ^ 15 + b2n t.peerOk * 2 ^ 14 + b2n t.idleRx * 2 ^ 13 + b2n t.idleTx * 2 ^ 12 +
        b2n t.fwd * 2 ^ 11 + (if dirOf s p = 0 ∧ s.sys.barred = false then Stage.off.code else t.stage.code) * 2 ^ 8
    | 0xC => t.deskew.toNat
    | _ => 0
  else 0

/-- The bits of a register of SWG that its engines hold. (Log 65 DEDUCED unsafe.) -/
def swgHeld (s : State) (off : Nat) : Nat :=
  if off = 0x004 then
    b2n s.swg.softoff * 2 ^ 31 + b2n s.swg.tripped * 2 ^ 30 + s.swg.armed.toNat * 2 ^ 16 +
      (List.range 8).foldl (fun n m => n + b2n (chOn s m && !has8 s.swg.armed m) * 2 ^ m) 0 * 2 ^ 8 + s.swg.gcmd.toNat
  else if 0x100 ≤ off ∧ off < 0x180 ∧ off % 0x10 = 8 then b2n (has8 s.swg.gfb ((off - 0x100) / 0x10)) * 2 ^ 7
  else 0

/-- The bits of a register of LPE that its engines hold. -/
def lpeHeld (s : State) (off : Nat) : Nat :=
  if off = 0x014 then qLoad s else
  if off = 0x000 then
    (List.range 4).foldl (fun n i => n + b2n ((reg s (siStat i) &&& 0x3B) != 0) * 2 ^ (16 + i)) 0 +
      (List.range 16).foldl (fun n c => n + b2n (rf s (qcR c 0) 1 0 != 0) * 2 ^ c) 0
  else if 0x100 ≤ off ∧ off < 0x300 then
    let x := instOf s ((off - 0x100) / 0x80)
    match (off - 0x100) % 0x80 with
    | 0x00 => b2n x.bank * 2 ^ 30
    | 0x08 => x.st.code * 2 ^ 29 + Nat.min 255 x.runCnt * 2 ^ 16 + Nat.min 255 x.feCnt * 2 ^ 8 + b2n s.sys.pair.gap * 2 ^ 7 + b2n (x.setHold != 0) * 4
    | 0x10 => Nat.min 511 x.loss
    | _ => 0
  else 0

/-- The bits of a register of FLT that its engines hold. -/
def fltHeld (s : State) (off : Nat) : Nat :=
  match off with
  | 0x004 => b2n (modeOf s == .degraded) * 2 ^ 30
  | 0x088 => b2n s.flt.stopped * 2 ^ 31 + b2n s.flt.running * 2 ^ 30
  | 0x08C =>
    match s.flt.degTil with
    | some t => Nat.min 65535 (divUp (t - now s) (ms 100)) * 2 ^ 16 + s.flt.degNow % 512
    | none => 0
  | _ => 0

/-- The bits of a register of SAF that the island holds. -/
def safHeld (s : State) (off : Nat) : Nat :=
  let f := s.saf
  if 0x400 ≤ off then (kget 0 s.nv.log ((off - 0x400) / 4)).toNat
  else match off with
    | 0x008 =>
      b2n f.latched * 2 ^ 31 + b2n s.nv.bypassed * 2 ^ 30 + b2n f.act.isSome * 2 ^ 29 + b2n f.outB * 2 ^ 28 + b2n f.outA * 2 ^ 27 +
        b2n f.fbB * 2 ^ 26 + b2n f.fbA * 2 ^ 25 + b2n f.inB * 2 ^ 24 + b2n f.inA * 2 ^ 23 + b2n s.nv.actFailed * 2 ^ 12 +
        b2n f.fullRun * 2 ^ 10 + f.chFault.toNat * 2 ^ 8 + b2n f.test.isSome * 2 ^ 7
    | 0x00C => f.demand.toNat
    | 0x018 => f.last * 2 ^ 30 + (match f.due with | some t => Nat.min 131071 (secondsTo s t) | none => 0)
    | 0x038 =>
      b2n f.unlocked * 2 ^ 24 + b2n s.nv.default * 2 ^ 23 + Nat.min 127 s.nv.fails * 2 ^ 16 + Nat.min 4095 (secondsTo s f.lockTil) * 16 +
        Nat.min 15 f.refused
    | 0x060 => s.nv.logNext * 2 ^ 16 + s.nv.unack
    | 0x064 => s.nv.logSeq.toNat
    | _ => 0

/-- The bits of a register of SUP that its engines hold. -/
def supHeld (s : State) (off : Nat) : Nat :=
  let u := s.sup
  match off with
  | 0x004 => b2n u.gateB * 2 ^ 7 + b2n u.gateA * 2 ^ 6 + b2n u.validB * 2 ^ 5 + b2n u.validA * 2 ^ 4
  | 0x008 => u.mvB.toNat * 2 ^ 16 + u.mvA.toNat
  | 0x010 => u.waiting * 2 ^ 8 + u.stage.toNat / 2 * 2
  | 0x128 => b2n u.capIn * 2 ^ 5 + b2n (decide (64 ≤ u.pow.length)) * 2 ^ 4 + b2n u.low
  | _ => 0

/-- The bits of a register of SVB that its engines hold. -/
def svbHeld (s : State) (off : Nat) : Nat :=
  let v := s.svb
  if 0x400 ≤ off ∧ off < 0x450 then (match v.fifo.head? with | some f => (canWord f ((off - 0x400) / 4)).toNat | none => 0)
  else if 0x100 ≤ off ∧ off < 0x380 ∧ (off - 0x100) % 0x50 = 0 then
    b2n (v.pend.toNat.testBit ((off - 0x100) / 0x50)) * (2 ^ 31 + 2 ^ 29)
  else match off with
    | 0x004 => b2n v.recov * 2 ^ 5 + b2n v.busOff * 2 ^ 4 + b2n (canPassive v) * 2 ^ 3 + b2n !v.fifo.isEmpty
    | 0x010 => Nat.min 511 v.tec * 2 ^ 16 + Nat.min 255 v.recErr * 2 ^ 8
    | 0x018 => v.fifo.length
    | 0x800 => v.level.toNat * 2 ^ 16
    | 0x808 => v.touched.toNat
    | 0x830 => b2n v.present
    | _ => 0

/-- The bits of a register that its block's engines hold. -/
def heldBits (s : State) (a : Nat) : Word :=
  let off := (a - 0x40000000) % 0x10000
  wd (match blockOf a with
    | 0 => sysHeld s off
    | 1 => tmkHeld s off
    | 2 => trlHeld s off
    | 3 =>
      (match off with
       | 0x000 => (nodeId s).toNat
       | 0x008 => b2n s.trr.walk.done * 2 ^ 31 + b2n s.trr.walk.running * 2 ^ 30 + s.trr.walk.count % 2 ^ 14
       | _ => 0)
    | 4 =>
      (match off with
       | 0x000 => if roleOf s = .arm then b2n (armPlane s) * 2 else 0
       | 0x040 =>
         s.rdl.cls * 2 ^ 30 + s.rdl.bin * 2 ^ 25 + cellCode s.rdl * 2 ^ 22 + s.rdl.cause.toNat * 2 ^ 15 +
           Nat.min 15 s.rdl.holdRun * 2 ^ 8 + b2n (!isActive s 0) * 2 ^ 7
       | 0x058 => b2n s.rdl.forced.isSome * 2 ^ 4
       | _ => 0)
    | 5 => swgHeld s off
    | 6 =>
      (match off with
       | 0x00C => s.sns.frozen.toNat
       | 0x380 => s.sns.sdValid.toNat * 2 ^ 8
       | 0x510 => b2n s.sns.noPulse * 2
       | _ => 0)
    | 7 => lpeHeld s off
    | 8 =>
      if off = 0x004 then s.stp.link.toNat
      else if 0x400 ≤ off ∧ off < 0x800 ∧ off % 0x40 = 4 then
        let k := (off - 0x400) / 0x40
        b2n (kget false s.stp.svLate k) * 2 ^ 6 + b2n (svQualBad s k) * 2 ^ 4 + b2n (kget false s.stp.svSeen k)
      else 0
    | 9 => if off = 0x004 then s.cap.st.code * 2 ^ 28 + s.cap.err * 2 ^ 24 + s.cap.slot else 0
    | 10 => fltHeld s off
    | 11 => safHeld s off
    | 12 => supHeld s off
    | 13 => svbHeld s off
    | 14 =>
      if off = 0x810 then irqPend s
      else if off < 0x400 then
        let c := coreOf s (off / 0x100)
        match off % 0x100 with
        | 0x04 => Nat.min 255 c.rxq.length * 2 ^ 16 + c.cause % 16 * 2 ^ 12 + c.st.code
        | 0x08 => c.pc.toNat
        | _ => 0
      else 0
    | _ => 0)

/-- A defined register reads as its stored word, without write-only bits (Table 0-3), and what its engines hold. -/
def readReg (s : State) (a : Nat) : Word :=
  match rowOf a with
  | some r => (reg s a &&& accMask r (· != .wo)) ||| heldBits s a
  | none => 0

end Sys2Proof.Machine
end

