-- ==== Sys2Proof/Machine/Capture.lean ====
section
/-! DEFINITION. The capture engine (R336 to R352): arming, rows, comparators, records, stream blocks and relays. -/

namespace Sys2Proof.Machine

open Sys2Proof

/-- Words of the capture RAM. -/
def capWords : Nat := 524288

def capCfg (s : State) : Word := reg s (capR 0x000)
def capStreams (s : State) : Bool := bitOf (capCfg s) 0
def capPer (s : State) : Nat := rf s (capR 0x008) 15 0
def capPre (s : State) : Nat := rf s (capR 0x00C) 19 0
def capPost (s : State) : Nat := rf s (capR 0x010) 19 0

/-- Enabled channels, rising. -/
def capChans (s : State) : List Nat := bitsUp 32 (reg s (capR 0x014)).toNat

def capRecw (s : State) : Nat := (capPre s + capPost s) * (capChans s).length

/-- NREC. -/
def capSlots (s : State) : Nat := fld (capCfg s) 10 8 + 1

def capRec (r w : Nat) : Nat := capR (0x400 + 0x20 * r + 4 * w)

/-- The lowest free slot. -/
def capFree (s : State) : Option Nat := (List.range (capSlots s)).find? fun r => !rb s (capRec r 0) 31

/-- floor(58 / NCH), the rows of a stream block. -/
def capBlkRows (s : State) : Nat := 58 / Nat.max 1 (capChans s).length

/-- A selector that Table 13-1 does not take, or that the role does not have (check 4). -/
def capSelBad (s : State) (n : Nat) : Bool :=
  let kind := rf s (capR (0x100 + 8 * n)) 15 12
  let ix := rf s (capR (0x100 + 8 * n)) 11 0
  let a := (reg s (capR (0x104 + 8 * n))).toNat / 4 * 4
  !(match kind with
    | 1 => decide (ix ≤ 16)
    | 2 => decide (ix ≤ 7)
    | 3 => stpOn s && decide (ix < 512)
    | 4 => ix == 0
    | 5 => isUpper s && decide (ix < 256) && decide (ix % 64 ≤ 39)
    | 6 => isUpper s && decide (ix < 32)
    | 7 => decide (ix < 16)
    | 8 => isUpper s && decide (ix ≤ 63)
    | 9 => ix == 0 && inPeriph a && (rowOf a).isSome
    | _ => false)

/-- The CAP_ERR of an arming (R338, Table 13-2), lowest code first; 0 where every check passes. (Log 102 DEDUCED unsafe.) -/
def capErr (s : State) : Nat :=
  let nch := (capChans s).length
  let snap := !capStreams s
  let clk := bitOf (capCfg s) 4
  let per := capPer s
  let r := capBlkRows s
  let rows := if clk then divUp (periodLt s) (Nat.max 1 per) else 1
  if snap && decide (capWords < capPost s * nch) then 1
  else if snap && (decide (capWords < capSlots s * capRecw s) || capPost s == 0) then 2
  else if nch = 0 then 3
  else if (capChans s).any (capSelBad s) then 4
  else if clk && decide (per * 2 < Nat.max 200 (nch * 8)) then 5
  else if !snap && decide (400000000 * r * s.tmk.period < rows * 2000000 * (6 + r * nch) * 32) then 5
  else if (List.range 8).any fun m => rb s (capR 0x018) m && !(capChans s).contains (rf s (capR (0x200 + 0x10 * m)) 12 8) then 7
  else if !ledgerOk s 30 then 6
  else 0

/-- The capture starts (R338, R341, R344). A row whose phase has passed is not taken. -/
def capStart (s : State) : State :=
  let slot := capFree s
  let st : CapSt := if capStreams s then .stream else if slot.isSome then .pre else .full
  let row := if bitOf (capCfg s) 4 then divUp (phaseOf s) (Nat.max 1 (capPer s)) else 1
  modCap s fun c =>
    { (default : Cap) with st := st, slot := slot.getD 0, rearm := st == .full, rowN := row, rseq := c.rseq, bseq := c.bseq, relay := c.relay
                           fifo := c.fifo }

/-- ARM in IDLE (R338). (Log 104 DEDUCED unsafe.) -/
def capArm (s : State) : State :=
  match capErr s with
  | 0 => capStart (modCap s fun c => { c with err := 0 })
  | e =>
    let s := modCap (setRf s (capR 0x000) 31 31 0) fun c => { c with err := e }
    let s := report s 288 .capRefused (capR 0x000)
    if e = 6 then ledgerRefuse s else s

/-- A write of CAP_CTRL: outside IDLE only STOP and TRIG act (R339, R342, R347). (Log 103 DEDUCED safe.) -/
def capCtrlWrite (s : State) (o : Origin) (val : Word) : State :=
  let go (s : State) : State :=
    let s := if bitOf val 29 then capTrig s 9 else s
    if bitOf val 30 then modCap s fun c => { c with stop := true } else s
  if s.cap.st = .idle then
    let s := genWrite s o (capR 0x000) val
    let s := if bitOf val 31 then capArm s else s
    if s.cap.st = .idle then s else go s
  else
    let s := go s
    let s := if bitOf val 31 then swMark s (capR 0x000) 0x80000000 else s
    if bitOf val 30 || bitOf val 29 then s else accessFault s (capR 0x000)

/-- The configuration registers of CAP beside CAP_CTRL. -/
def capIsCfg (off : Nat) : Bool :=
  [0x008, 0x00C, 0x010, 0x014, 0x018, 0x028, 0x02C].contains off || (decide (0x100 ≤ off) && decide (off < 0x280))

/-- A write to a CAP register (R339). (Log 103 DEDUCED safe.) -/
def capWrite (s : State) (o : Origin) (a : Nat) (val : Word) : State :=
  let off := a - capR 0
  if off = 0 then capCtrlWrite s o val
  else if capIsCfg off && s.cap.st != .idle then accessFault s a
  else genWrite s o a val

def execCapArm (o : Origin) (val : Word) (s : State) : Out := .next (live s fun s => gate s (capR 0) fun s => capCtrlWrite s o (setBit val 31 true))
def execCapStop (o : Origin) (val : Word) (s : State) : Out := .next (live s fun s => gate s (capR 0) fun s => capCtrlWrite s o (setBit val 30 true))
def execCapTrigWrite (o : Origin) (val : Word) (s : State) : Out := .next (live s fun s => gate s (capR 0) fun s => capCtrlWrite s o (setBit val 29 true))

/-- R345: 1 to VALID frees a slot. -/
def execCapSlotFree (o : Origin) (r : Fin 8) (s : State) : Out :=
  .next (live s fun s => gate s (capRec r.val 0) fun s => capWrite s o (capRec r.val 0) 0x80000000)

/-- The value of a channel in a row (R336, R337): tick snapshots with CLK 0, the latest completed values with CLK 1. -/
def capValue (s : State) (n : Nat) : Word :=
  let clk := bitOf (capCfg s) 4
  let kind := rf s (capR (0x100 + 8 * n)) 15 12
  let ix := rf s (capR (0x100 + 8 * n)) 11 0
  match kind with
  | 1 =>
    let v := if clk then rf s (snsRes ix) 15 0 else snapOf s ix
    if rb s (snsCfgR ix) 31 then wdI (sext 16 v) else wd v
  | 2 => reg s (if clk then sdRes ix else sdRes ix + 4)
  | 3 =>
    if clk then ((kget default s.stp.svNow (ix / 32)).values.getD (ix % 32) (0, 0)).1
    else reg s (stpR (0x1000 + 0x100 * (ix / 32) + 8 * (ix % 32)))
  | 4 => if clk then reg s (snsR (if rf s (snsR 0x500) 25 24 = 1 then 0x508 else 0x504)) else reg s (snsR 0x50C)
  | 5 => reg s (lpeMem (ix / 64) (ix % 64))
  | 6 => reg s (siU (ix / 8) (ix % 8))
  | 7 => reg s (qcR ix 0x1C)
  | 8 => reg s (lpeR (0x700 + 4 * ix))
  | 9 =>
    let a := (reg s (capR (0x104 + 8 * n))).toNat / 4 * 4
    if reachable s a then readReg s a else 0
  | _ => 0

/-- A comparison in the format TYPE: (value < level, value = level); none for a NaN. -/
def capCompare (ty : Nat) (v l : Word) : Option Int :=
  match ty with
  | 1 => some ((v.toNat : Int) - (l.toNat : Int))
  | 2 => if fpIsNan v || fpIsNan l then none else some (fpCmp v l)
  | _ => some (v.toInt - l.toInt)

/-- LEVEL with HYST taken off or put on, compared with the value. -/
def capHyst (ty : Nat) (v l h : Word) (up : Bool) : Option Int :=
  match ty with
  | 1 => some ((v.toNat : Int) - (l.toNat : Int) + (if up then -(h.toNat : Int) else (h.toNat : Int)))
  | 2 =>
    let t := (if up then fpAdd l h else fpSub l h).1
    if fpIsNan v || fpIsNan t then none else some (fpCmp v t)
  | _ => some (v.toInt - l.toInt + (if up then -h.toInt else h.toInt))

/-- One comparator on one row (R341): whether it fires, and its armed flags after it. -/
def capCmpRow (cfg l h v : Word) (up dn : Bool) : Bool × Bool × Bool :=
  let ty := fld cfg 7 6
  let e := fld cfg 5 4
  match capCompare ty v l with
  | none => (false, up, dn)
  | some d =>
    let below := (capHyst ty v l h false).any (· ≤ 0)
    let above := (capHyst ty v l h true).any (0 ≤ ·)
    let rise := e != 1
    let fall := e == 1 || e == 2
    let f1 := rise && up && decide (0 ≤ d)
    let up := if rise then (up && !f1) || below else up
    let f2 := fall && dn && decide (d ≤ 0)
    let dn := if fall then (dn && !f2) || above else dn
    (f1 || f2, up, dn)

/-- The comparators on a row: the sources that fire. -/
def capCompareAll (s : State) : State × Nat :=
  (List.range 8).foldl (fun (r : State × Nat) m =>
    if rb r.1 (capR 0x018) m then
      let cfg := reg r.1 (capR (0x200 + 0x10 * m))
      let x := capCmpRow cfg (reg r.1 (capR (0x204 + 0x10 * m))) (reg r.1 (capR (0x208 + 0x10 * m)))
        (capValue r.1 (fld cfg 12 8)) (has8 r.1.cap.up m) (has8 r.1.cap.dn m)
      (modCap r.1 fun c => { c with up := set8 c.up m x.2.1, dn := set8 c.dn m x.2.2 }, r.2 + b2n x.1 * 2 ^ m)
    else r) (s, 0)

/-- The stamp of a row (words 0 to 4 of Table 13-4, word 0 with TT_ALIGN and PT0_OK alone). (Log 105 DESIGN CHOICE unsafe.) -/
def capStamp (s : State) (ph : Nat) : List Word :=
  let pt := isUpper s && rb s (tmkR 0x000) 1
  let v := ptOf s 0
  [wd (b2n (alignNow s) * 2 ^ 27 + b2n pt * 2 ^ 26), wd s.tmk.tick.toNat,
   wd (s.tmk.tick.toNat / 2 ^ 32 * 2 ^ 24 + ph), wd (if pt then ptSec v else 0), wd (if pt then ptNs v else 0)]

/-- A stream block is queued (Table 13-4): kind, stamp, COUNT, SRC and data. (Log 105 DESIGN CHOICE unsafe.) -/
def capQueue (s : State) (kind : Nat) (stamp : List Word) (count src : Nat) (data : List Word) : State :=
  let c := s.cap
  let w0 := wd (kind * 2 ^ 28 + (stamp.getD 0 0).toNat + (capChans s).length * 2 ^ 16 + c.bseq.toNat)
  let blk := w0 :: (stamp.drop 1 ++ [wd (Nat.min 65535 count * 2 ^ 16 + src)]) ++ data
  modCap s fun c => { c with fifo := c.fifo ++ [(now s, blk)], bseq := c.bseq + 1 }

/-- The open data block is closed (R348). -/
def capClose (s : State) : State :=
  let c := s.cap
  if c.rows.isEmpty then s
  else modCap (capQueue s 1 c.rowHdr c.rows.length 0 c.rows.flatten) fun c => { c with rows := [] }

/-- Words the stream holds in the FIFO and in the open block. -/
def capHeld (c : Cap) : Nat :=
  c.fifo.foldl (fun n b => n + b.2.length) 0 + (if c.rows.isEmpty then 0 else 6 + c.rows.length * (c.rows.headD []).length)

/-- The capture ends: IDLE, ARM cleared; an ARM written in the same cycle starts the next capture (R13). -/
def capEnd (s : State) : State :=
  actionEnd (modCap s fun c => { c with st := .idle, stop := false, rearm := false, trig := 0 }) (capR 0x000) 0x80000000 capArm

/-- A row in stream mode (R348, R350). -/
def capStreamRow (s : State) (stamp : List Word) (row : List Word) (src : Nat) : State :=
  let fits := decide (capHeld s.cap + row.length + 18 ≤ capWords)
  if !fits then
    let s := capClose s
    let s := if s.cap.gap = 0 then report s 288 .capOverflow (capR 0x030) else s
    let s := countUp s (capR 0x030) 31 0
    modCap s fun c => { c with gap := c.gap + 1, gapHdr := if c.gap = 0 then stamp else c.gapHdr }
  else
    let s := if s.cap.gap = 0 then s
      else modCap (capQueue s 3 s.cap.gapHdr s.cap.gap 0 []) fun c => { c with gap := 0 }
    let s := if src = 0 then s else capQueue (capClose s) 2 stamp 0 src []
    let s := modCap s fun c => { c with rows := c.rows ++ [row], rowHdr := if c.rows.isEmpty then stamp else c.rowHdr }
    if capBlkRows s ≤ s.cap.rows.length then capClose s else s

/-- A row goes to a place of the record being filled. (Log 105 DESIGN CHOICE unsafe.) -/
def capPut (s : State) (ix : Nat) (row : List Word) : State :=
  let base := 0x30000000 + 4 * (s.cap.slot * capRecw s + ix * row.length)
  (List.range row.length).foldl (fun s k => memWrite s (base + 4 * k) (natLe 4 (row.getD k 0).toNat)) s

/-- The descriptor of the record (Table 13-5, R345, R346, R347); what follows it. -/
def capFinish (s : State) (stopped : Bool) : State :=
  let c := s.cap
  let r := c.slot
  let pre := capPre s
  let st := c.stamp
  let w0 := (st.getD 0 0).toNat / 2 ^ 26 % 2 * 2 ^ 30 + (st.getD 0 0).toNat / 2 ^ 27 % 2 * 2 ^ 29 + c.src.toNat * 2 ^ 16 + c.rseq.toNat
  let ws := [wd w0, wd (Nat.min pre c.preCnt), wd (if pre = 0 ∨ c.preCnt < pre then 0 else c.preCnt % pre), st.getD 1 0, st.getD 2 0, st.getD 3 0,
    st.getD 4 0, wd c.postCnt]
  let s := (List.range 8).foldl (fun s w => setReg s (capRec r w) (ws.getD w 0)) s
  let s := modCap (flag s (capRec r 0) 0x80000000) fun c => { c with rseq := c.rseq + 1 }
  if stopped || !bitOf (capCfg s) 11 then capEnd s
  else modCap s fun c => { c with rearm := true, st := if (capFree s).isSome then .post else .full }

/-- A post-trigger row; after POST rows the record is complete (R344). (Log 104 DEDUCED unsafe.) -/
def capPostRow (s : State) (row : List Word) : State :=
  let s := capPut s (capPre s + s.cap.postCnt) row
  let s := modCap s fun c => { c with postCnt := c.postCnt + 1 }
  if capPost s ≤ s.cap.postCnt then capFinish s false else s

/-- A pre-trigger row. -/
def capPreRow (s : State) (row : List Word) : State :=
  let s := if capPre s = 0 then s else capPut s (s.cap.preCnt % capPre s) row
  modCap s fun c => { c with preCnt := c.preCnt + 1 }

/-- A trigger while the part records none (R345). -/
def capMissed (s : State) (stamp : List Word) : State :=
  let s := if rf s (capR 0x01C) 15 0 = 0 then
      setReg (setReg s (capR 0x020) (stamp.getD 1 0)) (capR 0x024) (stamp.getD 2 0 &&& 0x7FFF)
    else s
  countUp s (capR 0x01C) 15 0

/-- Armed again at a row, where a slot is free (R345). (Log 104 DEDUCED unsafe.) -/
def capRearm (s : State) : State :=
  if !s.cap.rearm then s
  else match capFree s with
    | some r => modCap s fun c => { c with st := .pre, slot := r, preCnt := 0, postCnt := 0, rearm := false }
    | none => modCap s fun c => { c with st := .full }

/-- One row, latched with its stamp (R337, R341 to R348). -/
def capRowAt (s : State) (ph : Nat) : State :=
  let s := capRearm s
  let row := (capChans s).map (capValue s)
  let stamp := capStamp s ph
  let x := capCompareAll s
  let src := x.2 + x.1.cap.trig.toNat / 256 * 256
  let stop := s.cap.stop
  let s := modCap x.1 fun c => { c with trig := 0 }
  match s.cap.st with
  | .stream =>
    if stop then capEnd (if src = 0 then capClose s else capQueue (capClose s) 2 stamp 0 src [])
    else capStreamRow s stamp row src
  | .pre =>
    if src ≠ 0 then
      let s := modCap s fun c => { c with st := .post, src := BitVec.ofNat 11 src, stamp := stamp, postCnt := 0 }
      if stop then
        capFinish (modCap (capPut s (capPre s) row) fun c => { c with postCnt := 1 }) true
      else capPostRow s row
    else if stop then capEnd s
    else capPreRow s row
  | .post =>
    let s := if src ≠ 0 then capMissed s stamp else s
    if stop then (if s.cap.rearm then capEnd s else capFinish s true) else if s.cap.rearm then s else capPostRow s row
  | .full =>
    let s := if src ≠ 0 then capMissed s stamp else s
    if stop then capEnd s else s
  | .idle => s

/-- A row falls due in this cycle (R337): with CLK 0 at the tick application, with CLK 1 at phases 0, PER, 2 PER and so on. -/
def capDue (s : State) : Bool :=
  let ph := phaseOf s
  s.cap.st != .idle && s.tmk.ticked &&
    (if bitOf (capCfg s) 4 then ph % capPer s == 0 && decide (s.cap.rowN * capPer s ≤ ph) && decide (ph < periodLt s)
     else ph == 0 && s.cap.rowN == 0)

/-- R337: the row that is due, and the index of the next. -/
def capRow (s : State) : State :=
  if capDue s then
    capRowAt (modCap s fun c => { c with rowN := if bitOf (capCfg s) 4 then phaseOf s / capPer s + 1 else 1 }) (phaseOf s)
  else s

def execCapRow (s : State) : Out := .next (live s capRow)

/-- R351, R352: relayed blocks leave one a datagram; own blocks as datagrams of up to 5, or as STREAM packets. -/
def capStreamSend (s : State) : State :=
  match s.cap.relay with
  | b :: r =>
    if xhpOn s then
      xhpSend (modCap s fun c => { c with relay := r }) (capXhp s).1 (capXhp s).2 6 (wd b.2.toNat) 0 b.1
    else s
  | [] =>
    match s.cap.fifo with
    | [] => s
    | b :: r =>
      if bitOf (capCfg s) 5 then
        emit (modCap s fun c => { c with fifo := r })
          (ownPacket s (BitVec.ofNat 20 (rf s (capR 0x028) 19 0)) 48 0x20 3 (BitVec.ofNat 8 (b.2.getD 0 0).toNat) b.2)
      else if xhpOn s && (decide (5 ≤ s.cap.fifo.length) || decide (b.1 + us 100 ≤ now s)) then
        let bs := s.cap.fifo.take 5
        xhpSend (modCap s fun c => { c with fifo := c.fifo.drop 5 }) (capXhp s).1 (capXhp s).2 6
          (wd (nodeId s).toNat) 0 (bs.flatMap (·.2))
      else s

def execCapStreamSend (s : State) : Out := .next (live s capStreamSend)

/-- A part relays streams: its station port is in service and XHP_EN is 1 (R352). -/
def relays (s : State) : Bool := stpOn s && rb s (stpR 0) 11

/-- R352: a STREAM packet at endpoint indices 48 to 55 is relayed to the host, or dropped at a full queue. (Log 105 DESIGN CHOICE unsafe.) -/
def streamIn (s : State) (pk : Packet) : State :=
  if !relays s then s
  else if 16 ≤ s.cap.relay.length then countUp s (capR 0x034) 31 0
  else modCap s fun c => { c with relay := c.relay ++ [(pk.payload, BitVec.ofNat 14 (nodeOf pk.src))] }

def execStreamRx (pk : Packet) (s : State) : Out :=
  .next (live s fun s => ownIn s [0x20] pk fun s => if 48 ≤ epOf pk.dest ∧ epOf pk.dest ≤ 55 then streamIn s pk else s)

end Sys2Proof.Machine
end

