-- ==== Sys2Proof/Machine/Pair.lean ====
section
/-! DEFINITION. The pair logic (R416 to R434): the interlock, mirroring and comparison, yielding, and the state
image of a resynchronisation. -/

namespace Sys2Proof.Machine

open Sys2Proof

def pairCfg : Nat := sysR 0x050
def pairStat : Nat := sysR 0x054

/-- The pair logic works (R416). -/
def paired (s : State) : Bool := isUpper s && rb s pairCfg 31

def sideB (s : State) : Bool := rb s pairCfg 30

/-- A write of SYS_PAIR_CFG (R416). -/
def pairCfgWrite (s : State) (o : Origin) (val : Word) : State :=
  if isUpper s && modeOf s == .boot then genWrite s o pairCfg val else accessFault s pairCfg

/-- YIELD_REQ (R427). -/
def yieldReq (s : State) : State :=
  if !(paired s && s.sys.pair.active) then s
  else if rb s (fltR 0x014) 31 && decide (rf s pairCfg 26 24 ≤ rf s (fltR 0x008) 15 13) then yieldMark s
  else report s 8 .pairMismatch pairCmd

/-- RELINQUISH (R427). -/
def relinquish (s : State) : State := if paired s then yieldMark s else s

/-- PEER_UPD (R434). -/
def peerUpd (s : State) (v : Bool) : State := if paired s then modPair s fun p => { p with peerSyn := v } else s

/-- Every enabled Class S instance is NORMAL. -/
def allNormal (s : State) : Bool := (List.range 4).all fun i => !rb s (siCtrl i) 0 || (instOf s i).st == .normal

/-- SYNC_REQ (R433): at a standby in RUN it asks the partner; at the active part it asks for the image. -/
def syncReq (s : State) : State :=
  if !paired s then s
  else if s.sys.pair.active then modPair s fun p => { p with imgReq := true }
  else if modeOf s == .run && allNormal s then
    partnerCmd (modPair (swMark (setRf s pairCmd 29 29 1) pairCmd 0x20000000) fun p =>
      { p with syncing := true, image := [], imgEnd := false, loaded := false, match_ := 0 }) 0x20000000
  else s

/-- A write of SYS_PAIR_CMD (Table 16-6). -/
def pairCmdWrite (s : State) (_ : Origin) (val : Word) : State :=
  let s := if bitOf val 28 then peerUpd s (bitOf val 27) else s
  let s := if bitOf val 31 then relinquish s else s
  let s := if bitOf val 30 then yieldReq s else s
  if bitOf val 29 then syncReq s else s

def execYieldReq (o : Origin) (s : State) : Out := .next (live s fun s => pairCmdWrite s o 0x40000000)
def execRelinquish (o : Origin) (s : State) : Out := .next (live s fun s => pairCmdWrite s o 0x80000000)
def execSyncReq (o : Origin) (s : State) : Out := .next (live s fun s => pairCmdWrite s o 0x20000000)
def execPeerUpd (o : Origin) (val : Word) (s : State) : Out :=
  .next (live s fun s => pairCmdWrite s o (setBit (val &&& 0x08000000) 28 true))

/-- R428: the yield at phase period - 200 ns. -/
def yieldDrop (s : State) : State :=
  match s.sys.pair.yieldTk with
  | some t =>
    if s.sys.pair.active && (decide (t < s.tmk.tick) || (t == s.tmk.tick && decide (periodLt s ≤ phaseOf s + 100))) then
      flag (intlDrop s) pairStat 1
    else s
  | none => s

def execYieldDrop (s : State) : Out := .next (live s yieldDrop)

/-- R422: INTL_IN 100 ns after the assertion. -/
def intlRecheck (s : State) (level : Bool) : State :=
  match s.sys.pair.recheck with
  | some t =>
    if now s < t + 50 then s
    else
      let s := modPair s fun p => { p with recheck := none, intlIn := level }
      if level && sideB s && s.sys.pair.active then
        report (flag (modPair s fun p => { p with intlOut := false, active := false, lowRun := 0, bWait := 0 }) pairStat 4) 8 .pairContend pairStat
      else if s.sys.pair.active then modPair s fun p => { p with wasAct := true }
      else s
  | none => s

def execIntlRecheck (level : Bool) (s : State) : Out := .next (live s fun s => intlRecheck s level)

/-- The packets a pair mirrors (R423). (Log 109 DEDUCED unsafe.) -/
def isMirror (pk : Packet) : Bool := [0x11, 0x12, 0x18, 0x19].contains pk.typ.toNat

/-- A packet for another node that the PARTNER port brings is a mirrored copy (R423): BINS and DESCENT always; a REFERENCE
or TICK_REPORT of the partner itself, but for the first of a kind, destination and SEQ in a tick where the node's own
DOWN ports lead to the destination, which is on its way there (Table 19-5). (Log 109 DEDUCED unsafe.) -/
def isCopy (s : State) (p : Nat) (pk : Packet) : Bool :=
  let below := (downPorts s).any fun q => (rangeRank s (pk.dest.toNat / 64) q).isSome
  let his := (portOf s p).peerId.all fun n => n.toNat == pk.src.toNat / 64
  paired s && isMirror pk && (pk.cls == 1 || (his && (!below || s.sys.pair.passed.contains pk)))

/-- A packet of the partner passes to a node below: its mirrored copy is still to come. -/
def passMark (s : State) (pk : Packet) : State :=
  if paired s && isMirror pk then modPair s fun p => { p with passed := p.passed ++ [pk] } else s

/-- R423: a standby takes the active part's copy; it never forwards it. -/
def mirrorIn (s : State) (pk : Packet) : State :=
  let s := modPair s fun p => { p with passed := p.passed.erase pk }
  if paired s && !s.sys.pair.active && isMirror pk then modPair s fun p => { p with peer := p.peer ++ [pk] } else s

def execMirrorRx (pk : Packet) (s : State) : Out := .next (live s fun s => if packetOk pk then mirrorIn s pk else s)

/-- A REFERENCE or TICK_REPORT of the part's own program (R420, R423, R424). -/
def pairSend (s : State) (pk : Packet) : State :=
  if !isUpper s then emit s pk
  else if s.sys.pair.active then mirrorSend (emit s pk) pk
  else if paired s then modPair s fun p => { p with own := p.own ++ [pk] }
  else s

/-- Two packets of one TYPE, DEST and SEQ with equal payloads. (Log 108 DEDUCED unsafe.) -/
def sameMirror (a b : Packet) : Bool := a.typ == b.typ && a.dest == b.dest && a.seq == b.seq && a.payload == b.payload

/-- A list without the first packet that mirrors a. (Log 109 DEDUCED unsafe.) -/
def takeMirror (a : Packet) : List Packet → Option (List Packet)
  | [] => none
  | b :: l => if sameMirror a b then some l else (takeMirror a l).map (b :: ·)

/-- Every packet of one list has its counterpart in the other, and none is left over. -/
def mirrorsMatch : List Packet → List Packet → Bool
  | [], l => l.isEmpty
  | a :: r, l => match takeMirror a l with
    | some l' => mirrorsMatch r l'
    | none => false

/-- The fields of a selection that R424 compares. -/
def quotaKey (q : Quota) : Nat × Nat × Nat × Bool × Bool × Bool := (q.cb, q.bin, q.q, q.frac, q.dir, q.neg)

/-- An ARM part skips the Riddle fields of a tick (R425). -/
def riddleSkip (s : State) : Bool :=
  roleOf s == .arm && (!s.rdl.heldNow.isEmpty || s.rdl.hist.any fun h => h.held != 0)

/-- The Riddle comparison of the tick that ends (R424): none where it has nothing to compare. (Log 108 DEDUCED unsafe.) -/
def riddleMatch (s : State) : Option Bool :=
  let r := s.rdl
  let ds := s.sys.pair.peer.filter (·.typ == 0x12)
  let bs := s.sys.pair.peer.filter (·.typ == 0x11)
  if roleOf s ≠ .arm then none
  else if !r.selDone then (if ds.isEmpty && bs.isEmpty then none else some false)
  else
    let d := match ds with
      | [] => !running s
      | [p] => decide (quotaKey (quotaOf p.payload) = quotaKey r.quota)
      | _ => false
    let b := match bs with
      | [p] => p.payload.getD 0 0 == reg s (rdlR 0x014)
      | _ => false
    some (d && b)

/-- The decision of a compared tick (R424 to R426); none where nothing was compared. A tick that skips the Riddle fields is
no match (R425). (Log 108 DEDUCED unsafe.) -/
def pairDecision (s : State) : Option Bool :=
  let peer := s.sys.pair.peer.filter fun p => p.typ == 0x18 || p.typ == 0x19
  let own := s.sys.pair.own
  let pk := if own.isEmpty && peer.isEmpty then none else some (mirrorsMatch own peer)
  if riddleSkip s then pk.filter (!·)
  else match pk, riddleMatch s with
  | none, d => d
  | d, none => d
  | some a, some b => some (a && b)

def mmLimit (s : State) : Nat := Nat.max 1 (rf s pairCfg 23 20)
def syncTicks (s : State) : Nat := Nat.max 1 (rf s pairCfg 7 0)
def bWaitTicks (s : State) : Nat := Nat.max 1 (rf s pairCfg 15 8)

/-- The comparison at a tick application of a standby (R424 to R426, R434). (Log 108 DEDUCED unsafe.) -/
def pairCompare (s : State) : State :=
  let d := if s.sys.pair.active || modeOf s == .boot then none else pairDecision s
  let s := modPair s fun p => { p with own := [], peer := [], passed := [] }
  match d with
  | none => s
  | some true =>
    let s := modPair s fun p => { p with mmRun := 0, asked := false }
    if s.sys.pair.loaded then
      let s := modPair s fun p => { p with match_ := p.match_ + 1 }
      if syncTicks s ≤ s.sys.pair.match_ then
        peerTell (modPair s fun p => { p with synced := true, syncing := false, loaded := false }) true
      else s
    else s
  | some false =>
    let s := modPair s fun p => { p with mmRun := Nat.min 15 (p.mmRun + 1), match_ := 0 }
    if mmLimit s ≤ s.sys.pair.mmRun && !s.sys.pair.asked then
      partnerCmd (report (flag (modPair s fun p => { p with asked := true }) pairStat 2) 8 .pairMismatch pairStat) 0x40000000
    else s

/-- The words of a state image, by register address, in order (R433). -/
def imageAddrs (s : State) : List Nat :=
  ((List.range 4).filter fun i => rb s (siCtrl i) 0).flatMap (fun i => (List.range 40).map (lpeMem i) ++ (List.range 8).map (siU i)) ++
    ((List.range 16).filter fun c => rb s (qcR c 0) 31).flatMap (fun c =>
      (List.range (rf s (qcR c 0) 13 8)).flatMap fun k => [secR (rf s (qcR c 0) 22 16 + k) 5, secR (rf s (qcR c 0) 22 16 + k) 6]) ++
    (if roleOf s = .arm then [rdlR 0x014, rdlR 0x024] else [])

/-- Words in packets of at most 63, behind the address that marks an image; `n` bounds the packets. (Log 44 DESIGN CHOICE unsafe.) -/
def imagePackets : Nat → List Word → List (List Word)
  | 0, _ => []
  | n + 1, ws => (wd pairStat :: ws.take 63) :: (if (ws.drop 63).isEmpty then [] else imagePackets n (ws.drop 63))

/-- R433: the active part sends the image directly after the jobs of the tick. -/
def imageSend (s : State) : State :=
  let done := (List.range 4).all fun i => !rb s (siCtrl i) 0 || (instOf s i).ran
  if !(paired s && s.sys.pair.active && s.sys.pair.imgTick && done) then s
  else
    let s := modPair s fun p => { p with imgTick := false }
    let ws := (imageAddrs s).map (reg s)
    match partnerPort s with
    | some p =>
      if isActive s p then
        (imagePackets (ws.length + 1) ws).foldl (fun s l => enqueue s p (ownPacket s 0 0 0x01 2 0 l) false) s
      else s
    | none => s

def execStateImageSend (s : State) : Out := .next (live s imageSend)

/-- Image words arrive at a standby that asked for them (R433, R434). -/
def imageIn (s : State) (ws : List (Word × Word)) (last : Bool) : State :=
  if paired s && !s.sys.pair.active && s.sys.pair.syncing && !s.sys.pair.loaded then
    modPair s fun p => { p with image := p.image ++ ws, imgEnd := p.imgEnd || last }
  else s

def execStateImageRx (words : List (Word × Word)) (last : Bool) (s : State) : Out :=
  .next (live s fun s => imageIn s words last)

/-- An image packet of the partner: its words take the next addresses of this part's own image. -/
def imagePacketIn (s : State) (ws : List Word) : State :=
  let at_ := (imageAddrs s).drop s.sys.pair.image.length
  imageIn s ((at_.zip ws).map fun e => (wd e.1, e.2)) (decide (at_.length ≤ ws.length))

/-- A whole image is loaded at the tick application after it (R434); one that is not whole is discarded. (Log 106 DEDUCED unsafe.) -/
def imageLoad (s : State) : State :=
  let p := s.sys.pair
  if !p.syncing || p.loaded || (p.image.isEmpty && !p.imgEnd) then s
  else if p.imgEnd then
    let s := p.image.foldl (fun s e =>
      if e.1.toNat = rdlR 0x024 then setRf s (rdlR 0x024) 0 0 (fld e.2 0 0) else setReg s e.1.toNat e.2) s
    actionEnd (modPair s fun p => { p with image := [], imgEnd := false, loaded := true, match_ := 0 }) pairCmd 0x20000000 syncReq
  else actionEnd (modPair s fun p => { p with image := [], syncing := false }) pairCmd 0x20000000 syncReq

/-- The conditions of R421 beside the two low readings, with B's wait over. (Log 106 DEDUCED unsafe.) -/
def mayAssert (s : State) : Bool :=
  let p := s.sys.pair
  let ok := p.synced || (modeOf s == .precharge && !p.wasAct && p.recheck.isNone)
  ok && modeOf s != .safe && modeOf s != .boot && !s.flt.stopped && (!sideB s || p.synced || decide (bWaitTicks s ≤ p.bWait))

/-- The interlock at a tick application (R421, R430). (Log 106 DEDUCED unsafe, 107 DEDUCED unsafe.) -/
def interlock (s : State) (level : Bool) : State :=
  let s := modPair s fun p => { p with intlIn := level, lowRun := if level then 0 else Nat.min 15 (p.lowRun + 1) }
  if s.sys.pair.active then s
  else if level then modPair s fun p => { p with gap := false, bWait := 0 }
  else if mayAssert s && decide (2 ≤ s.sys.pair.lowRun) then
    let gap := s.sys.pair.gap
    let s := modPair s fun p => { p with intlOut := true, active := true, gap := false, bWait := 0, recheck := some (now s) }
    if gap then report (discard s 4 0x1FF 0xF false) 8 .switchover pairStat else s
  else
    let wait := sideB s && !s.sys.pair.synced && modeOf s == .precharge && !s.sys.pair.wasAct && decide (2 ≤ s.sys.pair.lowRun)
    let s := modPair s fun p => { p with bWait := if wait then p.bWait + 1 else p.bWait }
    modPair s fun p => { p with gap := mayAssert s }

/-- The pair logic at a tick application. (Log 106 DEDUCED unsafe.) -/
def pairTick (s : State) (level : Bool) : State :=
  if !paired s then s
  else
    let s := imageLoad (pairCompare s)
    let s := modPair s fun p => { p with imgTick := p.imgTick || p.imgReq, imgReq := false }
    interlock s level

end Sys2Proof.Machine
end

