-- ==== Sys2Proof/Machine/Panel.lean ====
section
/-! DEFINITION. The service bus (CAN FD, R457 to R471) and the panel (R472 to R475). -/

namespace Sys2Proof.Machine

open Sys2Proof

def canCtrl : Nat := svbR 0x000
def canStat : Nat := svbR 0x004
def mbCtrl (n : Nat) : Nat := svbR (0x100 + 0x50 * n)

/-- INIT. -/
def canInit (s : State) : Bool := rb s canCtrl 31

/-- Quanta of 12.5 ns in one nominal and one data bit. -/
def nomQuanta (s : State) : Nat :=
  (rf s (svbR 0x008) 31 24 + 1) * (1 + (rf s (svbR 0x008) 23 16 + 1) + (rf s (svbR 0x008) 15 9 + 1))
def datQuanta (s : State) : Nat :=
  (rf s (svbR 0x00C) 31 27 + 1) * (1 + (rf s (svbR 0x00C) 26 22 + 1) + (rf s (svbR 0x00C) 21 18 + 1))

/-- The conditions of R460, for a TDC_EN. -/
def canRatesOk (s : State) (tdc : Bool) : Bool :=
  decide (80 ≤ nomQuanta s) && decide (10 ≤ datQuanta s) && (tdc || decide (80 ≤ datQuanta s))

/-- R460: 11 recessive bits have passed. -/
def execCanBusJoin (s : State) : Out :=
  .next (live s fun s => if blockOn (roleOf s) 13 && !canInit s then modSvb s fun v => { v with joined := true } else s)

def pendOf (s : State) (n : Nat) : Bool := has8 s.svb.pend n

/-- A mailbox becomes pending, with RESULT and RETRY at 0. -/
def mbStart (s : State) (n : Nat) : State :=
  modSvb (setRf s (mbCtrl n) 26 16 0) fun v => { v with pend := set8 v.pend n true }

/-- A mailbox is no longer pending, with a RESULT; a REQ written in the same cycle makes it pending again (R13). -/
def mbDone (s : State) (n res : Nat) : State :=
  let s := modSvb (setRf s (mbCtrl n) 26 24 res) fun v => { v with pend := set8 v.pend n false, cancel := set8 v.cancel n false }
  if s.swSet.any fun e => e.1 == mbCtrl n && bitOf e.2 31 then mbStart s n else s

/-- INIT takes the part off the bus: an attempt in progress ends, and with it what waits for its end (R459, R468). -/
def attemptsEnd (s : State) : State :=
  let s := modSvb s fun v => { v with joined := false, cur := none, ssp := none }
  (List.range 8).foldl (fun s n => if has8 s.svb.cancel n then mbDone s n (if s.svb.busOff then 3 else 2) else s) s

/-- A write of SVB_CTRL (R459, R460). -/
def canCtrlWrite (s : State) (o : Origin) (val : Word) : State :=
  if canInit s then
    if !bitOf val 31 && !canRatesOk s (bitOf val 28) then accessFault (genWrite s o canCtrl (setBit val 31 true)) canCtrl
    else genWrite s o canCtrl val
  else
    let same := (val ^^^ reg s canCtrl) &&& 0x700000FF == 0
    let s := setReg s canCtrl (setBit (reg s canCtrl) 31 (bitOf val 31))
    let s := if bitOf val 31 then attemptsEnd s else s
    if same then s else accessFault s canCtrl

def execCanInitClear (o : Origin) (val : Word) (s : State) : Out :=
  .next (live s fun s =>
    gate s canCtrl fun s => canCtrlWrite s o (setBit val 31 false))

/-- CANCEL (R468). -/
def mbCancel (s : State) (n : Nat) : State :=
  if !pendOf s n then s
  else if s.svb.cur.any (·.val == n) then modSvb s fun v => { v with cancel := set8 v.cancel n true }
  else mbDone s n (if s.svb.busOff then 3 else 2)

/-- A write of SVB_TXMBn_CTRL (R462, R468): to a pending mailbox only CANCEL acts, and a write without it is an access
fault; otherwise the frame's fields, then REQ, then CANCEL. (Log 110 DEDUCED unsafe.) -/
def mbCtrlWrite (s : State) (n : Nat) (val : Word) : State :=
  if pendOf s n then
    let s := if bitOf val 31 then swMark s (mbCtrl n) 0x80000000 else s
    if bitOf val 30 then mbCancel s n else accessFault s (mbCtrl n)
  else
    let s := setReg s (mbCtrl n) ((reg s (mbCtrl n) &&& 0xFFFFFF00) ||| (val &&& 0xFF))
    let s := if !bitOf val 31 then s else if bitOf val 7 && bitOf val 4 then accessFault s (mbCtrl n) else mbStart s n
    if bitOf val 30 then mbCancel s n else s

def execCanTxReq (_ : Origin) (mb : Fin 8) (val : Word) (s : State) : Out :=
  .next (live s fun s =>
    gate s (mbCtrl mb.val) fun s => mbCtrlWrite s mb.val (setBit val 31 true))

def execCanCancel (_ : Origin) (mb : Fin 8) (s : State) : Out :=
  .next (live s fun s => gate s (mbCtrl mb.val) fun s => mbCancel s mb.val)

/-- Bytes of a data length code. -/
def dlcBytes (fd : Bool) (d : Nat) : Nat :=
  if d ≤ 8 then d else if fd then [12, 16, 20, 24, 32, 48, 64].getD (d - 9) 64 else 8

/-- The frame of a mailbox (Table 18-7); FD and bit-rate switching as FD_EN and BRS_EN permit. (Log 110 DEDUCED unsafe.) -/
def mbFrame (s : State) (n : Nat) : CanFrame :=
  let c := reg s (mbCtrl n)
  let fd := bitOf c 7 && rb s canCtrl 30
  let dlc := fld c 3 0
  let len := if bitOf c 4 then 0 else dlcBytes fd dlc
  let all := (List.range 16).flatMap fun w => natLe 4 (reg s (svbR (0x108 + 0x50 * n + 4 * w))).toNat
  { ide := bitOf c 5, rtr := bitOf c 4, fdf := fd, brs := fd && bitOf c 6 && rb s canCtrl 29, esi := fd && canPassive s.svb
    ident := BitVec.ofNat 29 (rf s (svbR (0x104 + 0x50 * n)) 28 0), dlc := BitVec.ofNat 4 dlc, lt := wd (now s), data := all.take len }

/-- The arbitration key of a mailbox (R463): the lower wins. -/
def mbRank (s : State) (n : Nat) : Nat :=
  let id := rf s (svbR (0x104 + 0x50 * n)) 28 0
  let ide := rb s (mbCtrl n) 5
  (((id / 2 ^ 18 * 2 + b2n ide) * 2 ^ 18 + (if ide then id % 2 ^ 18 else 0)) * 2 + b2n (rb s (mbCtrl n) 4)) * 8 + n

/-- The pending mailbox that wins arbitration. -/
def mbBest (s : State) : Option (Fin 8) :=
  (List.finRange 8).foldl (fun (b : Option (Fin 8)) n =>
    if !pendOf s n.val then b
    else match b with
      | none => some n
      | some m => if mbRank s n.val < mbRank s m.val then some n else b) none

/-- The secondary sample point of an attempt with bit-rate switching, and TDCV (R461): the measured delay plus TDCO. -/
def tdcMeasure (s : State) (delay : Nat) : State :=
  match s.svb.cur with
  | some n =>
    if (mbFrame s n).brs && rb s canCtrl 28 then
      let a := svbR 0x00C
      modSvb (setRf s a 6 0 (Nat.min 127 delay)) fun v => { v with ssp := some (delay + rf s a 13 7) }
    else modSvb s fun v => { v with ssp := none }
  | none => s

/-- R463, R465: a frame attempt starts, not before the intermission and the suspend time are over; `delay` is the
transmitter delay that the part measures in it, in quanta. -/
def execCanTxAttempt (delay : BitVec 16) (s : State) : Out :=
  .next (live s fun s =>
    if s.svb.joined && !canInit s && !s.svb.busOff && s.svb.cur.isNone && decide (s.svb.idleAt ≤ now s) then
      tdcMeasure (modSvb s fun v => { v with cur := mbBest s }) delay.toNat
    else s)

/-- After a frame the bus is in intermission for 3 bits, and an error-passive part waits 8 more (R465). (Log 111 PRESUMED unsafe.) -/
def intermission (s : State) : State :=
  modSvb s fun v => { v with idleAt := now s + divUp ((if canPassive v then 11 else 3) * nomQuanta s * 25) 4 }

/-- A failed attempt of a mailbox (R464 to R466, R468). (Log 110 DEDUCED unsafe.) -/
def attemptFail (s : State) (n : Nat) (tec : Nat) : State :=
  let s := modSvb s fun v => { v with tec := Nat.min 256 tec }
  if 256 ≤ tec then
    let s := report (modSvb s fun v => { v with busOff := true }) 416 .busOff canStat
    if has8 s.svb.cancel n then mbDone s n 3 else s
  else
    let r := rf s (mbCtrl n) 23 16 + 1
    let s := setRf s (mbCtrl n) 23 16 (Nat.min 255 r)
    let lim := rf s canCtrl 7 0
    if lim ≠ 0 ∧ lim < r then report (flag (mbDone s n 4) canStat 2) 416 .retryExhausted canStat
    else if has8 s.svb.cancel n then mbDone s n 2
    else s

/-- R464, R465, R468: an attempt ends. (Log 111 PRESUMED unsafe.) -/
def execCanAttemptEnd (r : CanEnd) (s : State) : Out :=
  .next (live s fun s =>
    match s.svb.cur with
    | none => s
    | some n =>
      let t := s.svb.tec
      let s := modSvb s fun v => { v with cur := none, ssp := none }
      intermission (match r with
        | .sent => mbDone (send (modSvb s fun v => { v with tec := t - 1 }) (.can n (mbFrame s n.val))) n.val 1
        | .lost => if has8 s.svb.cancel n.val then mbDone s n.val 2 else s
        | .ack => attemptFail s n.val (if canPassive s.svb then t else t + 8)
        | .error => attemptFail s n.val (t + 8)))

/-- A write of SVB_RECOVER (R467). -/
def recoverWrite (s : State) (val : Word) : State :=
  if bitOf val 0 && s.svb.busOff && !s.svb.recov then modSvb (setReg s (svbR 0x014) 1) fun v => { v with recov := true } else s

def execCanRecover (_ : Origin) (val : Word) (s : State) : Out :=
  .next (live s fun s =>
    gate s (svbR 0x014) fun s => recoverWrite s (setBit val 0 true))

/-- R467: the recovery sequence ends. -/
def execCanRecoveryDone (s : State) : Out :=
  .next (live s fun s =>
    if s.svb.recov then
      let s := (List.range 8).foldl (fun s n => setRf s (mbCtrl n) 23 16 0) (setReg s (svbR 0x014) 0)
      modSvb s fun v => { v with busOff := false, recov := false, tec := 0, recErr := 0 }
    else s)

/-- A received frame is stored, or dropped where 64 are held (R469). -/
def rxStore (s : State) (f : CanFrame) : State :=
  if s.svb.fifo.length < 64 then modSvb s fun v => { v with fifo := v.fifo ++ [f], rxAt := some (now s) }
  else
    let s := modSvb s fun v => { v with rxLost := some (now s, f, reg s (svbR 0x018), reg s canStat) }
    flag (countUp s (svbR 0x018) 31 16) canStat 4

/-- The receive error counter after an error: 1 for the error, 8 more for a dominant bit after the error flag (R465). (Log 111 PRESUMED unsafe.) -/
def recAfter (n : Nat) (dominant : Bool) : Nat := Nat.min 255 (n + (if dominant then 9 else 1))

/-- R465, R469: a valid frame is received, and a receive error counter above 127 comes back to 127; or an error is
detected in a frame of another node. (Log 111 PRESUMED unsafe.) -/
def execCanFrameRx (f : CanRx) (s : State) : Out :=
  .next (live s fun s =>
    if s.svb.joined && !canInit s && !s.svb.busOff then
      match f with
      | .valid f =>
        if !f.fdf || rb s canCtrl 30 then rxStore (intermission (modSvb s fun v => { v with recErr := Nat.min 127 (v.recErr - 1) })) f
        else s
      | .error d => if s.svb.cur.isSome then s else intermission (modSvb s fun v => { v with recErr := recAfter v.recErr d })
    else s)

/-- R470: the oldest entry is removed. A frame completed in the same cycle is stored after the pop: one just stored is not
popped, and one just dropped is stored after all. -/
def rxPop (s : State) : State :=
  let v := s.svb
  if v.rxAt = some (now s) ∧ v.fifo.length = 1 then s
  else
    let s := modSvb s fun v => { v with fifo := v.fifo.drop 1 }
    match v.rxLost with
    | some (t, f, st, fl) =>
      if t = now s then modSvb (rxStore (setReg (setReg s (svbR 0x018) st) canStat fl) f) fun v => { v with rxLost := none } else s
    | none => s

def execRxPop (_ : Origin) (_ : Word) (s : State) : Out :=
  .next (live s fun s => gate s (svbR 0x01C) fun s => rxPop s)

/-- The panel is served in the STATION role only (R457). -/
def panelOn (s : State) : Bool := roleOf s == .station && (kget none s.flt.rstBlk 13).isNone

/-- DEB in units of LT, from 1 to 64 ms (R472). -/
def keyDeb (s : State) : Nat := ms (clampN 1 64 (rf s (svbR 0x804) 6 0))

/-- A key level that has been stable for DEB is accepted: PRESS or RELEASE (R472). -/
def keyTake (s : State) (k : Nat) : State :=
  let lv := has8 s.svb.rawKey k
  if has8 s.svb.level k != lv && decide (kget 0 s.svb.keyAt k + keyDeb s ≤ now s) then
    flag (modSvb s fun v => { v with level := set8 v.level k lv }) (svbR 0x800) (2 ^ (if lv then k else 8 + k))
  else s

/-- R472: a key is sampled; a change of its pin starts the time of DEB again. -/
def execKeyAccept (k : Fin 8) (pressed : Bool) (s : State) : Out :=
  .next (live s fun s =>
    if !panelOn s then s
    else if has8 s.svb.rawKey k.val = pressed then keyTake s k
    else modSvb s fun v => { v with rawKey := set8 v.rawKey k.val pressed, keyAt := kput 0 v.keyAt k.val (now s) })

def touchR (t : Nat) : Nat := svbR (0x810 + 4 * t)

/-- An electrode is touched. -/
def touchedOf (s : State) (t : Nat) : Bool := s.svb.touched.toNat.testBit t

def setTouched (v : Svb) (t : Nat) (b : Bool) : BitVec 4 := if b then v.touched ||| (1#4 <<< t) else v.touched &&& ~~~ (1#4 <<< t)

/-- R473: an electrode is measured. (Log 112 DESIGN CHOICE unsafe.) -/
def execTouchMeasure (t : Fin 4) (c : BitVec 16) (s : State) : Out :=
  .next (live s fun s =>
    if !panelOn s then s
    else
      let s := setRf s (touchR t.val) 31 16 c.toNat
      let th : Int := (rf s (touchR t.val) 15 0 : Nat)
      let d : Int := ((kget 0 s.svb.base t.val : Nat) : Int) - ((c.toNat : Nat) : Int)
      if touchedOf s t.val then
        let n := if 2 * d < th then kget 0 s.svb.tclr t.val + 1 else 0
        if 3 ≤ n then
          modSvb s fun v => { v with touched := setTouched v t.val false, tclr := kput 0 v.tclr t.val 0, tcnt := kput 0 v.tcnt t.val 0
                                     bAt := kput 0 v.bAt t.val (now s) }
        else modSvb s fun v => { v with tclr := kput 0 v.tclr t.val n }
      else
        let n := if th ≤ d then kget 0 s.svb.tcnt t.val + 1 else 0
        if 3 ≤ n then
          modSvb s fun v => { v with touched := setTouched v t.val true, tLt := kput 0 v.tLt t.val (now s), tcnt := kput 0 v.tcnt t.val 0
                                     tclr := kput 0 v.tclr t.val 0 }
        else modSvb s fun v => { v with tcnt := kput 0 v.tcnt t.val n })

/-- R473: 256 ms of an electrode that is not touched. (Log 112 DESIGN CHOICE unsafe.) -/
def execTouchBaselineDrift (t : Fin 4) (s : State) : Out :=
  .next (live s fun s =>
    if panelOn s && !touchedOf s t.val && decide (kget 0 s.svb.bAt t.val + ms 256 ≤ now s) then
      let c := rf s (touchR t.val) 31 16
      modSvb s fun v => { v with bAt := kput 0 v.bAt t.val (now s)
                                 base := kmod 0 v.base t.val fun b => if b < c then b + 1 else if c < b then b - 1 else b }
    else s)

/-- R473: a touch held for 30 s. -/
def execTouchStuck (t : Fin 4) (s : State) : Out :=
  .next (live s fun s =>
    if panelOn s && touchedOf s t.val && decide (kget 0 s.svb.tLt t.val + sec 30 ≤ now s) then
      flag (modSvb s fun v => { v with base := kput 0 v.base t.val (rf s (touchR t.val) 31 16), touched := setTouched v t.val false
                                       tclr := kput 0 v.tclr t.val 0, tcnt := kput 0 v.tcnt t.val 0
                                       bAt := kput 0 v.bAt t.val (now s) }) (svbR 0x808) (2 ^ (4 + t.val))
    else s)

/-- The current of an LED by its MODE and LT (R474). -/
def ledOn (s : State) (l : Nat) : Bool :=
  match rf s (svbR (0x820 + 4 * l)) 1 0 with
  | 0 => false
  | 1 => true
  | 2 => now s / ms 500 % 2 == 0
  | _ => now s / ms 125 % 2 == 0

def ledSet (s : State) (l : Nat) : State :=
  modSvb s fun v => { v with led := if ledOn s l then v.led ||| (1#4 <<< l) else v.led &&& ~~~ (1#4 <<< l) }

/-- The current of an LED, mA (R474). -/
def ledMa (s : State) (l : Nat) : Nat := if s.svb.led.getLsbD l then 2 * (rf s (svbR (0x820 + 4 * l)) 5 3 + 1) else 0

/-- R474: a blinking LED follows LT. -/
def execLedBlink (l : Fin 4) (s : State) : Out := .next (live s fun s => if panelOn s then ledSet s l.val else s)

/-- R475: SVC_DET is looked at; a change of the pin starts the 50 ms again. -/
def execSvcDetChange (present : Bool) (s : State) : Out :=
  .next (live s fun s =>
    if !panelOn s then s
    else if s.svb.svcRaw != present then modSvb s fun v => { v with svcRaw := present, svcAt := now s }
    else if s.svb.present != present && decide (s.svb.svcAt + ms 50 ≤ now s) then
      flag (modSvb s fun v => { v with present := present }) (svbR 0x830) 2
    else s)

/-- A write to an SVB register (R459, R462, R467, R470, R474). -/
def svbWrite (s : State) (o : Origin) (a : Nat) (val : Word) : State :=
  let off := a - svbR 0
  if off = 0 then canCtrlWrite s o val
  else if off = 0x008 ∨ off = 0x00C then (if canInit s then genWrite s o a val else accessFault s a)
  else if off = 0x014 then recoverWrite s val
  else if off = 0x01C then rxPop s
  else if 0x100 ≤ off ∧ off < 0x380 then
    let n := (off - 0x100) / 0x50
    if (off - 0x100) % 0x50 = 0 then mbCtrlWrite s n val
    else if pendOf s n then accessFault s a
    else genWrite s o a val
  else if 0x820 ≤ off ∧ off < 0x830 then ledSet (genWrite s o a val) ((off - 0x820) / 4)
  else genWrite s o a val

end Sys2Proof.Machine
end

