-- ==== Sys2Proof/Machine/CoreCtl.lean ====
section
/-! DEFINITION. The Zynul cores' shared operations: registers, the boundary of an instruction, traps (R287 to
R291), the end of an instruction with LOOP (R276), and core control (R296, R297). -/

namespace Sys2Proof.Machine

open Sys2Proof

def coreCtrl (n : Nat) : Nat := zccR (0x100 * n)
def coreStat (n : Nat) : Nat := zccR (0x100 * n + 4)

/-- g registers (R268). -/
def gGet (c : Core) (r : Nat) : Word := if r = 0 then 0 else kget 0 c.g r
def gPut (c : Core) (r : Nat) (v : Word) : Core := { c with g := if r = 0 then c.g else kput 0 c.g r v }

/-- Predicates (R268). -/
def pGet (c : Core) (r : Nat) : Bool := r == 0 || c.p.toNat.testBit r
def pPut (c : Core) (r : Nat) (v : Bool) : Core := { c with p := if r = 0 then c.p else set8 c.p r v }

def gOf (s : State) (n r : Nat) : Word := gGet (coreOf s n) r
def setG (s : State) (n r : Nat) (v : Word) : State := modCore s n fun c => gPut c r v
def setP (s : State) (n r : Nat) (v : Bool) : State := modCore s n fun c => pPut c r v

/-- FPSR flags are set; they are sticky (R273). -/
def setF (s : State) (n m : Nat) : State := modCore s n fun c => { c with fpsr := c.fpsr ||| BitVec.ofNat 8 m }

/-- The guard of an instruction holds (R270). -/
def guardOk (c : Core) (q : Pred) : Bool := pGet c q.p.val != q.inv

/-- Cycles pass at a core. -/
def spend (c : Core) (n : Nat) : Core := { c with cycle := c.cycle + wd n, frame := (c.frame + n) % 16 }

/-- The place in a body of the active LOOP (R276). (Log 80 DEDUCED unsafe.) -/
def inLoop (c : Core) (pc : Word) : Bool :=
  c.loopCnt != 0 && decide (c.loopTop.toNat ≤ pc.toNat) && decide (pc.toNat ≤ c.loopEnd.toNat)

/-- A STEP ends with its instruction (R297). (Log 80 DEDUCED unsafe.) -/
def stepEnd (c : Core) : Core := { c with stepOne := false, st := if c.stepOne then .halted else c.st }

/-- The place after an instruction that branches nowhere: the next one, or the first of an active body (R276). -/
def advance (c : Core) (cyc : Nat) : Core :=
  let last := c.loopCnt != 0 && c.pc == c.loopEnd
  { spend c cyc with loopCnt := if last then c.loopCnt - 1 else c.loopCnt
                     pc := if last && c.loopCnt - 1 != 0 then c.loopTop else c.pc + 4 }

def endPlain (c : Core) (cyc : Nat) : Core := stepEnd (advance c cyc)

/-- The instruction is complete with a taken branch: out of the body it ends the LOOP (R276). (Log 80 DEDUCED unsafe.) -/
def endBranch (c : Core) (cyc : Nat) (target : Word) : Core :=
  let c := spend c cyc
  let inside := inLoop c c.pc
  let cnt := if inside && !inLoop c target then 0 else if inside && c.pc == c.loopEnd then c.loopCnt - 1 else c.loopCnt
  stepEnd { c with pc := target, loopCnt := cnt }

def finish (s : State) (n cyc : Nat) : State := modCore s n fun c => endPlain c cyc
def finishAt (s : State) (n cyc : Nat) (target : Word) : State := modCore s n fun c => endBranch c cyc target

/-- The vector of a cause (R287). -/
def vector (s : State) (n cause : Nat) : Word := wd (rf s (zccR (0x100 * n + 0xC)) 16 8 * 256 + 32 * cause)

/-- Entry to a trap (R287): the saved registers, IE, EXL and the vector. (Log 81 DEDUCED unsafe.) -/
def trapEnter (s : State) (n cause : Nat) (epc : Word) (nested : Bool) : State :=
  let v := vector s n cause
  modCore s n fun c =>
    stepEnd { spend c 4 with epc := epc, cause := cause, nested := nested, pie := c.ie, ie := false, exl := true, pc := v
                             st := .running, wait := none }

/-- A synchronous trap (causes 1 to 4); while EXL is 1 the core halts in DOUBLE (R289). -/
def trap (s : State) (n cause : Nat) (epc : Word) : State :=
  if (coreOf s n).exl then
    report (flag (modCore s n fun c => { c with st := .double, stepOne := false, wait := none }) (coreStat n) 0x400) (448 + n) .zcDouble (coreStat n)
  else trapEnter s n cause epc false

/-- The trap of the present instruction, with EPC at it. (Log 82 DEDUCED unsafe.) -/
def trapHere (s : State) (n cause : Nat) : State := trap s n cause (coreOf s n).pc

/-- An access outside Table 1-2 or misaligned (R277). (Log 82 DEDUCED unsafe.) -/
def accessTrap (s : State) (n a : Nat) : State := trapHere (accessFault s a) n 2

/-- An NMT is due (R288, R290). -/
def nmtDue (s : State) (n : Nat) : Bool := (coreOf s n).nmtReq && rb s (coreCtrl n) 1

/-- The NMT (R289, R290). (Log 81 DEDUCED unsafe.) -/
def nmtEnter (s : State) (n : Nat) : State :=
  let c := coreOf s n
  let s := modCore s n fun c => { c with nmtReq := false }
  let s := if c.exl then flag s (coreStat n) 0x800 else s
  trapEnter s n 6 c.pc c.exl

/-- An interrupt is due (R291). -/
def irqDue (s : State) (n : Nat) : Bool :=
  (coreOf s n).ie && !(coreOf s n).exl && Nat.land (irqPend s) (rf s (zccR (0x100 * n + 0x10)) 14 0) != 0

def irqEnter (s : State) (n : Nat) : State := trapEnter s n 5 (coreOf s n).pc false

/-- A HALT has been written. -/
def haltDue (s : State) (n : Nat) : Bool := rb s (coreCtrl n) 6

/-- The core halts at a boundary, or in its WAIT or TWAIT, which is then executed again (R297); a HALT written in
the same cycle stands (R13). -/
def coreStop (s : State) (n : Nat) : State :=
  modCore (actionEnd s (coreCtrl n) 0x40 id) n fun c => { c with st := .halted, wait := none, stepOne := false }

/-- Something is due at the boundary before the next instruction. (Log 78 DEDUCED unsafe.) -/
def boundaryDue (s : State) (n : Nat) : Bool := haltDue s n || nmtDue s n || irqDue s n

/-- What goes before the instruction at a boundary, in order: HALT, then the NMT (R288, R297). (Log 78 DEDUCED unsafe.) -/
def coreBoundary (s : State) (n : Nat) : State := if haltDue s n then coreStop s n else if nmtDue s n then nmtEnter s n else s

/-- The core runs and may issue its next instruction. -/
def coreLive (s : State) (n : Nat) : Bool := (coreOf s n).st == .running

/-- The fetch address is in the core's instruction scratchpad (R266). (Log 77 DESIGN CHOICE unsafe.) -/
def fetchOk (pc : Word) : Bool := decide (pc.toNat < 0x20000) && decide (pc.toNat % 4 = 0)

/-- The fetch of an instruction with guard q and its checks (R266, R376), its guard (R270), and its own effect `f`. -/
def fetchRun (s : State) (n : Nat) (q : Pred) (f : State → State) : State :=
  if !fetchOk (coreOf s n).pc then trapHere s n 2
  else
    let r := eccRead s (3 + n) (coreOf s n).pc.toNat
    if !r.2 then trapHere r.1 n 3
    else if guardOk (coreOf r.1 n) q then f r.1
    else finish r.1 n 1

/-- An instruction would take one of the causes 1 to 3: with EXL set and FPTRAP clear, it would end in DOUBLE (R289). (Log 78 DEDUCED unsafe.) -/
def syncDue (s : State) (n : Nat) (f : State → State) : Bool :=
  (coreOf (f (modCore (setReg s (coreCtrl n) (setBit (reg s (coreCtrl n)) 2 false)) n fun c => { c with exl := true })) n).st == .double

/-- A core issues an instruction: HALT and the NMT go first, then a synchronous trap of the instruction, then an
interrupt, then the instruction itself (R288). (Log 77 DESIGN CHOICE unsafe, 78 DEDUCED unsafe.) -/
def issue (s : State) (n : Nat) (q : Pred) (f : State → State) : State :=
  if !coreLive s n then s
  else if haltDue s n || nmtDue s n then coreBoundary s n
  else if irqDue s n && !syncDue s n (fetchRun · n q f) then irqEnter s n
  else fetchRun s n q f

/-- The answer of an instruction's meaning. (Log 77 DESIGN CHOICE unsafe.) -/
def zynul (n : Nat) (q : Pred) (s : State) (f : State → State) : Out := .next (live s fun s => issue s n q f)

/-- An instruction that the core takes as illegal (R271). -/
def illegal (s : State) (n : Nat) : State := trapHere s n 1

/-- The assigned fn of opcode 0x00, and of opcode 0x01 (Tables 10-3 and 10-4). -/
def intFn (fn : Nat) : Bool := decide (fn ≤ 0x0D) || (decide (0x10 ≤ fn) && decide (fn ≤ 0x14)) || (decide (0x18 ≤ fn) && decide (fn ≤ 0x1D))
def fpFn (fn : Nat) : Bool := decide (fn ≤ 0x0A) || (decide (0x10 ≤ fn) && decide (fn ≤ 0x13)) || fn == 0x20 || fn == 0x21

/-- Register operations with one source: gb is zero. -/
def oneSource (op fn : Nat) : Bool := if op = 0 then fn == 0x1C || fn == 0x1D else decide (6 ≤ fn) && decide (fn ≤ 0x13)

/-- A word is an instruction that no clause of R271 refuses by its encoding (Tables 10-2 to 10-5, R276). -/
def wordLegal (w : Word) : Bool :=
  let fn := fld w 6 0
  let gb := fld w 11 7
  let imm := fld w 11 0
  let cond := fld w 15 12
  let quad := fld w 11 10 != 3 || (fld w 21 17 != 0 && fld w 21 17 % 4 == 0)
  match fld w 31 26 with
  | 0x00 => intFn fn && (!oneSource 0 fn || gb == 0)
  | 0x01 => fpFn fn && (!oneSource 1 fn || gb == 0)
  | 0x02 | 0x03 | 0x04 | 0x05 | 0x0A | 0x20 | 0x21 | 0x23 => true
  | 0x06 | 0x07 | 0x08 => fld w 11 5 == 0
  | 0x10 | 0x12 => quad
  | 0x11 => decide (fld w 11 10 < 2)
  | 0x13 => decide (fn < 2)
  | 0x18 => decide (cond ≤ 10) && fld w 6 5 == 0
  | 0x19 => decide (cond ≤ 10)
  | 0x1A => [0, 1, 2, 3, 6, 7, 12].contains cond && fld w 6 5 == 0
  | 0x1B => decide (cond < 4) && fld w 11 10 == 0 && fld w 6 3 == 0
  | 0x22 => fld w 21 17 == 0
  | 0x24 => fld w 21 17 == 0 && imm != 0
  | 0x30 => decide (1 ≤ imm) && decide (imm ≤ 6)
  | 0x31 | 0x32 => decide (imm ≤ 10)
  | 0x38 | 0x39 => imm == 0
  | 0x3A => fn == 0
  | _ => false

/-- PRED and PN of a word (Table 10-2). -/
def wordPred (w : Word) : Pred := ⟨⟨fld w 25 23 % 8, Nat.mod_lt _ (by decide)⟩, bitOf w 22⟩

/-- R271: a core fetches a word; one that is no instruction takes the ILLEGAL trap. -/
def execIllegalInstruction (n : CoreId) (w : Word) (s : State) : Out :=
  .next (live s fun s => if wordLegal w then s else issue s n.val (wordPred w) fun s => illegal s n.val)

/-- R291: an interrupt at a boundary, or in a WAIT or TWAIT. -/
def execInterruptEntry (n : CoreId) (s : State) : Out :=
  .next (live s fun s =>
    if coreRuns (coreOf s n.val) && irqDue s n.val && !haltDue s n.val && !nmtDue s n.val then irqEnter s n.val else s)

/-- R290: the non-maskable trap. -/
def execNmtEntry (n : CoreId) (s : State) : Out :=
  .next (live s fun s => if coreRuns (coreOf s n.val) && nmtDue s n.val && !haltDue s n.val then nmtEnter s n.val else s)

/-- R297: the boundary or the wait is reached. -/
def execCoreHalted (n : CoreId) (s : State) : Out :=
  .next (live s fun s =>
    if coreRuns (coreOf s n.val) && haltDue s n.val then coreStop s n.val
    else if (coreOf s n.val).st == .halted && haltDue s n.val then actionEnd s (coreCtrl n.val) 0x40 id
    else s)

/-- The core stands still, HALTED or in DOUBLE. -/
def coreStill (c : Core) : Bool := c.st == .halted || c.st == .double

/-- A write of ZCC_CnCTRL (R297, Table 10-11): HALT goes before RUN, RUN before STEP. Where the boot ROM has
stopped, every core stays halted (R311). (Log 79 DEDUCED unsafe, 81 DEDUCED unsafe.) -/
def coreCtrlWrite (s : State) (o : Origin) (n : Nat) (val : Word) : State :=
  let s := genWrite s o (coreCtrl n) (val &&& 0xFFFFFF9F)
  let c := coreOf s n
  if bitOf val 6 then
    if c.st = .running then swMark (setReg s (coreCtrl n) (setBit (reg s (coreCtrl n)) 6 true)) (coreCtrl n) 0x40
    else if c.st = .waiting then coreStop s n
    else s
  else if s.sys.stopped then s
  else if bitOf val 5 && coreStill c then
    modCore s n fun c => { c with st := .running, cycle := 0, frame := 2 * now s % 16, stepOne := false }
  else if bitOf val 7 && coreStill c then modCore s n fun c => { c with st := .running, cycle := 0, frame := 2 * now s % 16, stepOne := true }
  else s

/-- The word that writes one bit of ZCC_CnCTRL and keeps its fields. -/
def coreCtrlBit (s : State) (n i : Nat) : Word := setBit (reg s (coreCtrl n) &&& 7) i true

def execCoreHalt (o : Origin) (n : CoreId) (s : State) : Out :=
  .next (live s fun s => gate s (coreCtrl n.val) fun s => coreCtrlWrite s o n.val (coreCtrlBit s n.val 6))
def execCoreRun (o : Origin) (n : CoreId) (s : State) : Out :=
  .next (live s fun s => gate s (coreCtrl n.val) fun s => coreCtrlWrite s o n.val (coreCtrlBit s n.val 5))
def execCoreStep (o : Origin) (n : CoreId) (s : State) : Out :=
  .next (live s fun s => gate s (coreCtrl n.val) fun s => coreCtrlWrite s o n.val (coreCtrlBit s n.val 7))

/-- Own instruction and data scratchpad. -/
def inIscr (a : Nat) : Bool := decide (a < 0x20000)
def inDscr (a : Nat) : Bool := decide (0x10000000 ≤ a) && decide (a < 0x10040000)

/-- n bytes of a core's scratchpads from an address. -/
def scrGet (c : Core) (a n : Nat) : Nat := bytesGet (if inIscr a then c.iscr else c.dscr) a n

/-- Bytes of a core's scratchpads take values, with new check bits. -/
def scrPut (s : State) (n a : Nat) (bs : List Byte) : State :=
  if inIscr a then eccWrite (modCore s n fun c => { c with iscr := bytesPut c.iscr a bs }) (3 + n) a
  else eccWrite (modCore s n fun c => { c with dscr := bytesPut c.dscr a bs }) (7 + n) a

/-- An access to the scratchpad window (R296): the value a read returns. -/
def window (s : State) (n : Nat) (wr : Option Word) : State × Word :=
  if (coreOf s n).st ≠ .halted then (accessFault s (zccR (0x100 * n + 0x18)), 0)
  else
    let w := zccR (0x100 * n + 0x14)
    let a := (reg s w).toNat / 4 * 4
    let s := setReg s w (reg s w + 4)
    if !(inIscr a || inDscr a) then (accessFault s a, 0)
    else match wr with
      | some v => (scrPut s n a (natLe 4 v.toNat), 0)
      | none =>
        let r := eccRead s (if inIscr a then 3 + n else 7 + n) a
        (r.1, wd (scrGet (coreOf r.1 n) a 4))

def execScratchpadWindowAccess (_ : Origin) (n : CoreId) (wr : Option Word) (s : State) : Out :=
  .next (live s fun s => gate s (zccR (0x100 * n.val + 0x18)) fun s => let r := window s n.val wr; { r.1 with rdata := r.2 })

/-- A write to a ZCC register. -/
def zccWrite (s : State) (o : Origin) (a : Nat) (val : Word) : State :=
  let off := a - zccR 0
  let n := off / 0x100
  if 0x400 ≤ off then genWrite s o a val
  else match off % 0x100 with
    | 0x00 => coreCtrlWrite s o n val
    | 0x08 => if coreStill (coreOf s n) then modCore s n fun c => { c with pc := val } else accessFault s a
    | 0x18 => (window s n (some val)).1
    | _ => genWrite s o a val

end Sys2Proof.Machine
end

