-- ==== Sys2Proof/Machine/Ecdsa.lean ====
section
/-! DEFINITION. ECDSA on the curve P-256, by which the boot ROM verifies an image (Table 11-4, R309). -/

namespace Sys2Proof.Machine

open Sys2Proof

/-- The prime of the field, the coefficient b, the base point and its order. (Log 95 PRESUMED unsafe.) -/
def ecP : Nat := 2 ^ 256 - 2 ^ 224 + 2 ^ 192 + 2 ^ 96 - 1
def ecB : Nat := 0x5AC635D8AA3A93E7B3EBBD55769886BC651D06B0CC53B0F63BCE3C3E27D2604B
def ecX : Nat := 0x6B17D1F2E12C4247F8BCE6E563A440F277037D812DEB33A0F4A13945D898C296
def ecY : Nat := 0x4FE342E2FE1A7F9B8EE7EB4A7C0F9E162BCE33576B315ECECBB6406837BF51F5
def ecN : Nat := 0xFFFFFFFF00000000FFFFFFFFFFFFFFFFBCE6FAADA7179E84F3B9CAC2FC632551

/-- A power modulo m, of an exponent below 2^k. -/
def powMod (m : Nat) : Nat → Nat → Nat → Nat
  | 0, _, _ => 1
  | k + 1, b, e => (if e % 2 = 1 then b else 1) * powMod m k (b * b % m) (e / 2) % m

/-- The inverse modulo a prime of 256 bits. -/
def invMod (m a : Nat) : Nat := powMod m 256 (a % m) (m - 2)

/-- A point of the curve by its coordinates; none is the point at infinity. -/
abbrev EcPoint := Option (Nat × Nat)

/-- The point is on y² = x³ - 3 x + b. (Log 95 PRESUMED unsafe.) -/
def ecOn (x y : Nat) : Bool := decide (x < ecP) && decide (y < ecP) && (y * y + 3 * x) % ecP == (x * x % ecP * x + ecB) % ecP

/-- The third point of a line with this slope through (x, y) and a point with abscissa u, mirrored. -/
def ecThird (slope x y u : Nat) : EcPoint :=
  let w := (slope * slope + 2 * ecP - x - u) % ecP
  some (w, (slope * (x + ecP - w) + ecP - y) % ecP)

def ecAdd : EcPoint → EcPoint → EcPoint
  | none, q => q
  | p, none => p
  | some (x, y), some (u, v) =>
    if x = u then
      if (y + v) % ecP = 0 then none else ecThird ((3 * x * x + ecP - 3) % ecP * invMod ecP (2 * y) % ecP) x y x
    else ecThird ((v + ecP - y) % ecP * invMod ecP (u + ecP - x) % ecP) x y u

/-- A multiple of a point, by the low k bits of the factor. (Log 95 PRESUMED unsafe.) -/
def ecMul : Nat → Nat → EcPoint → EcPoint
  | 0, _, _ => none
  | k + 1, n, p => ecAdd (if n % 2 = 1 then p else none) (ecMul k (n / 2) (ecAdd p p))

/-- A number from bytes, the most significant first. -/
def ofBytesBe (bs : List Byte) : Nat := bs.foldl (fun n b => n * 256 + b.toNat) 0

/-- A signature, r then s, over a digest verifies under a public key, x then y (Table 11-4). (Log 95 PRESUMED unsafe.) -/
def sigVerifies (key : List Byte) (digest : BitVec 256) (sig : List Byte) : Bool :=
  let x := ofBytesBe (key.take 32)
  let y := ofBytesBe (key.drop 32)
  let r := ofBytesBe (sig.take 32)
  let t := ofBytesBe (sig.drop 32)
  let inv := invMod ecN t
  ecOn x y && decide (0 < r) && decide (r < ecN) && decide (0 < t) && decide (t < ecN) &&
    (match ecAdd (ecMul 256 (digest.toNat * inv % ecN) (some (ecX, ecY))) (ecMul 256 (r * inv % ecN) (some (x, y))) with
     | some (u, _) => u % ecN == r
     | none => false)

end Sys2Proof.Machine
end

