-- ==== Sys2Proof/Machine/Walk.lean ====
section
/-! DEFINITION. The discovery walk: probes and identities, numbering, range entries, delegation to arms, new links
and the repair of routes (R110, R114, R115, R126 to R131). -/

namespace Sys2Proof.Machine

open Sys2Proof

def modWalk (s : State) (f : Walk → Walk) : State := modTrr s fun t => { t with walk := f t.walk }

/-- A discovery fault (TRR unit 1). -/
def discReport (s : State) (k : Kind) : State := report s 97 k (trrR 0x008)

/-- The n bytes of a number, most significant first. -/
def natBe (n v : Nat) : List Byte := (natLe n v).reverse

/-- What an IDENT says (Table 4-5). -/
structure Ident where
  uid  : BitVec 64
  asg  : Bool
  role : Nat
  node : BitVec 14
  act  : Nat
  dirs : List Nat
  deriving DecidableEq, Repr

/-- The payload of the part's own IDENT. -/
def identPayload (s : State) : List Word :=
  let stage (p : Nat) : Nat := match (portOf s p).stage with
    | .detect => 0 | .train => 1 | .lock => 2 | .caps => 3 | .active => 4 | .off => 5
  let act := (List.range 6).foldl (fun n p => if isActive s p then n + 2 ^ p else n) 0
  bytesWords (natBe 8 s.nv.uid.toNat ++ natBe 1 (b2n s.trr.nodeId.isSome * 128 + (roleOf s).code) ++ natBe 2 (nodeId s).toNat ++
    natBe 1 act ++ ((List.range 6).map fun p => BitVec.ofNat 8 (dirOf s p + 16 * stage p)) ++ natBe 1 fpRev ++
    natBe 1 (b2n (quarHeld s)) ++ natBe 4 0)

def identParse (ws : List Word) : Ident :=
  let b := ws.flatMap wordBytes
  let num (i n : Nat) : Nat := ((b.drop i).take n).foldl (fun a x => a * 256 + x.toNat) 0
  { uid := BitVec.ofNat 64 (num 0 8), asg := decide (128 ≤ num 8 1), role := num 8 1 % 4, node := BitVec.ofNat 14 (num 9 2)
    act := num 11 1 % 64, dirs := (List.range 6).map fun p => num (12 + p) 1 % 8 }

/-- The peer's DIR & 0b11 of its CAPS block: UP 1 or 2, DOWN 3, PARTNER 0. -/
def peerDir (peer0 : Word) : Nat := fld peer0 11 10

/-- The first ID of the arm blocks, and the size of a block (R114). -/
def upperSize (s : State) : Nat := 64 * clampN 1 16 (rf s (trrR 0x00C) 4 0)
def blockSize (s : State) : Nat := 64 * clampN 1 32 (rf s (trrR 0x010) 5 0)

/-- A node the walk knows. -/
def recOf (w : Walk) (n : BitVec 14) : Option NodeRec := w.known.find? (·.node == n)
def recUid (w : Walk) (u : BitVec 64) : Option NodeRec := w.known.find? (·.uid == u)

def setRec (s : State) (n : BitVec 14) (f : NodeRec → NodeRec) : State :=
  modWalk s fun w => { w with known := w.known.map fun r => if r.node = n then f r else r }

/-- The register of range entry k of a port. -/
def entAddr (port k : Nat) : Nat := trrR (0x400 + 0x40 * port + 4 * k)

/-- The walker sends a WR_REQ to node management of a node, with a SEQ of its own, and tracks it (R136). (Log 50 DEDUCED unsafe.) -/
def walkRequest (s : State) (node : BitVec 14) (ws : List Word) : State :=
  let pk := ownPacket s (BitVec.ofNat 20 (node.toNat * 64)) 2 0x01 3 s.trr.wseq ws
  let r := sendPacket (modTrr s fun t => { t with wseq := t.wseq + 1 }) pk
  if r.2 && decide (r.1.trr.reqs.length < 64) then
    modTrr r.1 fun t => { t with reqs := t.reqs ++ [{ ep := 2, core := 0, seq := pk.seq, cls := pk.cls, sent := now s, dest := pk.dest }] }
  else r.1

/-- A range entry goes to its node, valid or removed: the own register, or a WR_REQ to node management. -/
def entWrite (s : State) (e : Ent) (valid : Bool) : State :=
  let a := entAddr e.port e.k
  let v := if valid then wd (2 ^ 31 + b2n e.alt * 2 ^ 30 + e.hi.toNat * 2 ^ 16 + e.lo.toNat) else 0
  if e.node = nodeId s then setReg s a v else walkRequest s e.node [wd a, v]

/-- A new range entry at the lowest free place of a port; a seventeenth is RANGE_FULL (R127). The walker knows the entries
it has written, and on its own ports every VALID one. (Log 53 DEDUCED unsafe.) -/
def entNew (s : State) (node : BitVec 14) (port : Nat) (lo hi : BitVec 14) (alt repair : Bool) : State :=
  let used := (s.trr.walk.ents.filter fun e => e.node == node && e.port == port).map (·.k)
  match (List.range 16).find? fun k => !(used.contains k || (node == nodeId s && rb s (entAddr port k) 31)) with
  | some k =>
    let e : Ent := ⟨node, port, k, lo, hi, alt, repair⟩
    entWrite (modWalk s fun w => { w with ents := w.ents ++ [e] }) e true
  | none => report s 96 .rangeFull (trrR (0x400 + 0x40 * port))

/-- A range grows to take in an ID, or begins. (Log 53 DEDUCED unsafe.) -/
def entGrow (s : State) (node : BitVec 14) (port : Nat) (sel : Ent → Bool) (lo hi : BitVec 14) (alt : Bool) : State :=
  match s.trr.walk.ents.find? fun e => e.node == node && e.port == port && e.alt == alt && !e.repair && sel e with
  | some e =>
    let e' := { e with hi := hi }
    entWrite (modWalk s fun w => { w with ents := w.ents.map fun x => if x = e then e' else x }) e' true
  | none => entNew s node port lo hi alt false

/-- The entries on the path to a newly numbered node, from its parent up to the walker (R115, R125): one for each
child's primary subtree; with ALT = 1 all the way through a secondary parent. -/
def climb : Nat → State → BitVec 14 → Option (BitVec 14) → NodeRec → State
  | 0, s, _, _, _ => s
  | n + 1, s, x, head, c =>
    let head := match head with
      | some h => some h
      | none => if c.alt then some c.node else none
    let lo := head.getD c.node
    let s := entGrow s c.parent c.port (fun e => e.lo == lo) lo x head.isSome
    if c.parent = nodeId s then s
    else match recOf s.trr.walk c.parent with
      | some r => climb n s x head r
      | none => s

/-- The entries for an arm's block on the path to its part. -/
def climbBlock : Nat → State → BitVec 14 → BitVec 14 → NodeRec → State
  | 0, s, _, _, _ => s
  | n + 1, s, lo, hi, c =>
    let up := upperSize s
    let s := entGrow s c.parent c.port (fun e => decide (up ≤ e.lo.toNat)) lo hi false
    if c.parent = nodeId s then s
    else match recOf s.trr.walk c.parent with
      | some r => climbBlock n s lo hi r
      | none => s

/-- An ASSIGN goes out on a port of a node: directly, or through PROBE_VIA with its payload as a second word. -/
def assignSend (s : State) (n : BitVec 14) (p : Nat) (id : BitVec 14) (role : Nat) (quar : Bool) : State :=
  let w := wd (id.toNat + role * 2 ^ 16 + b2n quar * 2 ^ 18)
  if n = nodeId s then enqueue s p (ownPacket s 0 0 0x0A 2 0 [w]) false
  else emit s (ownPacket s (BitVec.ofNat 20 (n.toNat * 64)) 0 0x0B 3 0 [wd p, w])

/-- A probe of a port of a node: PROBE, or PROBE_VIA when the node is remote. -/
def probeSend (s : State) (x : BitVec 14 × Nat) : State :=
  let p := x.2 % 8
  if x.1 = nodeId s then enqueue s p (ownPacket s 0 0 0x08 2 0 []) false
  else emit s (ownPacket s (BitVec.ofNat 20 (x.1.toNat * 64)) 0 0x0B 3 0 [wd p])

/-- The walk ends: an arm returns its count; the STATION walk sets DONE once every delegation has returned, and START
clears with it: the model's choice. A START of the same cycle stays set and starts the next walk (R13). (Log 119 DESIGN CHOICE unsafe.) -/
def walkEnd (s : State) : State :=
  let w := s.trr.walk
  if w.arm then
    emit (modWalk s fun w => { w with running := false, done := true, cur := none })
      (ownPacket s w.client 0 0x0C 3 0 [wd w.count])
  else if w.deleg.isEmpty then
    let s := modWalk s fun w => { w with running := false, done := true, cur := none }
    unflag s (trrR 0x004) 0x80000000
  else modWalk s fun w => { w with cur := none }

/-- The walk goes on with the next port; the fuel bounds the node ends passed over. -/
def walkNext : Nat → State → State
  | 0, s => s
  | n + 1, s =>
    let w := s.trr.walk
    match w.todo with
    | (nd, pc) :: r =>
      if pc = 6 then
        let s := modWalk s fun w => { w with todo := r }
        walkNext n (setRec s nd fun k => { k with last := BitVec.ofNat 14 (w.next - 1) })
      else
        probeSend (modWalk s fun w => { w with todo := r, cur := some (nd, pc), tries := 1, askedAt := now s }) (nd, pc)
    | [] =>
      if w.later.isEmpty then walkEnd s
      else walkNext n (modWalk s fun w =>
        { w with todo := w.later, later := [], mark := w.known.length
                 phase := if w.phase = 0 then 1 else if w.phase = 1 ∧ w.known.length = w.mark then 2 else w.phase })

/-- The walk goes on. -/
def walkOn (s : State) : State := walkNext (s.trr.walk.todo.length + s.trr.walk.later.length + 2) s

/-- A breach of the wiring rules: the link is excluded (R110). -/
def topoBreak (s : State) : State := discReport s .topoRule

/-- A port to probe, marked by its direction. -/
def portCode (dir p : Nat) : Nat := if dir = 4 then 8 + p else if dir = 3 then p else 16 + p

/-- The ACTIVE ports of a node that the walk takes next, in the order P0 to P5 (Table 4-6). -/
def walkPorts (node : BitVec 14) (act : Nat) (dirs : List Nat) (keep : Nat → Bool) : List (BitVec 14 × Nat) :=
  ((List.range 6).filter fun p => act.testBit p && keep (dirs.getD p 0)).map fun p => (node, portCode (dirs.getD p 0) p)

/-- The part's own ACTIVE ports to probe. -/
def ownPorts (s : State) (keep : Nat → Bool) : List (BitVec 14 × Nat) :=
  walkPorts (nodeId s) ((List.range 6).foldl (fun n p => if isActive s p then n + 2 ^ p else n) 0) ((List.range 6).map (dirOf s)) keep

/-- The next arm block goes to an ARM part, with its entries and the DELEGATE (R114, step 5). (Log 44 DESIGN CHOICE unsafe.) -/
def delegateBlock (s : State) (r : NodeRec) : State :=
  let base := Nat.min s.trr.walk.nextBlk 0x3FFF
  let size := if s.trr.walk.nextBlk ≤ 0x3FFF then Nat.min (blockSize s) (0x4000 - base) else 0
  let dest := BitVec.ofNat 20 (r.node.toNat * 64)
  let s := modWalk s fun w =>
    { w with nextBlk := w.nextBlk + blockSize s, blocks := w.blocks ++ [(r.node, BitVec.ofNat 14 base)], deleg := w.deleg ++ [dest] }
  let s := climbBlock 20 s (BitVec.ofNat 14 base) (BitVec.ofNat 14 (base + size - 1)) r
  emit s (ownPacket s dest 0 0x0C 3 0 [wd base, wd size])

/-- The role expected on a port of a node (Table 4-7). -/
def expectedRole (n : NodeRec) (partner : Bool) (expect : Nat) : Nat :=
  if partner then n.role else if n.role = 0 ∨ n.role = 1 then 0 else if n.role = 2 then 1 else expect

/-- An unknown peer is numbered (R114, R115, R129, R130). -/
def numberPeer (s : State) (n : NodeRec) (pc : Nat) (i : Ident) (expect : Nat) (alt : Bool) : State :=
  let w := s.trr.walk
  let p := pc % 8
  let partner := decide (8 ≤ pc)
  let limit := if w.arm then Nat.min 0x3FFF (w.base.toNat + w.size - 1) else upperSize s - 1
  if w.arm && decide (8 ≤ n.depth) then walkOn (discReport s .topoDepth)
  else if limit < w.next || (w.arm && w.size == 0) then walkOn (discReport s .idExhausted)
  else
    let id := BitVec.ofNat 14 w.next
    let want := expectedRole n partner expect
    let bad := decide (i.role ≠ want)
    let r : NodeRec := { uid := i.uid, node := id, role := i.role, parent := n.node, port := p, alt := alt
                         depth := if w.arm then n.depth + 1 else 0, last := id, sideB := false, second := none }
    let s := assignSend s n.node p id want bad
    let s := modWalk s fun w => { w with known := w.known ++ [r], next := w.next + 1, count := w.count + 1, cur := none }
    let s := climb 20 s id none r
    if bad then walkOn (discReport s .roleMismatch)
    else
      let keep (d : Nat) : Bool := w.arm || d != 3 || i.role != 1
      let s := modWalk s fun w => { w with todo := walkPorts id i.act i.dirs keep ++ (id, 6) :: w.todo }
      let s :=
        if !w.arm && i.role == 1 then
          match (if partner then s.trr.walk.blocks.find? (·.1 == n.node) else none) with
          | some b =>
            let s := modWalk s fun w => { w with blocks := w.blocks ++ [(id, b.2)] }
            climbBlock 20 s b.2 (BitVec.ofNat 14 (Nat.min 0x3FFF (b.2.toNat + blockSize s - 1))) r
          | none => delegateBlock s r
        else s
      walkOn s

/-- The link to a known peer is a secondary or partner link (step 4, Table 4-1): its ALT entries, or a breach. -/
def knownPeer (s : State) (n : NodeRec) (pc : Nat) (k : NodeRec) (link : Nat) : State :=
  let w := s.trr.walk
  let p := pc % 8
  let s := modWalk s fun w => { w with cur := none }
  if 8 ≤ pc then walkOn (entNew s n.node p k.node k.node true false)
  else if w.arm then
    let pd := match recOf w k.parent with | some r => r.depth | none => 0
    if link = 2 ∧ n.node ≠ k.parent ∧ n.depth = pd then
      walkOn (entNew (setRec s k.node fun r => { r with second := some (n.node, p) }) n.node p k.node k.last true false)
    else walkOn (topoBreak s)
  else if (k.role = 1 ∧ (n.role = 2 ∨ n.role = 3)) ∨ (k.role = 2 ∧ n.role = 3) then
    let s := entNew s n.node p k.node k.last true false
    let bl := (w.blocks.filter fun b => decide (k.node.toNat ≤ b.1.toNat) && decide (b.1.toNat ≤ k.last.toNat)).map (·.2.toNat)
    match bl with
    | [] => walkOn s
    | b :: r =>
      let lo := r.foldl Nat.min b
      let hi := Nat.min 0x3FFF (r.foldl Nat.max b + blockSize s - 1)
      walkOn (entNew s n.node p (BitVec.ofNat 14 lo) (BitVec.ofNat 14 hi) true false)
  else walkOn (topoBreak s)

/-- An ID of the block of this arm's walk. -/
def inBlock (w : Walk) (n : BitVec 14) : Bool := decide (w.base.toNat ≤ n.toNat) && decide (n.toNat < w.base.toNat + w.size)

/-- The far end of an ARM part's PARTNER port: its ACTIVE down-ports are walked after what is still to walk; one that has no
ID yet is probed again. -/
def partnerTake (s : State) (n : NodeRec) (pc : Nat) (i : Ident) : State :=
  if n.node ≠ nodeId s ∨ i.role ≠ 1 then walkOn (topoBreak s)
  else if !i.asg then walkOn (modWalk s fun w => { w with todo := w.todo ++ [(n.node, pc)] })
  else
    let r : NodeRec := { uid := i.uid, node := i.node, role := 1, parent := n.node, port := pc % 8, alt := false, depth := 0
                         last := i.node, sideB := !n.sideB, second := none }
    walkOn (modWalk s fun w => { w with known := w.known ++ [r], todo := w.todo ++ walkPorts i.node i.act i.dirs (· == 3) })

/-- The walker takes an IDENT from the port in hand: link is the peer's DIR & 0b11, expect the EXPECT of the port. The
directions of the link, the sides of the pair and the arm are checked (R110); an unknown cell over a secondary link
waits until no cell is left that primary links reach, and within the pass until a subtree is whole (R115). -/
def identTake (s : State) (link expect : Nat) (i : Ident) : State :=
  let w := s.trr.walk
  match w.cur with
  | none => s
  | some (nd, pc) =>
    match recOf w nd with
    | none => walkOn (modWalk s fun w => { w with cur := none })
    | some n =>
      let drop := modWalk s fun w => { w with cur := none }
      let partner := decide (8 ≤ pc) && decide (pc < 16)
      let foreign := w.arm && i.role == 0 && i.asg && !inBlock w i.node
      if 16 ≤ pc then walkOn (if link != 3 || foreign then topoBreak drop else drop)
      else if partner && link != 0 || !partner && !(link == 1 || link == 2) then walkOn (topoBreak drop)
      else if w.arm && partner then partnerTake drop n pc i
      else if foreign || (w.arm && n.role == 1 && (link == 2) != n.sideB) then walkOn (topoBreak drop)
      else match recUid w i.uid with
        | some k => knownPeer s n pc k link
        | none =>
          if w.arm && link == 2 then
            let main := (List.range 6).any fun p => i.act.testBit p && i.dirs.getD p 0 == 1
            if w.phase = 0 || w.todo.any (·.2 == 6) || (w.phase = 1 && main) then
              walkOn (modWalk drop fun w => { w with later := w.later ++ [(nd, pc)] })
            else numberPeer s n pc i expect true
          else numberPeer s n pc i expect false

/-- The STATION part begins a walk, with ID 0 for itself (R128). -/
def discBegin (s : State) : State :=
  let own : NodeRec := { uid := s.nv.uid, node := 0, role := 3, parent := 0, port := 0, alt := false, depth := 0, last := 0
                         sideB := false, second := none }
  let s := modTrr s fun t => { t with nodeId := some 0 }
  walkOn (modWalk s fun _ =>
    { (default : Walk) with running := true, next := 1, nextBlk := upperSize s, count := 1, todo := ownPorts s (fun _ => true) ++ [(0, 6)], known := [own] })

/-- R128: START at the STATION part in BOOT begins the walk; any other is refused. A START while a walk runs is ignored: the
model's choice. (Log 119 DESIGN CHOICE unsafe.) -/
def discStart (s : State) (o : Origin) (val : Word) : State :=
  let run := s.trr.walk.running
  let s := genWrite s o (trrR 0x004) val
  let clear (s : State) : State := setReg s (trrR 0x004) (setBit (reg s (trrR 0x004)) 31 false)
  if !bitOf val 31 then s
  else if roleOf s != .station || modeOf s != .boot then accessFault (clear s) (trrR 0x004)
  else if run then s
  else
    let s := discBegin s
    if s.trr.walk.running then s else clear s

/-- An effect that may end the walk: where a START of the same cycle has kept the bit set, the next walk begins (R13). -/
def walkAgain (f : State → State) (s : State) : State :=
  let t := f s
  if s.trr.walk.running && !t.trr.walk.running && !t.trr.walk.arm && rb t (trrR 0x004) 31 then discBegin t else t

def execDiscStart (o : Origin) (val : Word) (s : State) : Out := .next (live s fun s => discStart s o (setBit val 31 true))

/-- R128: a PROBE is answered with IDENT on its link. -/
def probeAnswer (s : State) (p : Nat) : State :=
  if isActive s p then enqueue s p (ownPacket s 0 0 0x09 2 0 (identPayload s)) false else s

/-- A C2 packet that a row takes from a port gives its buffer space back (R135). (Log 47 DESIGN CHOICE unsafe.) -/
def creditC2 (s : State) (p : Nat) : State := creditSend s p 1 0 0

def execProbeRx (p : Port) (s : State) : Out := .next (live s fun s => probeAnswer (creditC2 s p.val) p.val)

/-- An IDENT arrives: for the walk of this part, or for a remote walker, to which it goes on with the port, its
EXPECT and the peer's first CAPS word. -/
def identIn (s : State) (pk : Packet) : State :=
  let peer0 (p : Nat) : Word := reg s (trlR (0x110 + 0x40 * p))
  match s.trr.walk.cur.filter fun c => c.1 == nodeId s, s.trr.via with
  | some (_, pc), _ => walkAgain (fun s => identTake s (peerDir (peer0 (pc % 8))) (expectOf s (pc % 8)) (identParse pk.payload)) s
  | none, (p, cl, sq) :: r =>
    emit (modTrr s fun t => { t with via := r }) (ownPacket s cl 0 0x0B 3 sq ([wd (p + 256 * expectOf s p), peer0 p] ++ pk.payload))
  | none, [] => s

def execIdentRx (pk : Packet) (s : State) : Out := .next (live s fun s => hopIn s 0x09 pk fun s => identIn s pk)

/-- A PROBE_VIA (R128): one word asks for a probe of a port, two carry an ASSIGN for the peer on it, and an answer
carries the port, the link and an IDENT. (Log 44 DESIGN CHOICE unsafe.) -/
def probeVia (s : State) (pk : Packet) : State :=
  let p := fld (pk.payload.getD 0 0) 2 0
  if pk.len = 1 then
    if isActive s p then
      enqueue (modTrr s fun t => { t with via := t.via ++ [(p, pk.src, pk.seq)] }) p (ownPacket s 0 0 0x08 2 0 []) false
    else s
  else if pk.len = 2 then (if isActive s p then enqueue s p (ownPacket s 0 0 0x0A 2 0 [pk.payload.getD 1 0]) false else s)
  else if s.trr.walk.cur.any (fun c => c.1.toNat == nodeOf pk.src) then
    walkAgain (fun s => identTake s (peerDir (pk.payload.getD 1 0)) (fld (pk.payload.getD 0 0) 9 8) (identParse (pk.payload.drop 2))) s
  else s

def execProbeViaRx (pk : Packet) (s : State) : Out :=
  .next (live s fun s => ownIn s [0x0B] pk fun s => if epOf pk.dest = 0 then probeVia s pk else s)

/-- R128: a probe without an IDENT within 10 µs is repeated; after three attempts the port is SILENT. -/
def probeTimeout (s : State) : State :=
  let w := s.trr.walk
  match w.cur with
  | some c =>
    if w.running && decide (w.askedAt + us 10 ≤ now s) then
      if w.tries < 3 then probeSend (modWalk s fun w => { w with tries := w.tries + 1, askedAt := now s }) c
      else walkOn (discReport (modWalk s fun w => { w with cur := none, silent := w.silent ++ [(c.1, c.2 % 8)] }) .discSilent)
    else s
  | none => s

def execProbeTimeout (s : State) : Out := .next (live s (walkAgain probeTimeout))

/-- R114, R129: a node takes its ID; with QUAR it holds QUARANTINE with cause ROLE. -/
def assignIn (s : State) (p : Nat) (pk : Packet) : State :=
  let w := pk.payload.getD 0 0
  if !isActive s p then s
  else
    let s := modTrr s fun t => { t with nodeId := some (BitVec.ofNat 14 (fld w 13 0)) }
    if bitOf w 18 then quarantine s 2 else s

def execAssignRx (p : Port) (pk : Packet) (s : State) : Out := .next (live s fun s => hopIn (creditC2 s p.val) 0x0A pk fun s => assignIn s p.val pk)

/-- R128, R115: an ARM part takes a block and walks its own and its partner's down-ports. -/
def delegateIn (s : State) (pk : Packet) : State :=
  if roleOf s != .arm || pk.len != 2 then s
  else
    let base := fld (pk.payload.getD 0 0) 13 0
    let own : NodeRec := { uid := s.nv.uid, node := nodeId s, role := 1, parent := nodeId s, port := 0, alt := false, depth := 0
                           last := nodeId s, sideB := rb s (sysR 0x050) 30, second := none }
    walkOn (modWalk s fun _ =>
      { (default : Walk) with running := true, arm := true, base := BitVec.ofNat 14 base, size := (pk.payload.getD 1 0).toNat
                              next := base, todo := ownPorts s fun d => d == 3 || d == 4, known := [own], client := pk.src })

def execDelegateRx (pk : Packet) (s : State) : Out :=
  .next (live s fun s => ownIn s [0x0C] pk fun s => if epOf pk.dest = 0 then delegateIn s pk else s)

/-- R128: a delegation returns its count. -/
def delegateReturn (s : State) (src : BitVec 20) (cells : Nat) : State :=
  if s.trr.walk.deleg.contains src then
    let s := modWalk s fun w => { w with deleg := w.deleg.erase src, count := w.count + cells }
    let w := s.trr.walk
    if w.running && w.cur.isNone && w.todo.isEmpty then walkEnd s else s
  else s

def execDelegateReturnRx (src : BitVec 20) (cells : BitVec 14) (s : State) : Out :=
  .next (live s (walkAgain fun s => delegateReturn s src cells.toNat))

/-- The lowest free ID of the walker's range. -/
def freeId (s : State) : Option Nat :=
  let w := s.trr.walk
  let lo := if w.arm then w.base.toNat else 0
  let n := if w.arm then w.size else upperSize s
  ((List.range n).find? fun i => !w.known.any fun r => r.node.toNat == lo + i).map (lo + ·)

/-- An entry of a range on every port along the path to a node, from its parent up to the walker (R131). -/
def newPath : Nat → State → BitVec 14 → BitVec 14 → NodeRec → State
  | 0, s, _, _, _ => s
  | m + 1, s, lo, hi, c =>
    let s := entNew s c.parent c.port lo hi false false
    if c.parent = nodeId s then s
    else match recOf s.trr.walk c.parent with
      | some r => newPath m s lo hi r
      | none => s

/-- A peer numbered before: its former ID; its repair entries go, and over a new primary link its subtree gets entries on
the new path (R131). -/
def knownLink (s : State) (reporter : BitVec 14) (p : Nat) (k : NodeRec) : State :=
  let w := s.trr.walk
  let gone := w.ents.filter fun e => e.repair && decide (k.node.toNat ≤ e.lo.toNat) && decide (e.lo.toNat ≤ k.last.toNat)
  let s := gone.foldl (fun s e => entWrite s e false) s
  let s := modWalk s fun w => { w with ents := w.ents.filter fun e => !gone.contains e }
  if k.alt ∧ reporter ≠ k.parent then
    let k' := { k with alt := false, parent := reporter, port := p, second := some (k.parent, k.port) }
    newPath 20 (setRec s k.node fun _ => k') k.node k.last k'
  else s

/-- A peer that is new to the walker (R131): the lowest free ID and single-node entries, and a block for a new arm pair. -/
def freshLink (s : State) (n : NodeRec) (p : Nat) (i : Ident) (want : Nat) (partner : Bool) : State :=
  let w := s.trr.walk
  match freeId s with
  | none => discReport s .idExhausted
  | some id =>
    let id := BitVec.ofNat 14 id
    let r : NodeRec := { uid := i.uid, node := id, role := i.role, parent := n.node, port := p, alt := false
                         depth := if w.arm then n.depth + 1 else 0, last := id, sideB := false, second := none }
    if w.arm ∧ 8 < r.depth then discReport s .topoDepth
    else
      let s := assignSend s n.node p id want (decide (i.role ≠ want))
      let s := modWalk s fun w => { w with known := w.known ++ [r], count := w.count + 1 }
      let s := newPath 20 s id id r
      if w.arm || i.role != 1 || i.role != want then s
      else match (if partner then w.blocks.find? (·.1 == n.node) else none) with
        | some b => modWalk s fun w => { w with blocks := w.blocks ++ [(id, b.2)] }
        | none => delegateBlock s r

/-- R131: the walker takes a new link at a port of a node, probes the peer and takes its IDENT; `expect` is the EXPECT of a
STATION part's port, which it reads over the fabric (Table 4-7). (Log 52 DEDUCED unsafe.) -/
def newLink (s : State) (reporter : BitVec 14) (p expect : Nat) (i : Ident) : State :=
  let w := s.trr.walk
  if !w.done then s
  else match recOf w reporter with
    | none => s
    | some n =>
      let partner := decide (n.role = i.role) && decide (i.role ≠ 0)
      let want := expectedRole n partner (if reporter = nodeId s then expectOf s p else expect)
      let s := probeSend s (reporter, p)
      let s := if i.role ≠ want then discReport s .roleMismatch else s
      match recUid w i.uid with
      | some k => knownLink (assignSend s reporter p k.node want (decide (i.role ≠ want))) reporter p k
      | none => freshLink s n p i want partner

def execNewLinkHandle (reporter : BitVec 14) (p : Port) (expect : BitVec 2) (ident : Packet) (s : State) : Out :=
  .next (live s fun s => newLink s reporter p.val expect.toNat (identParse ident.payload))

/-- The ancestors of a node, itself first. -/
def ancestors : Nat → Walk → BitVec 14 → List (BitVec 14)
  | 0, _, _ => []
  | n + 1, w, x => x :: (match recOf w x with
    | some r => if r.parent = x then [] else ancestors n w r.parent
    | none => [])

/-- Repair entries for a child's subtree, from a secondary parent up to the common ancestor of both parents. -/
def repairUp : Nat → State → List (BitVec 14) → NodeRec → NodeRec → State
  | 0, s, _, _, _ => s
  | n + 1, s, stop, child, x =>
    let s := entNew s x.parent x.port child.node child.last true true
    if stop.contains x.parent ∨ x.parent = nodeId s then s
    else match recOf s.trr.walk x.parent with
      | some r => repairUp n s stop child r
      | none => s

/-- R126: the routes to the children of a lost cell go over their secondary parents. (Log 53 DEDUCED unsafe.) -/
def repair (s : State) (lost : BitVec 14) : State :=
  let w := s.trr.walk
  if roleOf s != .arm || !s.sys.pair.active || !w.done then s
  else
    let stop := ancestors 20 w lost
    (w.known.filter fun c => c.parent == lost && c.node != lost && !c.alt).foldl (fun s c =>
      match c.second with
      | some (n, _) => (match recOf w n with | some sp => if sp.parent = n then s else repairUp 20 s stop c sp | none => s)
      | none => s) s

def execRouteRepair (lost : BitVec 14) (s : State) : Out := .next (live s fun s => repair s lost)

end Sys2Proof.Machine
end

