-- ==== Sys2Proof/Machine/Images.lean ====
section
/-! DEFINITION. Reset release and the boot ROM (R443), image slots (R309 to R311) and the flash controller (R312). -/

namespace Sys2Proof.Machine

open Sys2Proof

/-- A little-endian word of a slot's header. -/
def slotWord (s : State) (b : Bool) (off : Nat) : Nat := bytesGet s.mem (slotBase b + off) 4

/-- Bytes of a slot. -/
def slotBytes (s : State) (b : Bool) (off n : Nat) : List Byte := memBytes s (slotBase b + off) n

/-- The ROLES bit of the strapped role. -/
def roleBit (r : Role) : Nat :=
  match r with
  | .arm => 8
  | .pole => 9
  | .station => 10
  | _ => 11

/-- A segment descriptor lies within the slot and within its destination (R309). (Log 96 DEDUCED unsafe.) -/
def segmentOk (s : State) (b : Bool) (k : Nat) : Bool :=
  let d := 0x100 + 16 * k
  let dst := slotWord s b d
  let off := slotWord s b (d + 4)
  let len := slotWord s b (d + 8)
  let dest := slotWord s b (d + 12)
  decide (off + len ≤ 0x2000000) &&
    (if dst < 4 then decide (dest + len ≤ 0x20000)
     else if 0x10 ≤ dst ∧ dst < 0x14 then decide (0x10000000 ≤ dest) && decide (dest + len ≤ 0x10040000)
     else dst == 0x20 && decide (0x20000000 ≤ dest) && decide (dest + len ≤ 0x20400000))

/-- A slot is valid (R309). (Log 95 PRESUMED unsafe.) -/
def slotValid (s : State) (b : Bool) : Bool :=
  let fmt := slotWord s b 0x04
  let len := slotWord s b 0x0C
  let nseg := slotWord s b 0x30
  if slotWord s b 0 ≠ 0x5A494D47 ∨ fmt % 256 ≠ 1 ∨ len % 16 ≠ 0 ∨ 0x1FFFF00 < len ∨ nseg < 1 ∨ 32 < nseg then false
  else
    let key := slotBytes s b 0x60 64
    let digest := sha256 (slotBytes s b 0 0x40 ++ slotBytes s b 0x100 len)
    fmt.testBit (roleBit (roleOf s)) && decide (sha256 key = Config.keyHash 0) &&
      decide (slotBytes s b 0x40 32 = natBe 32 digest.toNat) && sigVerifies key digest (slotBytes s b 0xA0 64) &&
      (List.range nseg).all (segmentOk s b)

/-- One segment is loaded. (Log 96 DEDUCED unsafe.) -/
def segmentLoad (s : State) (b : Bool) (k : Nat) : State :=
  let d := 0x100 + 16 * k
  let dst := slotWord s b d
  let bs := slotBytes s b (slotWord s b (d + 4)) (slotWord s b (d + 8))
  let dest := slotWord s b (d + 12)
  if dst < 4 then modCore s dst fun c => { c with iscr := bytesPut c.iscr dest bs }
  else if dst < 0x14 then modCore s (dst - 0x10) fun c => { c with dscr := bytesPut c.dscr dest bs }
  else { s with mem := bytesPut s.mem dest bs }

/-- The cores named in ENTRY0 to ENTRY3 start (R443). -/
def coresStart (s : State) (b : Bool) : State :=
  (List.range 4).foldl (fun s n =>
    let e := slotWord s b (0x20 + 4 * n)
    if e = 0xFFFFFFFF then s
    else modCore s n fun c => { c with st := .running, pc := wd e, cycle := 0, frame := 2 * now s % 16 }) s

/-- The slot the boot ROM takes (R310): none, or the slot and whether it is a fallback. -/
def slotPick (s : State) (va vb : Bool) : Option (Bool × Bool) :=
  let force := rf s (sysR 0x034) 1 0
  let later := decide (0 < (wd (slotWord s true 8) - wd (slotWord s false 8)).toInt)
  match va, vb with
  | false, false => none
  | true, false => some (false, force == 2)
  | false, true => some (true, force == 1)
  | true, true => some (if force = 1 then false else if force = 2 then true else later, false)

/-- The boot ROM of an upper part (R309 to R311, R315, R443). (Log 4 DESIGN CHOICE safe, 114 DEDUCED unsafe.) -/
def bootUpper (s : State) : State :=
  let va := slotValid s false
  let vb := slotValid s true
  let r := sysR 0x034
  let s := setRf (setRf s r 7 7 (b2n vb)) r 6 6 (b2n va)
  match slotPick s va vb with
  | none => report (modSys s fun y => { y with stopped := true }) 3 .imageNone r
  | some (b, fb) =>
    let s := setRf s r 4 4 (b2n b)
    let s := if fb then report (setRf s r 5 5 1) 3 .imageFallback r else s
    let s := (List.range (slotWord s b 0x30)).foldl (fun s k => segmentLoad s b k) s
    let s := coresStart (modSys s fun y => { y with bootOk := true }) b
    let v := slotBytes s b 0x10 16
    if byteAt v 6 ≤ sfRev s ∧ sfRev s ≤ byteAt v 7 then s
    else quarantine (report s 5 .versionUntested (sysR 0x030)) 3

/-- The boot ROM of a cell (R443): P0 and P1 in DETECT, cores off; a cell whose bypass switch has closed enters SAFE
(R7, R413). -/
def bootCell (s : State) : State :=
  let s := (List.range 4).foldl (fun s n => modCore s n fun c => { c with st := .off }) s
  let s := modSup s fun u => { u with stage := u.stage ||| 2 }
  let s := [0, 1].foldl (fun s p => modPort s p fun t => { t with powered := true }) s
  match s.saf.closed with
  | some bad => modRdl (enterSafe s 22 none) fun r => { r with state := if bad then .blocked else .bypassed }
  | none => s

/-- A rail's last sample lay outside its window (R440). (Log 123 DEDUCED unsafe.) -/
def railsOut (s : State) : Bool := (List.range 7).any fun r => kget none s.sup.rails r == some false

/-- The release of reset (R2, R3, R443, R488): SOFTOFF is released (Table 20-3), except at a part that behaves as R3
gives, which stays in BOOT with its six ports in DETECT; a power-on finds BYPASSED in MRAM (R413). The STATION part applies
tick 0 in the first cycle (R501). No reset is released while a rail lies outside its window (R440). (Log 4 DESIGN CHOICE safe, 29 DEDUCED unsafe, 32 DEDUCED safe, 114 DEDUCED unsafe.) -/
def resetRelease (s : State) (straps : BitVec 3) (testmode : Bool) : State :=
  if !s.sys.inReset || railsOut s then s
  else
    let por := s.sys.porRst
    let s := modSys s fun y => { y with inReset := false, porRst := false, pinLow := false, testmode, strap := if por then straps else y.strap }
    let s := modNv s fun v => { v with pwrCnt := if por then v.pwrCnt + 1 else v.pwrCnt }
    let s := modSaf s fun f => { f with closed := if por && s.nv.bypassed then some s.nv.actFailed else f.closed }
    let s := { s with mem := keptMem s.mem, cores := [] }
    let s := modFlt s fun f => { f with ecc := f.ecc.filter fun e => decide (2 * 2 ^ 28 ≤ e.1) && decide (e.1 < 3 * 2 ^ 28) }
    let s := modTmk s fun t => { t with nextPs := if roleOf s = .station then nowPs s else 0 }
    let bar := roleOf s == .reserved || testmode
    let s := (List.range 6).foldl (fun s p =>
      if !bar && dirOf s p == 0 then s else modPort s p fun t => { t.detect (now s) with stage := .detect }) s
    if bar then
      let s := modSys s fun y => { y with stopped := true, barred := true }
      (List.range 4).foldl (fun s n => modCore s n fun c => { c with st := if roleOf s = .reserved then .off else .halted }) s
    else
      let s := modSwg s fun g => { g with softoff := false }
      if isCell s then bootCell s else bootUpper s

def execResetRelease (straps : BitVec 3) (testmode : Bool) (s : State) : Out := .next (resetRelease s straps testmode)

def qspiCmd : Nat := sysR 0x100
def qspiStat : Nat := sysR 0x108

/-- A command of the flash controller is refused (R312): misaligned, or it touches the slot the part booted from. -/
def qspiRefused (s : State) (op : Nat) : Bool :=
  let a := rf s (sysR 0x104) 25 0
  let slot := rb s (sysR 0x034) 4
  let touches := s.sys.bootOk && decide (0x2000000 ≤ a) == slot
  touches || decide (a % (if op = 1 then 256 else 65536) ≠ 0)

/-- A write of SYS_QSPI_CMD (R312); one while BUSY is 1, or with a reserved OP, starts nothing. In a part without a valid
slot the flash is reachable only through JTAG (R311). -/
def qspiWrite (s : State) (o : Origin) (val : Word) : State :=
  if s.sys.stopped then accessFault s qspiCmd
  else if s.sys.qspi.isSome then s
  else
    let s := genWrite s o qspiCmd val
    let op := fld val 31 28
    if !bitOf val 0 then s
    else if op ≠ 1 ∧ op ≠ 2 then setRf s qspiCmd 0 0 0
    else if qspiRefused s op then report (flag (setRf s qspiCmd 0 0 0) qspiStat 2) 7 .qspiRefused qspiStat
    else modSys s fun y => { y with qspi := some (op, rf s (sysR 0x104) 25 0) }

def execQspiProgram (o : Origin) (s : State) : Out := .next (live s fun s => qspiWrite s o 0x10000001)
def execQspiErase (o : Origin) (s : State) : Out := .next (live s fun s => qspiWrite s o 0x20000001)

/-- The bytes of SYS_QSPI_BUF. -/
def qspiPage (s : State) : List Byte := (List.range 64).flatMap fun w => natLe 4 (reg s (sysR (0x1000 + 4 * w))).toNat

/-- A 64 KiB sector without its programmed bytes. -/
def sectorErase (m : List Host.Cell) (a : Nat) : List Host.Cell := m.filter fun c => decide (c.1 < a) || decide (a + 65536 ≤ c.1)

/-- R312: the operation completes, its page written or its sector erased. -/
def qspiDone (s : State) : State :=
  match s.sys.qspi with
  | none => s
  | some (op, a) =>
    let m := if op = 1 then bytesPut s.mem (0x60000000 + a) (qspiPage s) else sectorErase s.mem (0x60000000 + a)
    modSys (setRf { s with mem := m } qspiCmd 0 0 0) fun y => { y with qspi := none }

def execQspiOpDone (s : State) : Out := .next (live s qspiDone)

end Sys2Proof.Machine
end

