-- ==== Sys2Proof/Machine/Bus.lean ====
section
/-! DEFINITION. Word accesses over the local address map (Table 1-2): which rule a write to a register follows,
reads, and the accesses that the part ignores with an access fault (R10, R11, R14, R16, R18). -/

namespace Sys2Proof.Machine

open Sys2Proof

/-- SYS_TBL_BUF takes words at a cell in BOOT, as a fabric request only (R305). (Log 22 DEDUCED safe.) -/
def tblBufWrite (s : State) (o : Origin) (a : Nat) (val : Word) : State :=
  let fab := match o with
    | .fabric _ => true
    | _ => false
  if isCell s && fab && modeOf s == .boot then setReg s a val else accessFault s a

/-- Word i of the staged table set. (Log 22 DEDUCED safe.) -/
def tblWord (s : State) (i : Nat) : Word := reg s (sysR (0x8000 + 4 * i))

/-- A write to a TMK register. -/
def tmkWrite (s : State) (o : Origin) (a : Nat) (val : Word) : State :=
  let off := a - tmkR 0
  if off = 0x000 then tmkCtrlWrite s o val
  else if off = 0x008 then periodWrite s o val
  else if 0x100 ≤ off ∧ off < 0x1C0 then
    let n := (off - 0x100) / 0x40
    match (off - 0x100) % 0x40 with
    | 0x14 => ptStep s n val
    | 0x18 => ptDomainWrite s o n val
    | 0x00 => ptWrite s n 0x00 val
    | 0x04 => ptWrite s n 0x04 val
    | 0x08 => ptWrite s n 0x08 val
    | 0x0C => ptWrite s n 0x0C val
    | _ => genWrite s o a val
  else if 0x200 ≤ off ∧ off < 0x280 then
    let m := (off - 0x200) / 0x10
    match (off - 0x200) % 0x10 with
    | 0x0 => cmpCtrl s o m val
    | 0x8 => cmpArm s o m val
    | _ => genWrite s o a val
  else if 0x300 ≤ off ∧ off < 0x340 ∧ off % 0x10 = 8 then lchArm s o ((off - 0x300) / 0x10) val
  else genWrite s o a val

/-- A write to a TRL register (R81, R94, R108). -/
def trlWrite (s : State) (o : Origin) (a : Nat) (val : Word) : State :=
  let off := a - trlR 0
  if off = 0x000 then
    if isCell s && bitOf val 0 then accessFault (genWrite s o a (setBit val 0 false)) a else genWrite s o a val
  else if off = 0x040 then eyeWrite s o val
  else if 0x100 ≤ off ∧ off < 0x280 ∧ off % 0x40 = 0 then portCfg s o ((off - 0x100) / 0x40) val
  else genWrite s o a val

/-- A write to a TRR register. -/
def trrWrite (s : State) (o : Origin) (a : Nat) (val : Word) : State :=
  match a - trrR 0 with
  | 0x004 => discStart s o val
  | 0x020 => cayCtrlWrite s o val
  | 0x024 => cayStatWrite s val
  | _ => genWrite s o a val

/-- A write to an RDL register. -/
def rdlWrite (s : State) (o : Origin) (a : Nat) (val : Word) : State :=
  match a - rdlR 0 with
  | 0x000 => rdlCtrlWrite s o val
  | 0x01C => levelWrite s o val
  | 0x054 => cellCfgWrite s o val
  | _ => genWrite s o a val

/-- A write to an STP register (R330, R331, R335). -/
def stpWrite (s : State) (o : Origin) (a : Nat) (val : Word) : State :=
  let off := a - stpR 0
  if off = 0x000 then (if preRun s then genWrite s o a val else accessFault s a)
  else if 0x400 ≤ off ∧ off < 0x800 ∧ off % 0x40 = 0 then subCfgWrite s o ((off - 0x400) / 0x40) val
  else if 0x2000 ≤ off ∧ off < 0x2800 ∧ off % 0x40 = 0 then gpubWrite s o ((off - 0x2000) / 0x40) val
  else if 0x3000 ≤ off ∧ off < 0x4000 ∧ off % 0x40 = 0 then gsubWrite s o ((off - 0x3000) / 0x40) val
  else genWrite s o a val

/-- A write to an FLT register. -/
def fltWrite (s : State) (o : Origin) (a : Nat) (val : Word) : State :=
  let off := a - fltR 0
  if 0x100 ≤ off ∧ off < 0x140 then pendWrite s o ((off - 0x100) / 4) val
  else if 0x800 ≤ off ∧ off < 0x1000 then reactWrite s o a val
  else match off with
    | 0x014 => firstWrite s val
    | 0x080 => injWrite s o val
    | 0x084 => kickWrite s o
    | 0x088 => aliveWrite s o val
    | 0x0A0 => logStatWrite s val
    | _ => genWrite s o a val

/-- A write of SAF_TP_CFG: TP_WIDTH must exceed FB_DLY (R401). -/
def tpCfgWrite (s : State) (o : Origin) (a : Nat) (val : Word) : State :=
  if clampN 2 500 (fld val 8 0) * 500 ≤ us (fbDly s) then accessFault s a else genWrite s o a val

/-- A write of SAF_TIMING: FB_DLY must stay below TP_WIDTH (R401). (Log 124 DEDUCED unsafe.) -/
def timingWrite (s : State) (o : Origin) (a : Nat) (val : Word) : State :=
  if tpWidth s ≤ us (Nat.max 1 (fld val 23 16)) then accessFault s a else genWrite s o a val

/-- A write to a SAF register. -/
def safWrite (s : State) (o : Origin) (a : Nat) (val : Word) : State :=
  match a - safR 0 with
  | 0x004 => safCtrlWrite s o val
  | 0x010 => timingWrite s o a val
  | 0x014 => tpCfgWrite s o a val
  | 0x030 => modSaf s fun f => { f with pwHi := val }
  | 0x034 => unlockTry s o val
  | 0x038 => safLockWrite s o val
  | 0x040 => modSaf s fun f => { f with newHi := val }
  | 0x044 => modSaf s fun f => { f with newLo := val }
  | 0x050 => bypassWrite s o val
  | 0x054 => serviceWrite s o val
  | 0x068 => logAckWrite s val
  | _ => genWrite s o a val

/-- The word that returns a register to its reset value: what hardware alone writes stays. -/
def resetWord (s : State) (a : Nat) : Word :=
  match rowOf a with
  | some r => let m := accMask r (· != .ro); (regReset (roleOf s) a &&& m) ||| (reg s a &&& ~~~ m)
  | none => reg s a

/-- Registers return to their reset values. -/
def regsReset (s : State) (l : List Nat) : State := l.foldl (fun s a => setReg s a (resetWord s a)) s

/-- A write to a register of a block other than SYS, with the effect it has in that block. -/
def unitWrite (s : State) (o : Origin) (a : Nat) (val : Word) : State :=
  match blockOf a with
  | 1 => tmkWrite s o a val
  | 2 => trlWrite s o a val
  | 3 => trrWrite s o a val
  | 4 => rdlWrite s o a val
  | 6 => snsWrite s o a val
  | 7 => lpeWrite s o (a - lpeR 0) val
  | 8 => stpWrite s o a val
  | 9 => capWrite s o a val
  | 10 => fltWrite s o a val
  | 11 => safWrite s o a val
  | 13 => svbWrite s o a val
  | 14 => zccWrite s o a val
  | _ => genWrite s o a val

/-- A register that software writes and reads back, so that its block follows its value. -/
def hasValue (a : Nat) : Bool := match rowOf a with | some r => r.fs.any fun f => f.2.2 == .rw | none => false

/-- Registers return to their reset values and their blocks follow: as by a write, whose faults are no news (R307). -/
def regsUnset (s : State) (l : List Nat) : State :=
  let t := l.foldl (fun s a => if hasValue a && decide (blockOf a ≠ 0) then unitWrite s .table a (regReset (roleOf s) a) else s) s
  regsReset { t with flt := { t.flt with bus := s.flt.bus } } l

/-- COMMIT (R306 to R308): a load of the staged set begins, the registers of an old set first returned to reset. (Log 92 DEDUCED unsafe.) -/
def commitWrite (s : State) (val : Word) : State :=
  let a := sysR 0x040
  if !bitOf val 0 then s
  else if !isCell s || modeOf s != .boot || s.sys.tbl.busyTil.isSome then accessFault s a
  else
    let s := regsUnset s s.sys.tbl.touched
    let s := modRdl (setRf s a 0 0 1) fun r => { r with swTemp := none }
    modTbl s fun t =>
      { t with busyTil := some (now s + us 20 + divUp (fld (tblWord s 1) 15 0 * 25) 2), result := 1, record := 0, setId := 0
               touched := [], loaded := false }

/-- A write to a SYS register. -/
def sysWrite (s : State) (o : Origin) (a : Nat) (val : Word) : State :=
  match a - sysR 0 with
  | 0x00C => modeCmdWrite s o val
  | 0x040 => commitWrite s val
  | 0x050 => pairCfgWrite s o val
  | 0x058 => pairCmdWrite s o val
  | 0x100 => qspiWrite s o val
  | off => if 0x8000 ≤ off then tblBufWrite s o a val else genWrite s o a val

/-- A write to a register that its map defines. (Log 14 DEDUCED safe.) -/
def blockWrite (s : State) (o : Origin) (a : Nat) (val : Word) : State :=
  if blockOf a = 0 then sysWrite s o a val else unitWrite s o a val

/-- A word write to a peripheral address (R14, R16, R370, R371, R457). -/
def regBusWrite (s : State) (o : Origin) (a : Nat) (val : Word) : State :=
  if reachable s a && (rowOf a).isSome then blockWrite s o a val else accessFault s a

/-- A word write over the address map; an agent's own scratchpads are not on it (R11, R16 to R18). -/
def busWrite (s : State) (o : Origin) (a : Nat) (val : Word) : State :=
  if a % 4 ≠ 0 then accessFault s a
  else if inPeriph a then regBusWrite s o a val
  else if inSram a || inCapRam a || inMram a then memWrite s a (natLe 4 val.toNat)
  else accessFault s a

/-- A write that is not an aligned word is ignored (R11). -/
def regWriteCmd (s : State) (o : Origin) (sz : Size) (a : Nat) (val : Word) : State :=
  if sz = .w then busWrite s o a val else accessFault s a

def execRegisterWrite (o : Origin) (sz : Size) (addr val : Word) (s : State) : Out :=
  .next (live s fun s => regWriteCmd s o sz addr.toNat val)

/-- A word read of a peripheral address: 0 from a block that is off, 0 and an access fault where its map defines
nothing (R14, R16); the reads with an effect (R41, R296) have it. -/
def regBusRead (s : State) (a : Nat) : State × Word :=
  if !reachable s a then (s, 0)
  else if (rowOf a).isNone then (accessFault s a, 0)
  else if [0x40010020, 0x40010030, 0x4001010C, 0x4001014C, 0x4001018C].contains a then
    let t := lowRead s a
    (t, t.rdata)
  else if blockOf a = 14 ∧ a - zccR 0 < 0x400 ∧ a % 0x100 = 0x18 then window s ((a - zccR 0) / 0x100) none
  else (s, readReg s a)

/-- A value that the spec does not state: the next free one. (Log 9 DESIGN CHOICE safe, 17 DESIGN CHOICE safe.) -/
def freeVal (s : State) : State × Word := ({ s with free := s.free + 1 }, Config.freeWord s.free)

/-- A word of the shared memories; one with an error that cannot be corrected reads as a value that the spec does
not state (R376). -/
def memFetch (s : State) (a : Nat) : State × Word :=
  let r := memRead s a 4
  if r.2.2 then (r.1, wd r.2.1) else freeVal r.1

/-- A word read over the address map by the host or over the fabric; `flash` where the QSPI window is reached too. (Log 17 DESIGN CHOICE safe.) -/
def busRead (s : State) (flash : Bool) (a : Nat) : State × Word :=
  if a % 4 ≠ 0 then (accessFault s a, 0)
  else if inPeriph a then regBusRead s a
  else if inSram a || inCapRam a || inMram a || (flash && inFlash a && !s.sys.stopped) then memFetch s a
  else (accessFault s a, 0)

/-- n words from an address upward. (Log 18 DESIGN CHOICE unsafe.) -/
def busReads (flash : Bool) : Nat → State → Nat → State × List Word
  | 0, s, _ => (s, [])
  | n + 1, s, a =>
    let r := busRead s flash a
    let t := busReads flash n r.1 (a + 4)
    (t.1, r.2 :: t.2)

/-- Words to an address upward. (Log 18 DESIGN CHOICE unsafe.) -/
def busWrites (o : Origin) : List Word → State → Nat → State
  | [], s, _ => s
  | w :: l, s, a => busWrites o l (busWrite s o a w) (a + 4)

end Sys2Proof.Machine
end

