-- ==== Sys2Proof/Machine/Tables.lean ====
section
/-! DEFINITION. Cell table sets: staging, COMMIT and the three passes of a load (R305 to R308, R315), with the
load checks of R175, R191, R220 and R262. -/

namespace Sys2Proof.Machine

open Sys2Proof

/-- The words of the staged set. -/
def tblWords (s : State) : List Word := (List.range (fld (tblWord s 1) 15 0)).map (tblWord s)

/-- A record of a table set: its word index, its type and the words that follow. -/
structure TblRec where
  at_ : Nat
  typ : Nat
  ws  : List Word
  deriving DecidableEq, Repr, Inhabited

/-- The form of a record that begins with word w, before the words r (Table 11-3). -/
def recordForm (w : Word) (r : List Word) : Bool :=
  let nw := fld w 15 0
  fld w 23 16 == 0 && decide (nw < r.length) &&
    (match fld w 31 24 with
     | 1 => decide (2 ≤ nw) && decide (nw ≤ 255)
     | 2 => decide (7 ≤ nw) && decide (nw ≤ 4101) && (r.getD 3 0).toNat + 5 == nw && r.getD 4 0 == 0 && fld (r.getD 0 0) 15 0 == 1
     | _ => false)

/-- The records from word index i on, and the index of the first that has no form of Table 11-3. -/
def records : Nat → Nat → List Word → List TblRec × Option Nat
  | 0, i, _ => ([], some i)
  | _ + 1, i, [] => ([], some i)
  | n + 1, i, w :: r =>
    if w = 0 ∧ r = [] then ([], none)
    else if recordForm w r then
      let nw := fld w 15 0
      let l := records n (i + 1 + nw) (r.drop nw)
      (⟨i, fld w 31 24, r.take nw⟩ :: l.1, l.2)
    else ([], some i)

/-- The values of a CURVE record are finite and INVSTEP is positive (R306). (Log 93 DEDUCED safe.) -/
def curveOk (r : TblRec) : Bool :=
  r.typ != 2 ||
    (!fpBad (r.ws.getD 1 0) && !fpBad (r.ws.getD 2 0) && decide (0 < fpCmp (r.ws.getD 2 0) 0) && (r.ws.drop 5).all fun y => !fpBad y)

/-- The header holds (Table 11-2, R306). -/
def headerOk (s : State) : Bool :=
  let w := tblWord s 1
  tblWord s 0 == 0x54424C53 && decide (10 ≤ fld w 15 0) && decide (fld w 15 0 ≤ 8192) && fld w 23 16 == 0 &&
    decide (byteAt siliconVector 10 ≤ fld w 31 24) && decide (fld w 31 24 ≤ byteAt siliconVector 11)

/-- The CRC word holds. -/
def tblCrcOk (ws : List Word) : Bool := crc32c (leBytes (ws.take (ws.length - 1))) == (ws.getLastD 0).toNat

/-- Pass 1 (R306): the records, or a RESULT and a record index. -/
def pass1 (s : State) : Except (Nat × Nat) (List TblRec) :=
  if !headerOk s then .error (3, 0)
  else
    let ws := tblWords s
    if !tblCrcOk ws then .error (4, 0)
    else
      let l := records ws.length 8 ((ws.take (ws.length - 1)).drop 8)
      match l.2, l.1.find? fun r => !curveOk r with
      | some i, _ => .error (5, i)
      | none, some r => .error (6, r.at_)
      | none, none => .ok l.1

/-- The messages of kind ACCESS that a state's blocks have reported. -/
def accessCount (s : State) : Nat := (s.flt.bus.filter fun m => m.2.toNat / 2 ^ 48 % 128 == 1).length

/-- The words of a REG record, each under the rules of a fabric write: the state, and the registers written. (Log 91 DESIGN CHOICE unsafe.) -/
def regRecord : List Word → State → Nat → State × List Nat
  | [], s, _ => (s, [])
  | w :: l, s, a =>
    let t := if inPeriph a && a % 4 == 0 then regBusWrite s .table a w else accessFault s a
    let r := regRecord l t (a + 4)
    (r.1, if accessCount s < accessCount t then r.2 else a :: r.2)

/-- Pass 2 (R306): the records in order; the registers it has written, and the index of the record that an access fault
ends. -/
def pass2 : List TblRec → State → State × List Nat × Option Nat
  | [], s => (s, [], none)
  | r :: l, s =>
    if r.typ = 2 then
      pass2 l (modRdl s fun q => { q with swTemp := some (fld (r.ws.getD 0 0) 31 27, r.ws.drop 1) })
    else
      let t := regRecord (r.ws.drop 1) s (r.ws.getD 0 0).toNat
      if t.1.sys.inReset then (t.1, t.2, none)
      else if accessCount s < accessCount t.1 then (t.1, t.2, some r.at_)
      else
        let n := pass2 l t.1
        (n.1, t.2 ++ n.2.1, n.2.2)

/-- The switch-guard configuration holds (R191). -/
def swgTableOk (s : State) : Bool :=
  let used := if fullBridge s then 4 else 2
  (List.range 8).all fun m =>
    chOn s m == decide (m < used) &&
      (!chOn s m ||
        (let w := reg s (swgTh m)
         decide (Nat.min 225 (fld w 23 16) < Nat.min 225 (fld w 31 24)) && decide (fld w 15 8 + Nat.max 1 (fld w 7 4) ≤ 255)))

/-- Pass 3 (R306): the load checks of the blocks. (Log 93 DEDUCED safe.) -/
def tableChecks (s : State) : Bool × Bool × Bool × Bool :=
  (edgeCfgOk s (periodLt s), swgTableOk s, snsTableOk s, qOk (qCtl s) s s.tmk.period)

/-- The reports of broken load checks. -/
def tableFaults (c : Bool × Bool × Bool × Bool) (s : State) : State :=
  let s := if c.1 then s else edgeCfgFault s
  let s := if c.2.1 then s else report s 168 .swgCfg (swgR 0x000)
  let s := if c.2.2.1 then s else report s 218 .snsCfg (snsR 0x010)
  if c.2.2.2 then s else lpeCfgFault s (lpeR 0x000)

/-- A set is rejected (R307): no effect is left. (Log 91 DESIGN CHOICE unsafe.) -/
def tableReject (s : State) (result record : Nat) : State :=
  let s := modTbl (unflag s (sysR 0x040) 1) fun t => { t with busyTil := none, result := result, record := record }
  report s 4 .tblReject (sysR 0x044)

/-- The state before pass 2, with the registers that pass 2 wrote at reset; the access faults reported stand. (Log 91 DESIGN CHOICE unsafe.) -/
def tableUndo (s t : State) (l : List Nat) : State :=
  let z := regsReset s l
  { z with flt := { z.flt with bus := t.flt.bus } }

/-- The set is loaded: SETID, the check of R315, and PRECHARGE when the tick number is held (R447). -/
def tableLoaded (s : State) (l : List Nat) (head : Nat → Word) : State :=
  let v := head 3
  let s := modTbl (unflag s (sysR 0x040) 1) fun t =>
    { t with busyTil := none, result := 2, record := 0, setId := head 6, touched := l, loaded := true }
  let s := if fld v 23 16 ≤ sfRev s ∧ sfRev s ≤ fld v 31 24 then s else quarantine (report s 5 .versionUntested (sysR 0x030)) 3
  cellPrecharge s

/-- The load ends (R306, R307). (Log 92 DEDUCED unsafe.) -/
def tableLoad (s : State) : State :=
  match pass1 s with
  | .error e => tableReject s e.1 e.2
  | .ok l =>
    let r := pass2 l s
    let t := r.1
    if t.sys.inReset then t
    else match r.2.2 with
      | some i => tableReject (tableUndo s t r.2.1) 6 i
      | none =>
        let c := tableChecks t
        if c.1 && c.2.1 && c.2.2.1 && c.2.2.2 then tableLoaded t r.2.1 (tblWord s)
        else tableReject (tableFaults c (tableUndo s t r.2.1)) 7 0

def execTableLoadDone (s : State) : Out :=
  .next (live s fun s => if s.sys.tbl.busyTil.isSome then tableLoad s else s)

/-- R306: a write of COMMIT. -/
def execTableCommit (_ : Origin) (s : State) : Out := .next (live s fun s => commitWrite s 1)

end Sys2Proof.Machine
end

