-- ==== Sys2Proof/Machine/Tick.lean ====
section
/-! DEFINITION. The tick application (R20, R58): everything a tick boundary does, in one order, and the check of a
tick program's budget (R27, R298 to R300). -/

namespace Sys2Proof.Machine

open Sys2Proof

/-- A tick core still runs its tick program: it is not suspended in TWAIT, also where it is halted (R285, R298). Before an
image has been started no core has a program. (Log 90 DEDUCED unsafe.) -/
def tickRuns (s : State) (n : Nat) : Bool :=
  let c := coreOf s n
  s.sys.bootOk && rb s (coreCtrl n) 0 && c.st != .off && c.st != .pruned && c.wait != some .tick

def anyTickRuns (s : State) : Bool := isUpper s && (List.range 4).any (tickRuns s)

def tpStat : Nat := sysR 0x024

/-- R300: an overrun, or a tick without one. (Log 90 DEDUCED unsafe.) -/
def overrunTick (s : State) : State :=
  if anyTickRuns s then
    let run := rf s tpStat 23 20 + 1
    let s := flag (countUp (countUp s tpStat 31 24) tpStat 23 20) tpStat 1
    let s := report s 6 .tickOverrun tpStat
    if run = Nat.max 1 (rf s (sysR 0x020) 19 16) then report s 6 .tpStall tpStat else s
  else setRf s tpStat 23 20 0

/-- The cores at a tick application: TICK, and the end of a TWAIT (R282, R284). -/
def coresTick (s : State) : State :=
  let s := raiseEvAll s 0x100
  (List.range 4).foldl (fun s n => modCore s n fun c => if c.wait = some .tick then { c with woken := true } else c) s

/-- A cell becomes READY at a tick snapshot (Table 17-5). -/
def cellReady (s : State) : State :=
  if isCell s && modeOf s == .precharge && s.sup.stage.toNat == 0x3E && decide (rf s (supR 0x014) 15 0 ≤ snapOf s 0) &&
      decide (64 ≤ s.sup.pow.length) && s.tmk.align then
    setMode s .ready
  else s

/-- ALIGN leaves every ACTIVE DOWN port at least once in 1,024 ticks (R500). -/
def alignTick (s : State) : State :=
  (activeDowns s).foldl (fun s p =>
    if 1023 ≤ (portOf s p).alignTick then alignSend s p else modPort s p fun t => { t with alignTick := t.alignTick + 1 }) s

/-- What every applied tick does, in order: snapshots, the ledger, the pair logic, the loop engine, the Riddle, the
cores, Saffron, the modes and the links. -/
def applyTick (s : State) (x : TickIn) : State :=
  let s := svTick (snsLatch s)
  let s := ledgerNewTick (ledger (ledgerMeasure s x.feedMw.toNat))
  let s := rdlTick (lpeTick (pairTick s x.intlIn))
  let s := coresTick (overrunTick s)
  let s := outReturn (firstRise s)
  let s := holdupCheck (cellReady (alignSync s))
  let s := modSys s fun y => { y with cmdDue := true, lateTold := false }
  modCap (alignTick s) fun c => { c with rowN := 0 }

/-- A tick is applied where its condition holds. -/
def tickWhen (t : State → Option State) (x : TickIn) (s : State) : State :=
  match t s with
  | some u => applyTick u x
  | none => s

def execStationTickBoundary (x : TickIn) (s : State) : Out := .next (live s (tickWhen stationTick x))
def execTickApply (x : TickIn) (s : State) : Out := .next (live s (tickWhen symbolTick x))
def execTickExpectedTimeout (x : TickIn) (s : State) : Out := .next (live s (tickWhen missedTick x))

/-- BUDGET as a phase (R299). -/
def budget (s : State) : Nat := Nat.min (rf s (sysR 0x020) 14 0) (periodLt s - 50)

/-- R299: at phase BUDGET a tick core that is not in TWAIT; once in a tick. (Log 90 DEDUCED unsafe.) -/
def budgetCheck (s : State) : State :=
  if s.tmk.ticked && phaseOf s == budget s && anyTickRuns s && !s.sys.lateTold then
    report (flag (modSys s fun y => { y with lateTold := true }) tpStat 2) 6 .tpLate tpStat
  else s

def execTpBudgetCheck (s : State) : Out := .next (live s budgetCheck)

end Sys2Proof.Machine
end

