-- ==== Sys2Proof/Machine/Operands.lean ====
section
/-! DEFINITION. The operand forms of the Zynul instructions (Table 10-2): the completion of an instruction with its
FPSR flags, register and immediate forms, the address of a load or store, and words of the own data scratchpad. -/

namespace Sys2Proof.Machine

open Sys2Proof

/-- An instruction that sets flags is complete; while FPTRAP is 1, NV, DZ or OF takes the FP trap after it (R275). -/
def complete (s : State) (n cyc fl : Nat) : State :=
  if rb s (coreCtrl n) 2 && Nat.land fl 28 != 0 then
    let s := modCore s n fun c => advance c cyc
    trap s n 4 (coreOf s n).pc
  else finish s n cyc

/-- A result with its flags goes to gd. -/
def putRes (s : State) (n gd cyc : Nat) (r : FRes) : State := complete (setF (setG s n gd r.1) n r.2) n cyc r.2

/-- Form F1 with two sources: gd = f ga gb. -/
def regOp (n gd ga gb cyc : Nat) (f : Word → Word → FRes) (s : State) : State :=
  putRes s n gd cyc (f (gOf s n ga) (gOf s n gb))

/-- Form F1 with one source. -/
def unOp (n gd ga cyc : Nat) (f : Word → FRes) (s : State) : State := putRes s n gd cyc (f (gOf s n ga))

/-- Form F1 that also reads gd. -/
def accOp (n gd ga gb cyc : Nat) (f : Word → Word → Word → FRes) (s : State) : State :=
  putRes s n gd cyc (f (gOf s n gd) (gOf s n ga) (gOf s n gb))

/-- A result without flags. -/
def plain (w : Word) : FRes := (w, 0)

/-- imm12, sign-extended and zero-extended. -/
def simm (i : BitVec 12) : Word := i.signExtend 32
def zimm (i : BitVec 12) : Word := i.setWidth 32

/-- The two predicates of a compare (form F6): pd the condition, pc its opposite; an unknown condition is illegal. (Log 85 DEDUCED unsafe.) -/
def setPreds (s : State) (n pd pc cyc : Nat) (r : Option (Bool × Nat)) : State :=
  match r with
  | none => illegal s n
  | some (b, fl) => complete (setF (setP (setP s n pd b) n pc !b) n fl) n cyc fl

/-- The address of a load or store (form F3): base + off, off scaled by the access size. -/
def effAddr (s : State) (n base : Nat) (sz : Size) (off : BitVec 10) : Nat :=
  (gOf s n base + wdI (off.toInt * sz.bytes)).toNat

/-- A target register of a quad: a nonzero multiple of 4 (R271). -/
def quadOk (sz : Size) (gt : Nat) : Bool := sz != .q || (gt != 0 && gt % 4 == 0)

/-- k words of the own data scratchpad from a word-aligned address lie wholly within it. -/
def imageFits (a k : Nat) : Bool := a % 4 == 0 && decide (0x10000000 ≤ a) && decide (a + 4 * k ≤ 0x10040000)

/-- A word of the own data scratchpad. -/
def scrWord (s : State) (n a : Nat) : Word := wd (bytesGet (coreOf s n).dscr a 4)

/-- A read of n bytes of a core's scratchpad from an address checks each of its 128-bit words (R376). (Log 83 DEDUCED safe.) -/
def scrCheck (s : State) (t a len : Nat) : State × Bool :=
  (s.flt.ecc.filter fun e => decide (eccKey t a ≤ e.1) && decide (e.1 ≤ eccKey t (a + len - 1))).foldl
    (fun r e => let u := eccRead r.1 t (e.1 * 16 - t * 2 ^ 32); (u.1, r.2 && u.2)) (s, true)

end Sys2Proof.Machine
end

