-- ==== Sys2Proof/Machine/ZynulInt.lean ====
section
/-! DEFINITION. The integer instructions of the Zynul cores (Table 10-3, R272). -/

namespace Sys2Proof.Machine

open Sys2Proof

def execAdd (n : CoreId) (q : Pred) (gd ga gb : GReg) (s : State) : Out :=
  zynul n.val q s (regOp n.val gd.val ga.val gb.val 1 fun a b => plain (a + b))

def execSub (n : CoreId) (q : Pred) (gd ga gb : GReg) (s : State) : Out :=
  zynul n.val q s (regOp n.val gd.val ga.val gb.val 1 fun a b => plain (a - b))

def execAnd (n : CoreId) (q : Pred) (gd ga gb : GReg) (s : State) : Out :=
  zynul n.val q s (regOp n.val gd.val ga.val gb.val 1 fun a b => plain (a &&& b))

def execOr (n : CoreId) (q : Pred) (gd ga gb : GReg) (s : State) : Out :=
  zynul n.val q s (regOp n.val gd.val ga.val gb.val 1 fun a b => plain (a ||| b))

def execXor (n : CoreId) (q : Pred) (gd ga gb : GReg) (s : State) : Out :=
  zynul n.val q s (regOp n.val gd.val ga.val gb.val 1 fun a b => plain (a ^^^ b))

def execShl (n : CoreId) (q : Pred) (gd ga gb : GReg) (s : State) : Out :=
  zynul n.val q s (regOp n.val gd.val ga.val gb.val 1 fun a b => plain (a <<< (b.toNat % 32)))

def execShr (n : CoreId) (q : Pred) (gd ga gb : GReg) (s : State) : Out :=
  zynul n.val q s (regOp n.val gd.val ga.val gb.val 1 fun a b => plain (a >>> (b.toNat % 32)))

def execSra (n : CoreId) (q : Pred) (gd ga gb : GReg) (s : State) : Out :=
  zynul n.val q s (regOp n.val gd.val ga.val gb.val 1 fun a b => plain (a.sshiftRight (b.toNat % 32)))

/-- Saturating sums set OV when they clamp. -/
def execAdds (n : CoreId) (q : Pred) (gd ga gb : GReg) (s : State) : Out :=
  zynul n.val q s (regOp n.val gd.val ga.val gb.val 1 fun a b => satW (a.toInt + b.toInt))

def execSubs (n : CoreId) (q : Pred) (gd ga gb : GReg) (s : State) : Out :=
  zynul n.val q s (regOp n.val gd.val ga.val gb.val 1 fun a b => satW (a.toInt - b.toInt))

def execMin (n : CoreId) (q : Pred) (gd ga gb : GReg) (s : State) : Out :=
  zynul n.val q s (regOp n.val gd.val ga.val gb.val 1 fun a b => plain (if a.toInt ≤ b.toInt then a else b))

def execMax (n : CoreId) (q : Pred) (gd ga gb : GReg) (s : State) : Out :=
  zynul n.val q s (regOp n.val gd.val ga.val gb.val 1 fun a b => plain (if a.toInt ≤ b.toInt then b else a))

def execMinu (n : CoreId) (q : Pred) (gd ga gb : GReg) (s : State) : Out :=
  zynul n.val q s (regOp n.val gd.val ga.val gb.val 1 fun a b => plain (if a.toNat ≤ b.toNat then a else b))

def execMaxu (n : CoreId) (q : Pred) (gd ga gb : GReg) (s : State) : Out :=
  zynul n.val q s (regOp n.val gd.val ga.val gb.val 1 fun a b => plain (if a.toNat ≤ b.toNat then b else a))

def execMul (n : CoreId) (q : Pred) (gd ga gb : GReg) (s : State) : Out :=
  zynul n.val q s (regOp n.val gd.val ga.val gb.val 2 fun a b => plain (a * b))

def execMulh (n : CoreId) (q : Pred) (gd ga gb : GReg) (s : State) : Out :=
  zynul n.val q s (regOp n.val gd.val ga.val gb.val 2 fun a b => plain (wdI ((a.toInt * b.toInt).fdiv 4294967296)))

def execMulhu (n : CoreId) (q : Pred) (gd ga gb : GReg) (s : State) : Out :=
  zynul n.val q s (regOp n.val gd.val ga.val gb.val 2 fun a b => plain (wd (a.toNat * b.toNat / 4294967296)))

def execMulq15 (n : CoreId) (q : Pred) (gd ga gb : GReg) (s : State) : Out :=
  zynul n.val q s (regOp n.val gd.val ga.val gb.val 2 mulQ15)

def execMulq31 (n : CoreId) (q : Pred) (gd ga gb : GReg) (s : State) : Out :=
  zynul n.val q s (regOp n.val gd.val ga.val gb.val 2 mulQ31)

/-- R272: divisions and remainders. -/
def execDiv (n : CoreId) (q : Pred) (gd ga gb : GReg) (s : State) : Out :=
  zynul n.val q s (regOp n.val gd.val ga.val gb.val 18 divS)

def execDivu (n : CoreId) (q : Pred) (gd ga gb : GReg) (s : State) : Out :=
  zynul n.val q s (regOp n.val gd.val ga.val gb.val 18 divU)

def execRem (n : CoreId) (q : Pred) (gd ga gb : GReg) (s : State) : Out :=
  zynul n.val q s (regOp n.val gd.val ga.val gb.val 18 remS)

def execRemu (n : CoreId) (q : Pred) (gd ga gb : GReg) (s : State) : Out :=
  zynul n.val q s (regOp n.val gd.val ga.val gb.val 18 remU)

def execClz (n : CoreId) (q : Pred) (gd ga : GReg) (s : State) : Out :=
  zynul n.val q s (unOp n.val gd.val ga.val 1 fun a => plain (wd (clzN a)))

/-- The absolute value of -2^31 clamps and sets OV. -/
def execAbs (n : CoreId) (q : Pred) (gd ga : GReg) (s : State) : Out :=
  zynul n.val q s (unOp n.val gd.val ga.val 1 fun a => satW (a.toInt.natAbs : Nat))

def execAddi (n : CoreId) (q : Pred) (gd ga : GReg) (imm : BitVec 12) (s : State) : Out :=
  zynul n.val q s (unOp n.val gd.val ga.val 1 fun a => plain (a + simm imm))

def execAndi (n : CoreId) (q : Pred) (gd ga : GReg) (imm : BitVec 12) (s : State) : Out :=
  zynul n.val q s (unOp n.val gd.val ga.val 1 fun a => plain (a &&& zimm imm))

def execOri (n : CoreId) (q : Pred) (gd ga : GReg) (imm : BitVec 12) (s : State) : Out :=
  zynul n.val q s (unOp n.val gd.val ga.val 1 fun a => plain (a ||| zimm imm))

def execXori (n : CoreId) (q : Pred) (gd ga : GReg) (imm : BitVec 12) (s : State) : Out :=
  zynul n.val q s (unOp n.val gd.val ga.val 1 fun a => plain (a ^^^ zimm imm))

def execShli (n : CoreId) (q : Pred) (gd ga : GReg) (imm : BitVec 5) (s : State) : Out :=
  zynul n.val q s (unOp n.val gd.val ga.val 1 fun a => plain (a <<< imm.toNat))

def execShri (n : CoreId) (q : Pred) (gd ga : GReg) (imm : BitVec 5) (s : State) : Out :=
  zynul n.val q s (unOp n.val gd.val ga.val 1 fun a => plain (a >>> imm.toNat))

def execSrai (n : CoreId) (q : Pred) (gd ga : GReg) (imm : BitVec 5) (s : State) : Out :=
  zynul n.val q s (unOp n.val gd.val ga.val 1 fun a => plain (a.sshiftRight imm.toNat))

def execMovl (n : CoreId) (q : Pred) (gd : GReg) (imm : BitVec 16) (s : State) : Out :=
  zynul n.val q s (unOp n.val gd.val gd.val 1 fun _ => plain (imm.setWidth 32))

/-- MOVH keeps the low half. -/
def execMovh (n : CoreId) (q : Pred) (gd : GReg) (imm : BitVec 16) (s : State) : Out :=
  zynul n.val q s (unOp n.val gd.val gd.val 1 fun d => plain (setFld d 31 16 imm.toNat))

end Sys2Proof.Machine
end

