-- ==== Sys2Proof/Machine/ZynulFp.lean ====
section
/-! DEFINITION. The floating-point, compare and lookup instructions of the Zynul cores (Tables 10-4 and 10-5, R273 to R275, R295). -/

namespace Sys2Proof.Machine

open Sys2Proof

def execFadd (n : CoreId) (q : Pred) (gd ga gb : GReg) (s : State) : Out :=
  zynul n.val q s (regOp n.val gd.val ga.val gb.val 3 fpAdd)

def execFsub (n : CoreId) (q : Pred) (gd ga gb : GReg) (s : State) : Out :=
  zynul n.val q s (regOp n.val gd.val ga.val gb.val 3 fpSub)

def execFmul (n : CoreId) (q : Pred) (gd ga gb : GReg) (s : State) : Out :=
  zynul n.val q s (regOp n.val gd.val ga.val gb.val 3 fpMul)

def execFdiv (n : CoreId) (q : Pred) (gd ga gb : GReg) (s : State) : Out :=
  zynul n.val q s (regOp n.val gd.val ga.val gb.val 14 fpDiv)

def execFmin (n : CoreId) (q : Pred) (gd ga gb : GReg) (s : State) : Out :=
  zynul n.val q s (regOp n.val gd.val ga.val gb.val 1 fpMin)

def execFmax (n : CoreId) (q : Pred) (gd ga gb : GReg) (s : State) : Out :=
  zynul n.val q s (regOp n.val gd.val ga.val gb.val 1 fpMax)

/-- FABS and FNEG change the sign bit only and set no flag. -/
def execFabs (n : CoreId) (q : Pred) (gd ga : GReg) (s : State) : Out :=
  zynul n.val q s (unOp n.val gd.val ga.val 1 fun a => plain (fpAbs a))

def execFneg (n : CoreId) (q : Pred) (gd ga : GReg) (s : State) : Out :=
  zynul n.val q s (unOp n.val gd.val ga.val 1 fun a => plain (fpNeg a))

def execFsqrt (n : CoreId) (q : Pred) (gd ga : GReg) (s : State) : Out :=
  zynul n.val q s (unOp n.val gd.val ga.val 14 fpSqrt)

def execItof (n : CoreId) (q : Pred) (gd ga : GReg) (s : State) : Out :=
  zynul n.val q s (unOp n.val gd.val ga.val 3 fun a => fpOfInt a.toInt)

def execUtof (n : CoreId) (q : Pred) (gd ga : GReg) (s : State) : Out :=
  zynul n.val q s (unOp n.val gd.val ga.val 3 fun a => fpOfInt a.toNat)

/-- R274: conversions to integers, by rounding mode. -/
def execFtoiN (n : CoreId) (q : Pred) (gd ga : GReg) (s : State) : Out :=
  zynul n.val q s (unOp n.val gd.val ga.val 3 (fpToInt .near))

def execFtoiZ (n : CoreId) (q : Pred) (gd ga : GReg) (s : State) : Out :=
  zynul n.val q s (unOp n.val gd.val ga.val 3 (fpToInt .zero))

def execFtoiFl (n : CoreId) (q : Pred) (gd ga : GReg) (s : State) : Out :=
  zynul n.val q s (unOp n.val gd.val ga.val 3 (fpToInt .floor))

def execFtoiCe (n : CoreId) (q : Pred) (gd ga : GReg) (s : State) : Out :=
  zynul n.val q s (unOp n.val gd.val ga.val 3 (fpToInt .ceil))

def execFmac (n : CoreId) (q : Pred) (gd ga gb : GReg) (s : State) : Out :=
  zynul n.val q s (accOp n.val gd.val ga.val gb.val 4 fun d a b => fpFma a b d)

def execFmsc (n : CoreId) (q : Pred) (gd ga gb : GReg) (s : State) : Out :=
  zynul n.val q s (accOp n.val gd.val ga.val gb.val 4 fun d a b => fpFms a b d)

/-- FCMP signals NV as IEEE 754 defines it. -/
def execFcmp (n : CoreId) (q : Pred) (pd pc : PReg) (cond : BitVec 4) (ga gb : GReg) (s : State) : Out :=
  zynul n.val q s fun s => setPreds s n.val pd.val pc.val 2 (fpCond cond.toNat (gOf s n.val ga.val) (gOf s n.val gb.val))

def execCmp (n : CoreId) (q : Pred) (pd pc : PReg) (cond : BitVec 4) (ga gb : GReg) (s : State) : Out :=
  zynul n.val q s fun s =>
    setPreds s n.val pd.val pc.val 1 ((intCond cond.toNat (gOf s n.val ga.val) (gOf s n.val gb.val)).map fun b => (b, 0))

def execCmpi (n : CoreId) (q : Pred) (pd pc : PReg) (cond : BitVec 4) (ga : GReg) (imm : BitVec 7) (s : State) : Out :=
  zynul n.val q s fun s =>
    setPreds s n.val pd.val pc.val 1 ((intCond cond.toNat (gOf s n.val ga.val) (imm.signExtend 32)).map fun b => (b, 0))

def execPlog (n : CoreId) (q : Pred) (pd pc : PReg) (cond : BitVec 4) (pa pb : PReg) (s : State) : Out :=
  zynul n.val q s fun s =>
    let c := coreOf s n.val
    setPreds s n.val pd.val pc.val 1 ((plogCond cond.toNat (pGet c pa.val) (pGet c pb.val)).map fun b => (b, 0))

/-- The lookup of R295 over the table at ga. (Log 87 DEDUCED unsafe.) -/
def lut (s : State) (n gd ga gb : Nat) : State :=
  let a := (gOf s n ga).toNat
  let k := (scrWord s n (a + 8)).toNat
  if !imageFits a 4 || decide (k < 2) || decide (4096 < k) || !imageFits a (4 + k) then trapHere s n 2
  else
    let r := scrCheck s (7 + n) a (16 + 4 * k)
    if r.2 then putRes r.1 n gd 12 (lutEval (scrWord s n a) (scrWord s n (a + 4)) k (fun i => scrWord s n (a + 16 + 4 * i)) (gOf s n gb))
    else trapHere r.1 n 3

def execLut (n : CoreId) (q : Pred) (gd ga gb : GReg) (s : State) : Out :=
  zynul n.val q s fun s => lut s n.val gd.val ga.val gb.val

end Sys2Proof.Machine
end

