-- ==== Sys2Proof/Machine/ZynulMem.lean ====
section
/-! DEFINITION. Loads, stores and AMO of the Zynul cores (Table 10-6, R277 to R281). -/

namespace Sys2Proof.Machine

open Sys2Proof

/-- The regions of Table 10-6. -/
inductive Region where
  | dscr | iscr | sram | cap | periph | mram | flash | none
  deriving DecidableEq, Repr

/-- Log 82 DEDUCED unsafe. (Log 82 DEDUCED unsafe.) -/
def regionOf (a : Nat) : Region :=
  if inIscr a then .iscr else if inDscr a then .dscr else if inSram a then .sram else if inCapRam a then .cap
  else if inPeriph a then .periph else if inMram a then .mram else if inFlash a then .flash else .none

/-- Cycles of an access to the shared SRAM by the slot rule (R278). (Log 79 DEDUCED unsafe.) -/
def slotCycles (c : Core) (n : Nat) : Nat := (4 * n + 15 - c.frame % 16) % 16 + 4

/-- Cycles that the spec gives a range for: 10 to 26 of the capture RAM, 40 and more of a QSPI read that waits. (Log 9 DESIGN CHOICE safe, 84 DESIGN CHOICE safe.) -/
def openCycles (s : State) (lo span : Nat) : State × Nat :=
  ({ s with free := s.free + 1 }, lo + (if span = 0 then Config.accessCycles s.free else Config.accessCycles s.free % span))

/-- Size of a quad doubles nothing but its scratchpad time. -/
def scrCycles (sz : Size) : Nat := if sz = .q then 3 else 2

/-- What a load of k bytes at an address gives, where its word is good, and its cycles. (Log 83 DEDUCED safe, 84 DESIGN CHOICE safe.) -/
def loadAt (s : State) (n a : Nat) (sz : Size) : State × Option Nat × Nat :=
  let k := sz.bytes
  let mem (s : State) (cyc : Nat) : State × Option Nat × Nat :=
    let r := memRead s a k
    (r.1, if r.2.2 then some r.2.1 else none, cyc)
  match regionOf a with
  | .dscr => let r := eccRead s (7 + n) a; (r.1, if r.2 then some (scrGet (coreOf s n) a k) else none, scrCycles sz)
  | .iscr => let r := eccRead s (3 + n) a; (r.1, if r.2 then some (scrGet (coreOf s n) a k) else none, 3)
  | .sram => mem s (slotCycles (coreOf s n) n)
  | .cap => let o := openCycles s 10 17; mem o.1 o.2
  | .periph => if sz = .w then (let r := regBusRead s a; (r.1, some r.2.toNat, 12)) else (accessFault s a, some 0, 12)
  | .mram => mem s 20
  | .flash => if s.sys.qspi.isNone then mem s 40 else (let o := openCycles (qspiDone s) 40 0; mem o.1 o.2)
  | .none => (s, some 0, 0)

/-- A loaded value goes to its target registers; a quad fills four. -/
def loadPut (s : State) (n gt : Nat) (sz : Size) (sgn : Bool) (v : Nat) : State :=
  match sz with
  | .b => setG s n gt (if sgn then wdI (sext 8 v) else wd v)
  | .h => setG s n gt (if sgn then wdI (sext 16 v) else wd v)
  | .w => setG s n gt (wd v)
  | .q => (List.range 4).foldl (fun s i => setG s n (gt + i) (wd (v / 2 ^ (32 * i)))) s

/-- A load (R277). -/
def load (s : State) (n gt base : Nat) (sz : Size) (off : BitVec 10) (sgn : Bool) : State :=
  if !quadOk sz gt then illegal s n
  else
    let a := effAddr s n base sz off
    if a % sz.bytes ≠ 0 ∨ regionOf a = .none then accessTrap (loadPut s n gt sz false 0) n a
    else
      let r := loadAt s n a sz
      match r.2.1 with
      | some v => finish (loadPut r.1 n gt sz sgn v) n r.2.2
      | none => trapHere r.1 n 3

def execLd (n : CoreId) (q : Pred) (gt base : GReg) (sz : Size) (off : BitVec 10) (s : State) : Out :=
  zynul n.val q s fun s => load s n.val gt.val base.val sz off true

/-- LDU takes bytes and half-words only (R271). -/
def execLdu (n : CoreId) (q : Pred) (gt base : GReg) (sz : Size) (off : BitVec 10) (s : State) : Out :=
  zynul n.val q s fun s =>
    if sz = .b ∨ sz = .h then load s n.val gt.val base.val sz off false else illegal s n.val

/-- The value a store writes. -/
def storeVal (s : State) (n gt : Nat) (sz : Size) : Nat :=
  match sz with
  | .q => (List.range 4).foldl (fun v i => v + (gOf s n (gt + i)).toNat * 2 ^ (32 * i)) 0
  | _ => (gOf s n gt).toNat

/-- An instruction is complete, unless what it wrote has put the part in reset. -/
def finishLive (s : State) (n cyc : Nat) : State := if s.sys.inReset then s else finish s n cyc

/-- A store in a region. -/
def storeAt (s : State) (c : CoreId) (a : Nat) (sz : Size) (v : Nat) : State :=
  let n := c.val
  let bs := natLe sz.bytes v
  match regionOf a with
  | .dscr => finish (scrPut s n a bs) n (scrCycles sz)
  | .iscr => trapHere s n 2
  | .sram => let k := slotCycles (coreOf s n) n; finish (memWrite s a bs) n k
  | .cap => let o := openCycles s 10 17; finish (memWrite o.1 a bs) n o.2
  | .periph => finishLive (if sz = .w then regBusWrite s (.core c) a (wd v) else accessFault s a) n 8
  | .mram => finish (memWrite s a bs) n 60
  | .flash => finish (accessFault s a) n 8
  | .none => accessTrap s n a

/-- A store (R277). -/
def store (s : State) (c : CoreId) (gt base : Nat) (sz : Size) (off : BitVec 10) : State :=
  if !quadOk sz gt then illegal s c.val
  else
    let a := effAddr s c.val base sz off
    if a % sz.bytes ≠ 0 then accessTrap s c.val a else storeAt s c a sz (storeVal s c.val gt sz)

def execSt (n : CoreId) (q : Pred) (gt base : GReg) (sz : Size) (off : BitVec 10) (s : State) : Out :=
  zynul n.val q s fun s => store s n gt.val base.val sz off

/-- AMO on a word of the shared SRAM (R280): gd takes the old value. -/
def amo (s : State) (n gd ga gb : Nat) (f : Word → Word → Word) : State :=
  let a := (gOf s n ga).toNat
  if a % 4 ≠ 0 ∨ regionOf a = .none then accessTrap s n a
  else if !inSram a then trapHere s n 2
  else
    let r := memRead s a 4
    if r.2.2 then
      let v := wd r.2.1
      let k := slotCycles (coreOf s n) n
      finish (setG (memWrite r.1 a (natLe 4 (f v (gOf s n gb)).toNat)) n gd v) n k
    else trapHere r.1 n 3

def execAmoSwap (n : CoreId) (q : Pred) (gd ga gb : GReg) (s : State) : Out :=
  zynul n.val q s fun s => amo s n.val gd.val ga.val gb.val fun _ b => b

def execAmoAdd (n : CoreId) (q : Pred) (gd ga gb : GReg) (s : State) : Out :=
  zynul n.val q s fun s => amo s n.val gd.val ga.val gb.val fun v b => v + b

end Sys2Proof.Machine
end

