-- ==== Sys2Proof/Machine/ZynulCtl.lean ====
section
/-! DEFINITION. Branches, LOOP, waiting, traps and control registers of the Zynul cores (Tables 10-1 and 10-5, R276, R279, R282 to R287). -/

namespace Sys2Proof.Machine

open Sys2Proof

/-- The target of a branch: 4 * off from the instruction's own address. -/
def relTarget (s : State) (n : Nat) (off : BitVec 22) : Word := (coreOf s n).pc + wdI (4 * off.toInt)

def execBr (n : CoreId) (q : Pred) (off : BitVec 22) (s : State) : Out :=
  zynul n.val q s fun s => finishAt s n.val 2 (relTarget s n.val off)

def execCall (n : CoreId) (q : Pred) (off : BitVec 22) (s : State) : Out :=
  zynul n.val q s fun s => finishAt (setG s n.val 31 ((coreOf s n.val).pc + 4)) n.val 2 (relTarget s n.val off)

/-- A register jump with its link: a target that is no multiple of 4 takes the ACCESS trap. -/
def jump (s : State) (n gd : Nat) (t : Word) : State :=
  if t.toNat % 4 ≠ 0 then trapHere s n 2 else finishAt (setG s n gd ((coreOf s n).pc + 4)) n 3 t

def execJr (n : CoreId) (q : Pred) (ga : GReg) (imm : BitVec 12) (s : State) : Out :=
  zynul n.val q s fun s => jump s n.val 0 (gOf s n.val ga.val + simm imm)

def execJalr (n : CoreId) (q : Pred) (gd ga : GReg) (imm : BitVec 12) (s : State) : Out :=
  zynul n.val q s fun s => jump s n.val gd.val (gOf s n.val ga.val + simm imm)

/-- LOOP (R276). -/
def loopBegin (s : State) (n ga : Nat) (imm : BitVec 12) : State :=
  let c := coreOf s n
  let cnt := gGet c ga
  let last := c.pc + wd (4 * imm.toNat)
  if imm = 0 ∨ inLoop c c.pc = true then illegal s n
  else if cnt = 0 then
    modCore s n fun c => stepEnd { spend c 1 with loopCnt := 0, loopEnd := last, pc := last + 4 }
  else modCore s n fun c => stepEnd { spend c 1 with loopCnt := cnt, loopEnd := last, loopTop := c.pc + 4, pc := c.pc + 4 }

def execLoop (n : CoreId) (q : Pred) (ga : GReg) (imm : BitVec 12) (s : State) : Out :=
  zynul n.val q s fun s => loopBegin s n.val ga.val imm

/-- R284: TWAIT clears TICK and suspends the core. -/
def execTwait (n : CoreId) (q : Pred) (s : State) : Out :=
  zynul n.val q s fun s => modCore s n.val fun c =>
    { evClear c 0x100 with st := .waiting, wait := some .tick, woken := false }

/-- R284: a TWAIT completes 3 cycles after the tick application, and TICK is cleared again. -/
def execTwaitWake (n : CoreId) (s : State) : Out :=
  .next (live s fun s =>
    let c := coreOf s n.val
    if c.st = .waiting ∧ c.wait = some .tick ∧ c.woken = true then
      finish (modCore s n.val fun c => { c with ev := setBit c.ev 8 false, st := .running, wait := none, woken := false }) n.val 3
    else s)

/-- EVFLAGS: RXQ is also set while the receive queue holds a packet (Table 10-7). (Log 87 DEDUCED unsafe.) -/
def evNow (c : Core) : Word := if c.rxq.isEmpty then c.ev else setBit c.ev 9 true

/-- A WAIT whose condition holds (R283): the flags go to gd and are cleared. A WAIT that they end clears those that
ended it, also in their own cycle (Table 10-9). -/
def waitDone (s : State) (n gd : Nat) (mask : Word) (ended : Bool) : State :=
  let v := evNow (coreOf s n) &&& mask
  finish (setG (modCore s n fun c =>
    { (if ended then { c with ev := c.ev &&& ~~~ v } else evClear c v) with st := .running, wait := none }) n gd v) n 3

/-- WAIT (R283); with a mask of 0 it is illegal. -/
def execWait (n : CoreId) (q : Pred) (gd ga : GReg) (s : State) : Out :=
  zynul n.val q s fun s =>
    let m := gOf s n.val ga.val
    if m = 0 then illegal s n.val
    else if evNow (coreOf s n.val) &&& m ≠ 0 then waitDone s n.val gd.val m false
    else modCore s n.val fun c => { c with st := .waiting, wait := some (.flags gd m) }

/-- R283: the condition of a WAIT is met. -/
def execWaitWake (n : CoreId) (s : State) : Out :=
  .next (live s fun s =>
    let c := coreOf s n.val
    match c.wait with
    | some (.flags gd m) => if c.st = .waiting ∧ evNow c &&& m ≠ 0 then waitDone s n.val gd.val m true else s
    | _ => s)

/-- RTE (R287). -/
def execRte (n : CoreId) (q : Pred) (s : State) : Out :=
  zynul n.val q s fun s => modCore s n.val fun c => stepEnd { spend c 3 with pc := c.epc, ie := c.pie, exl := false }

/-- SYNCSLOT (R279): up to the cycle before the core's next slot start that lies at least 2 cycles ahead. -/
def syncCycles (c : Core) (n : Nat) : Nat := (4 * n + 30 - c.frame % 16) % 16 + 1

def execSyncslot (n : CoreId) (q : Pred) (s : State) : Out :=
  zynul n.val q s fun s => finish s n.val (syncCycles (coreOf s n.val) n.val)

/-- SIG (R286). -/
def execSig (n : CoreId) (q : Pred) (ga : GReg) (s : State) : Out :=
  zynul n.val q s fun s =>
    let t := (gOf s n.val ga.val).toNat % 4
    finish (modCore s t fun c => { c with ev := setBit c.ev (16 + n.val) true, evNew := setBit c.evNew (16 + n.val) true }) n.val 1

/-- SYS HALT: the core halts behind the instruction. -/
def execHalt (n : CoreId) (q : Pred) (s : State) : Out :=
  zynul n.val q s fun s => modCore (finish s n.val 1) n.val fun c => { c with st := .halted, stepOne := false }

/-- A control register as MFC reads it (Table 10-1). -/
def crGet (s : State) (n cr : Nat) : Word :=
  let c := coreOf s n
  match cr with
  | 0 => c.cycle
  | 1 => wd (phaseOf s)
  | 2 => wd n
  | 3 => wd (b2n c.pie * 4 + b2n c.exl * 2 + b2n c.ie)
  | 4 => c.epc
  | 5 => wd (b2n c.nested * 16 + c.cause % 16)
  | 6 => evNow c
  | 7 => c.fpsr.setWidth 32
  | 8 => c.loopCnt
  | 9 => c.loopEnd
  | _ => wd (c.frame % 16)

/-- A control register as MTC writes it; a read-only one keeps its value. (Log 80 DEDUCED unsafe.) -/
def crPut (c : Core) (cr : Nat) (v : Word) : Core :=
  match cr with
  | 3 => { c with ie := bitOf v 0, exl := bitOf v 1, pie := bitOf v 2 }
  | 4 => { c with epc := v }
  | 6 => evClear c v
  | 7 => { c with fpsr := c.fpsr &&& ~~~ (v.setWidth 8) }
  | 8 => { c with loopCnt := v }
  | 9 => { c with loopEnd := v }
  | _ => c

def execMfc (n : CoreId) (q : Pred) (gd : GReg) (cr : BitVec 12) (s : State) : Out :=
  zynul n.val q s fun s =>
    if 10 < cr.toNat then illegal s n.val else finish (setG s n.val gd.val (crGet s n.val cr.toNat)) n.val 2

def execMtc (n : CoreId) (q : Pred) (ga : GReg) (cr : BitVec 12) (s : State) : Out :=
  zynul n.val q s fun s =>
    if 10 < cr.toNat then illegal s n.val
    else finish (modCore s n.val fun c => crPut c cr.toNat (gGet c ga.val)) n.val 2

end Sys2Proof.Machine
end

