-- ==== Sys2Proof/Machine/ZynulFab.lean ====
section
/-! DEFINITION. Fabric send and receive of the Zynul cores (R292 to R294). -/

namespace Sys2Proof.Machine

open Sys2Proof

/-- The packet of an image, with SRC as the router sets it (R292), and the SEQ of a TICK_REPORT or REFERENCE as the sender
does (R304). -/
def imagePacket (s : State) (n a : Nat) : Packet :=
  let hi := scrWord s n a
  let lo := scrWord s n (a + 4)
  { dest := BitVec.ofNat 20 (fld hi 31 12), src := BitVec.ofNat 20 ((nodeId s).toNat * 64), typ := BitVec.ofNat 6 (fld lo 23 18)
    cls := BitVec.ofNat 2 (fld lo 17 16)
    seq := if fld lo 23 18 = 0x18 ∨ fld lo 23 18 = 0x19 then BitVec.ofNat 8 s.tmk.tick.toNat else BitVec.ofNat 8 (fld lo 7 0)
    payload := (List.range (fld lo 15 8)).map fun i => scrWord s n (a + 8 + 4 * i) }

/-- LEN of the image at an address. -/
def imageLen (s : State) (n a : Nat) : Nat := fld (scrWord s n (a + 4)) 15 8

/-- Requests of the cores that the router tracks. -/
def coreReqs (s : State) : Nat := (s.trr.reqs.filter fun r => r.ep == 0).length

/-- The status of FSEND (R292). (Log 86 DEDUCED unsafe.) -/
def fsendStatus (s : State) (n a : Nat) : Nat :=
  let pk := imagePacket s n a
  if !imageFits a 2 || decide (64 < imageLen s n a) || ((pk.typ == 0x18 || pk.typ == 0x19) && pk.payload.isEmpty) || !imageFits a (2 + imageLen s n a) then 4
  else if !typeClassOk pk.typ.toNat pk.cls.toNat || [0x10, 0x11, 0x12, 0x0D, 0x0E].contains pk.typ.toNat then 2
  else if isRequest pk && pk.seq.toNat / 64 != n then 3
  else if decide (4 ≤ (coreOf s n).txq.length) || (isRequest pk && decide (64 ≤ coreReqs s)) then 1
  else 0

/-- Cycles of a packet image. -/
def imageCycles (len : Nat) : Nat := 2 + divUp (8 + 4 * len) 16

/-- FSEND (R292): a queued request is tracked from then on (R136). -/
def fsend (s : State) (c : CoreId) (gd ga : Nat) : State :=
  let n := c.val
  let a := (gOf s n ga).toNat
  let st := fsendStatus s n a
  if st = 4 then finish (setG s n gd 4) n 2
  else
    let r := scrCheck s (7 + n) a (8 + 4 * imageLen s n a)
    if !r.2 then trapHere r.1 n 3
    else if st ≠ 0 then finish (setG r.1 n gd (wd st)) n 2
    else
      let pk := imagePacket s n a
      let s := modCore r.1 n fun c => { c with txq := c.txq ++ [pk] }
      let s := if isRequest pk then
          modTrr s fun t => { t with reqs := t.reqs ++ [{ ep := 0, core := c, seq := pk.seq, cls := pk.cls, sent := now s, dest := pk.dest }] }
        else s
      finish (setG s n gd 0) n (imageCycles pk.len)

def execFsend (n : CoreId) (q : Pred) (gd ga : GReg) (s : State) : Out :=
  zynul n.val q s fun s => fsend s n gd.val ga.val

/-- FRECV (R294). -/
def frecv (s : State) (n gd ga : Nat) : State :=
  let a := (gOf s n ga).toNat
  match (coreOf s n).rxq with
  | [] => finish (setG s n gd 0) n 2
  | pk :: rest =>
    if !imageFits a (2 + pk.len) then trapHere s n 2
    else
      let ws := headerHi pk :: headerLo pk :: pk.payload
      let s := (List.zip (List.range ws.length) ws).foldl (fun s e => scrPut s n (a + 4 * e.1) (natLe 4 e.2.toNat)) s
      let s := modCore s n fun c => { c with rxq := rest }
      finish (setG s n gd (wd (2 + pk.len))) n (imageCycles pk.len)

def execFrecv (n : CoreId) (q : Pred) (gd ga : GReg) (s : State) : Out :=
  zynul n.val q s fun s => frecv s n.val gd.val ga.val

end Sys2Proof.Machine
end

