-- ==== Sys2Proof/Machine/Deliver.lean ====
section
/-! DEFINITION. What a packet does at the node it is for: requests and their endpoint ranges (R113, Table 4-2),
completions and their timeout (R136, R293), the functions of the packet types, routing, and the host protocol's
commands (R334). -/

namespace Sys2Proof.Machine

open Sys2Proof

/-- SNS registers by endpoint index (Table 4-2). (Log 21 DEDUCED safe.) -/
def snsReach (ep off : Nat) : Bool :=
  if ep ≤ 16 then
    (decide (0x100 + 0x10 * (ep - 9) ≤ off) && decide (off < 0x110 + 0x10 * (ep - 9))) ||
      (ep == 9 && (decide (off < 0x100) || (decide (0x180 ≤ off) && decide (off < 0x210)) || (decide (0x500 ≤ off) && decide (off < 0x600))))
  else
    (decide (0x400 + 0x10 * (ep - 17) ≤ off) && decide (off < 0x410 + 0x10 * (ep - 17))) ||
      (ep == 17 && decide (0x300 ≤ off) && decide (off < 0x400))

/-- LPE registers by endpoint index (Table 4-2). (Log 21 DEDUCED safe.) -/
def lpeReach (ep off : Nat) : Bool :=
  if ep ≤ 35 then
    let i := ep - 32
    (decide (0x100 + 0x80 * i ≤ off) && decide (off < 0x180 + 0x80 * i)) ||
      (decide (0x3000 + 0x100 * i ≤ off) && decide (off < 0x3100 + 0x100 * i)) ||
      (decide (0x8000 + 0x2000 * i ≤ off) && decide (off < 0xA000 + 0x2000 * i)) ||
      (ep == 32 && (decide (off < 0x100) || (decide (0x600 ≤ off) && decide (off < 0x800))))
  else
    let c := ep - 36
    (decide (0x400 + 0x20 * c ≤ off) && decide (off < 0x420 + 0x20 * c)) ||
      (ep == 36 && ((decide (0x580 ≤ off) && decide (off < 0x600)) || (decide (0x2000 ≤ off) && decide (off < 0x3000))))

/-- The local addresses an endpoint index reaches (Table 4-2). (Log 20 DEDUCED unsafe, 21 DEDUCED safe.) -/
def epReach (s : State) (ep a : Nat) : Bool :=
  let p := inPeriph a
  let b := blockOf a
  let off := (a - 0x40000000) % 0x10000
  if ep = 0 then (if isCell s then p && decide (b ≤ 4) else p || inSram a || inCapRam a || inMram a || inFlash a)
  else if ep ≤ 8 then
    isCell s && p && b == 5 && (decide (off < 0x100) || (decide (0xF0 + 0x10 * ep ≤ off) && decide (off < 0x100 + 0x10 * ep)))
  else if ep ≤ 24 then p && b == 6 && snsReach ep off
  else if ep ≤ 31 then p && b == 12
  else if ep ≤ 47 then p && b == 7 && lpeReach ep off
  else if ep ≤ 55 then (p && b == 9) || inCapRam a
  else p && (b == 10 || b == 11)

/-- The addresses of a request. -/
def reqAddrs (pk : Packet) : List Nat :=
  let a := (pk.payload.getD 0 0).toNat
  let n := if pk.typ = 1 then pk.len - 1 else (pk.payload.getD 1 0).toNat
  if (pk.typ = 2 ∧ pk.len ≠ 2) ∨ 63 < n then [] else (List.range n).map fun k => a + 4 * k

/-- A request is refused (R113): no effect, an access fault at the first address out of range. -/
def reqBad (s : State) (pk : Packet) : Option Nat :=
  match reqAddrs pk with
  | [] => some (pk.payload.getD 0 0).toNat
  | l => l.find? fun a => !epReach s (epOf pk.dest) a

/-- A completion reaches the requester (R136, R293, R334): the core of SEQ[7:6], the XHP engine, or the walker; one that is not
awaited is dropped. (Log 50 DEDUCED unsafe.) -/
def complIn (s : State) (pk : Packet) : State :=
  if epOf pk.dest = 0 then
    let r := untrack s 0 pk.seq
    if r.2 then coreRx r.1 (pk.seq.toNat / 64) pk else s
  else if epOf pk.dest = 1 then
    let r := untrack s 1 pk.seq
    match r.2, s.stp.xfly.find? fun e => e.1 == pk.seq with
    | true, some e =>
      let s := modStp r.1 fun t => { t with xfly := t.xfly.filter fun x => x.1 != pk.seq }
      if pk.typ = 5 then xhpReply s e.2 (fld (pk.payload.getD 0 0) 15 0) [] else xhpReply s e.2 0 pk.payload
    | _, _ => r.1
  else if epOf pk.dest = 2 then (untrack s 2 pk.seq).1
  else s

/-- A completion of this node goes to where its request came from. -/
def reply (s : State) (pk : Packet) (typ : Nat) (pay : List Word) : State :=
  let c := { ownPacket s pk.src 0 typ pk.cls.toNat pk.seq pay with src := pk.dest }
  if isOwn s c.dest then complIn s c else emit s c

/-- A request at its endpoint (R113). (Log 19 DESIGN CHOICE unsafe.) -/
def requestIn (s : State) (pk : Packet) : State :=
  match reqBad s pk with
  | some a => reply (accessFault s a) pk 0x05 [1]
  | none =>
    let a := (pk.payload.getD 0 0).toNat
    if pk.typ = 1 then
      let t := busWrites (.fabric pk.src) (pk.payload.drop 1) s a
      if t.sys.inReset then t else reply t pk 0x03 []
    else
      let r := busReads true (pk.payload.getD 1 0).toNat s a
      reply r.1 pk 0x04 r.2

/-- What a RENUMBER packet announces. -/
def annOf (ws : List Word) : Announce :=
  let k := BitVec.ofNat 40 ((ws.getD 1 0).toNat * 2 ^ 32 + (ws.getD 2 0).toNat)
  if fld (ws.getD 0 0) 31 24 = 1 then .renumber k (BitVec.ofNat 40 ((ws.getD 3 0).toNat * 2 ^ 32 + (ws.getD 4 0).toNat))
  else .period (BitVec.ofNat 8 (ws.getD 0 0).toNat) k

/-- Credit of a CREDIT packet (R135). (Log 44 DESIGN CHOICE unsafe.) -/
def creditIn (s : State) (p : Nat) (ws : List Word) : State :=
  modPort s p fun t =>
    { t with crC2 := t.crC2 + fld (ws.getD 0 0) 15 0, crC3d := t.crC3d + fld (ws.getD 1 0) 31 16, crC3m := t.crC3m + fld (ws.getD 1 0) 15 0 }

/-- A packet whose function needs the port it arrived on: link-local packets, the Riddle's and the tick's. -/
def portIn (s : State) (p : Nat) (pk : Packet) : State :=
  match pk.typ.toNat with
  | 0x08 => probeAnswer s p
  | 0x0A => assignIn s p pk
  | 0x0D => creditIn s p pk.payload
  | 0x0E =>
    if selPort s == some p then alignSync (modTmk s fun t => { t with path := bitOf (pk.payload.getD 0 0) 0 }) else s
  | 0x10 => rakeIn s p pk .good
  | 0x11 => binsIn s p pk
  | 0x12 => descentIn s p pk
  | 0x1A => alignSync (announceIn s p (annOf pk.payload))
  | 0x1B => ticknoAnswer s p
  | _ => s

/-- A packet for this node, by its TYPE (Table 4-4, Table 4-2, R293). -/
def deliver (s : State) (src : Option Nat) (pk : Packet) : State :=
  let ep := epOf pk.dest
  match pk.typ.toNat with
  | 0x01 => requestIn s pk
  | 0x02 => requestIn s pk
  | 0x03 => complIn s pk
  | 0x04 => complIn s pk
  | 0x05 => complIn s pk
  | 0x09 => identIn s pk
  | 0x0B => if ep = 0 then probeVia s pk else toCore s pk
  | 0x0C => if ep ≠ 0 then toCore s pk else if pk.len = 1 then delegateReturn s pk.src (fld (pk.payload.getD 0 0) 13 0) else delegateIn s pk
  | 0x13 => if isCell s then (if ep = 0 then insertIn s pk else s) else toCore s pk
  | 0x18 => toCore s pk
  | 0x19 => if ep = 32 then referenceIn s pk else toCore s pk
  | 0x20 => if 48 ≤ ep ∧ ep ≤ 55 ∧ relays s = true then streamIn s pk else toCore s pk
  | 0x21 => if 56 ≤ ep then eventIn s pk else toCore s pk
  | _ => match src with
    | some p => portIn s p pk
    | none => s

/-- Types that go one hop, whatever their DEST. (Log 56 DESIGN CHOICE unsafe.) -/
def oneHop (pk : Packet) : Bool := hopType pk.typ.toNat

/-- The partner's one-hop packets: mirrors, words for SYS_PAIR_CMD and state images (R423, R433, R434). -/
def partnerIn (s : State) (p : Nat) (pk : Packet) : State :=
  if isMirror pk then mirrorIn s pk
  else if pk.typ = 1 then
    (if pk.payload.getD 0 0 = wd pairStat then imagePacketIn s (pk.payload.drop 1)
     else if pk.payload.getD 0 0 = wd pairCmd then pairCmdWrite s (.fabric pk.src) (pk.payload.getD 1 0)
     else deliver s (some p) pk)
  else deliver s (some p) pk

/-- A packet of the partner that goes one hop: DEST 0, or a mirrored copy. (Log 56 DESIGN CHOICE unsafe.) -/
def fromPartner (s : State) (src : Option Nat) (pk : Packet) : Bool :=
  src.any fun p => dirOf s p == 4 && (pk.dest == 0 || (!isOwn s pk.dest && isCopy s p pk))

/-- A link-local packet tells the node at the far end of its link (R120). -/
def peerLearn (s : State) (src : Option Nat) (pk : Packet) : State :=
  match src with
  | some p => if [0x08, 0x09, 0x0A, 0x0D, 0x0E].contains pk.typ.toNat then modPort s p fun t => { t with peerId := some (BitVec.ofNat 14 (nodeOf pk.src)) } else s
  | none => s

/-- A packet is taken at this node (R112, R120). -/
def isMine (s : State) (src : Option Nat) (pk : Packet) : Bool := isOwn s pk.dest || oneHop pk || fromPartner s src pk

/-- A packet arrives whole, damaged, aborted or cut off by the loss of its link (R112, R119, R122 to R125, R135). (Log 48 DEDUCED safe, 49 DEDUCED unsafe.) -/
def receive (s : State) (src : Option Nat) (pk : Packet) (arr : Arrival) : State :=
  if arr ≠ .linkLost && !(src.all (isActive s)) then s
  else
    let s := match src with
      | some p => if isActive s p then creditBack s p pk else s
      | none => s
    if arr = .good then
      if !packetOk pk then report s 96 .badType (trrR 0x030)
      else
        let s := peerLearn s src pk
        if fromPartner s src pk then partnerIn s (src.getD 0) pk
        else if isMine s src pk then deliver s src pk
        else forward (whenB (src.any fun p => dirOf s p == 4) (passMark · pk) s) src pk arr
    else
      let s := countAbort s
      let s := if arr = .badCrc then report s 96 .fabCrc (trrR 0x030) else s
      if isMine s src pk then (if pk.typ = 0x10 then (match src with | some p => rakeIn s p pk arr | none => s) else s)
      else forward s src pk arr

def execPacketRoute (src : Option Port) (pk : Packet) (arr : Arrival) (s : State) : Out :=
  .next (live s fun s => receive s (src.map (·.val)) pk arr)

/-- R112: a packet of this node; any other is not accepted here. -/
def execPacketAcceptLocal (src : Option Port) (pk : Packet) (arr : Arrival) (s : State) : Out :=
  .next (live s fun s => if isMine s (src.map (·.val)) pk then receive s (src.map (·.val)) pk arr else s)

def execWrReqRx (pk : Packet) (s : State) : Out := .next (live s fun s => ownIn s [0x01] pk fun s => requestIn s pk)
def execRdReqRx (pk : Packet) (s : State) : Out := .next (live s fun s => ownIn s [0x02] pk fun s => requestIn s pk)
def execWrCplRx (pk : Packet) (s : State) : Out := .next (live s fun s => ownIn s [0x03] pk fun s => complIn s pk)
def execRdCplRx (pk : Packet) (s : State) : Out := .next (live s fun s => ownIn s [0x04] pk fun s => complIn s pk)
def execErrCplRx (pk : Packet) (s : State) : Out := .next (live s fun s => ownIn s [0x05] pk fun s => complIn s pk)
/-- R301: a whole REFERENCE for endpoint index 32. -/
def execReferenceRx (pk : Packet) (s : State) : Out :=
  .next (live s fun s => ownIn s [0x19] pk fun s => if epOf pk.dest = 32 then referenceIn s pk else s)
def execTickReportRx (pk : Packet) (s : State) : Out := .next (live s fun s => ownIn s [0x18] pk fun s => toCore s pk)

/-- R362: an EVENT for endpoint indices 56 to 63. -/
def execEventRx (pk : Packet) (s : State) : Out :=
  .next (live s fun s => ownIn s [0x21] pk fun s => if 56 ≤ epOf pk.dest then eventIn s pk else s)

/-- R305: words for SYS_TBL_BUF. -/
def execTblBufWrite (pk : Packet) (s : State) : Out :=
  .next (live s fun s => ownIn s [0x01] pk fun s =>
    if 0x40008000 ≤ (pk.payload.getD 0 0).toNat ∧ (pk.payload.getD 0 0).toNat < 0x40010000 then requestIn s pk else s)

/-- An ERR_CPL of this node's own router for a tracked request. -/
def ownErr (s : State) (r : Req) (status : Nat) : Packet :=
  { ownPacket s (BitVec.ofNat 20 ((nodeId s).toNat * 64 + r.ep.val)) 0 0x05 r.cls.toNat r.seq [wd status] with src := r.dest }

/-- R136: a tracked request whose time is over is answered with TIMEOUT. -/
def execCplTimeout (ep : Fin 3) (seq : BitVec 8) (s : State) : Out :=
  .next (live s fun s =>
    match s.trr.reqs.find? fun r => r.ep == ep && r.seq == seq with
    | some r => if r.sent + cplTimeout s ≤ now s then complIn s (ownErr s r 3) else s
    | none => s)

/-- A packet of a function of this node starts on its way: taken locally, or routed; a request without a route is
answered at once (R123, R125). -/
def launch (s : State) (pk : Packet) : State :=
  if isOwn s pk.dest then deliver s none pk
  else if pk.typ = 0x18 ∨ pk.typ = 0x19 then pairSend s pk
  else
    let r := sendPacket s pk
    if r.2 then r.1
    else
      match (if isRequest pk then r.1.trr.reqs.find? fun q => q.ep.val == epOf pk.src && q.seq == pk.seq else none) with
      | some q => complIn r.1 (ownErr r.1 q 2)
      | none => r.1

/-- The waiting packets of the cores reach the router, oldest first, core by core (R292). -/
def drainCores (s : State) : State :=
  (List.range 4).foldl (fun s n =>
    let l := (coreOf s n).txq
    l.foldl launch (modCore s n fun c => { c with txq := [] })) s

def execPacketTxStart (p : Port) (s : State) : Out :=
  .next (live s fun s =>
    let t := drainCores s
    if t.sys.inReset then t else txStart t p)

/-- The command at the head of the XHP queue, where it has the operation. (Log 101 DEDUCED unsafe.) -/
def xHead (s : State) (op : Nat) : Option (XCmd × State) :=
  match s.stp.xq with
  | c :: r => if c.op = op then some (c, modStp s fun t => { t with xq := r }) else none
  | [] => none

/-- READ, WRITE and ECHO (Table 12-6). -/
def execXhpRead (s : State) : Out :=
  .next (live s fun s =>
    match xHead s 1 with
    | some (c, t) =>
      let r := busReads false (c.data.getD 1 0).toNat t (c.data.getD 0 0).toNat
      xhpReply r.1 c 0 r.2
    | none => s)

def execXhpWrite (s : State) : Out :=
  .next (live s fun s =>
    match xHead s 2 with
    | some (c, t) =>
      let t := busWrites .xhp (c.data.drop 1) t (c.data.getD 0 0).toNat
      if t.sys.inReset then t else xhpReply t c 0 []
    | none => s)

def execXhpEcho (s : State) : Out :=
  .next (live s fun s =>
    match xHead s 7 with
    | some (c, t) => xhpReply t c 0 c.data
    | none => s)

/-- The node of a FREAD or FWRITE. -/
def xNode (c : XCmd) : Nat := fld (c.data.getD 0 0) 19 6

/-- A FREAD or FWRITE may be issued: fewer than 16 are outstanding, none for its node (R334). (Log 101 DEDUCED unsafe.) -/
def xMay (s : State) (c : XCmd) : Bool := decide (s.stp.xfly.length < 16) && s.stp.xfly.all fun e => xNode e.2 != xNode c

/-- A FREAD or FWRITE becomes a fabric request of the XHP engine (R334). -/
def xIssue (s : State) (op typ : Nat) : State :=
  match xHead s op with
  | some (c, t) =>
    if !xMay s c then s
    else
      let q := t.stp.xseq
      let pk := ownPacket t (BitVec.ofNat 20 (fld (c.data.getD 0 0) 19 0)) 1 typ 3 q (c.data.drop 1)
      let t := modStp t fun x => { x with xseq := q + 1, xfly := x.xfly ++ [(q, c)] }
      launch (modTrr t fun r => { r with reqs := r.reqs ++ [{ ep := 1, core := 0, seq := q, cls := 3, sent := now t, dest := pk.dest }] }) pk
  | none => s

def execXhpFread (s : State) : Out := .next (live s fun s => xIssue s 3 0x02)
def execXhpFwrite (s : State) : Out := .next (live s fun s => xIssue s 4 0x01)

end Sys2Proof.Machine
end

