-- ==== Sys2Proof/Machine/Dispatch.lean ====
section
/-! DEFINITION. The effect of each command: one arm per constructor. -/

namespace Sys2Proof.Machine

open Sys2Proof

def exec (i : Instr) (s : State) : Host.Outcome State Fault Refusal :=
  match i with
  | .powerOnReset => Sys2Proof.Machine.execPowerOnReset s
  | .resetRelease straps testmode => Sys2Proof.Machine.execResetRelease straps testmode s
  | .rstNLow => Sys2Proof.Machine.execRstNLow s
  | .chipReset c => Sys2Proof.Machine.execChipReset c s
  | .feedValid f span mvA mvB => Sys2Proof.Machine.execFeedValid f span mvA mvB s
  | .feedLoss f span mvA mvB => Sys2Proof.Machine.execFeedLoss f span mvA mvB s
  | .registerWrite o sz addr val => Sys2Proof.Machine.execRegisterWrite o sz addr val s
  | .timeLowWordRead o addr => Sys2Proof.Machine.execTimeLowWordRead o addr s
  | .modeCmdPrecharge o => Sys2Proof.Machine.execModeCmdPrecharge o s
  | .modeCmdReady o => Sys2Proof.Machine.execModeCmdReady o s
  | .modeCmdRun o => Sys2Proof.Machine.execModeCmdRun o s
  | .modeCmdSafe o => Sys2Proof.Machine.execModeCmdSafe o s
  | .modeCmdChipReset o => Sys2Proof.Machine.execModeCmdChipReset o s
  | .modeCmdTakeEffect => Sys2Proof.Machine.execModeCmdTakeEffect s
  | .degradedTimerExpiry => Sys2Proof.Machine.execDegradedTimerExpiry s
  | .blockResetRelease b => Sys2Proof.Machine.execBlockResetRelease b s
  | .stationTickBoundary x => Sys2Proof.Machine.execStationTickBoundary x s
  | .tickSymbolLaunch => Sys2Proof.Machine.execTickSymbolLaunch s
  | .tickSymbolRx p tt dly at_ps => Sys2Proof.Machine.execTickSymbolRx p tt dly at_ps s
  | .tickApply x => Sys2Proof.Machine.execTickApply x s
  | .tickExpectedTimeout x => Sys2Proof.Machine.execTickExpectedTimeout x s
  | .tickIdleWake => Sys2Proof.Machine.execTickIdleWake s
  | .tickPeriodWrite o val => Sys2Proof.Machine.execTickPeriodWrite o val s
  | .renumberRx p ann => Sys2Proof.Machine.execRenumberRx p ann s
  | .periodBoundary => Sys2Proof.Machine.execPeriodBoundary s
  | .renumberBoundary => Sys2Proof.Machine.execRenumberBoundary s
  | .ticknoReqRx p => Sys2Proof.Machine.execTicknoReqRx p s
  | .couple o => Sys2Proof.Machine.execCouple o s
  | .decouple o => Sys2Proof.Machine.execDecouple o s
  | .pt0ValidSet o on => Sys2Proof.Machine.execPt0ValidSet o on s
  | .remeasure o => Sys2Proof.Machine.execRemeasure o s
  | .ptStep o n val => Sys2Proof.Machine.execPtStep o n val s
  | .cmpArm o m val => Sys2Proof.Machine.execCmpArm o m val s
  | .cmpFire m => Sys2Proof.Machine.execCmpFire m s
  | .cmpCancel o m val => Sys2Proof.Machine.execCmpCancel o m val s
  | .launchArm o j val => Sys2Proof.Machine.execLaunchArm o j val s
  | .launchFire j => Sys2Proof.Machine.execLaunchFire j s
  | .portCfgWrite o p val => Sys2Proof.Machine.execPortCfgWrite o p val s
  | .portRetrain o p => Sys2Proof.Machine.execPortRetrain o p s
  | .portDetectDone p => Sys2Proof.Machine.execPortDetectDone p s
  | .timingExchangeRx p t1 t2 t3 t4 => Sys2Proof.Machine.execTimingExchangeRx p t1 t2 t3 t4 s
  | .portTrainDone p inverted deskew => Sys2Proof.Machine.execPortTrainDone p inverted deskew s
  | .portLockDone p => Sys2Proof.Machine.execPortLockDone p s
  | .capsBlockRx p block => Sys2Proof.Machine.execCapsBlockRx p block s
  | .portActive p => Sys2Proof.Machine.execPortActive p s
  | .forwardedPassStart p => Sys2Proof.Machine.execForwardedPassStart p s
  | .stageTimeout p => Sys2Proof.Machine.execStageTimeout p s
  | .portRetryHoldEnd p => Sys2Proof.Machine.execPortRetryHoldEnd p s
  | .linkLoss p c => Sys2Proof.Machine.execLinkLoss p c s
  | .idleEntry p => Sys2Proof.Machine.execIdleEntry p s
  | .idleExit p => Sys2Proof.Machine.execIdleExit p s
  | .eyeStart o val => Sys2Proof.Machine.execEyeStart o val s
  | .eyeAbort o val => Sys2Proof.Machine.execEyeAbort o val s
  | .eyePointDone count => Sys2Proof.Machine.execEyePointDone count s
  | .packetTxStart p => Sys2Proof.Machine.execPacketTxStart p s
  | .c1WindowStart => Sys2Proof.Machine.execC1WindowStart s
  | .c1WindowEnd => Sys2Proof.Machine.execC1WindowEnd s
  | .packetRoute src pk arr => Sys2Proof.Machine.execPacketRoute src pk arr s
  | .packetAcceptLocal src pk arr => Sys2Proof.Machine.execPacketAcceptLocal src pk arr s
  | .wrReqRx pk => Sys2Proof.Machine.execWrReqRx pk s
  | .rdReqRx pk => Sys2Proof.Machine.execRdReqRx pk s
  | .wrCplRx pk => Sys2Proof.Machine.execWrCplRx pk s
  | .rdCplRx pk => Sys2Proof.Machine.execRdCplRx pk s
  | .errCplRx pk => Sys2Proof.Machine.execErrCplRx pk s
  | .cplTimeout ep seq => Sys2Proof.Machine.execCplTimeout ep seq s
  | .creditRx p c2 c3d c3m => Sys2Proof.Machine.execCreditRx p c2 c3d c3m s
  | .alignRx p pk => Sys2Proof.Machine.execAlignRx p pk s
  | .discStart o val => Sys2Proof.Machine.execDiscStart o val s
  | .probeRx p => Sys2Proof.Machine.execProbeRx p s
  | .probeViaRx pk => Sys2Proof.Machine.execProbeViaRx pk s
  | .probeTimeout => Sys2Proof.Machine.execProbeTimeout s
  | .identRx pk => Sys2Proof.Machine.execIdentRx pk s
  | .assignRx p pk => Sys2Proof.Machine.execAssignRx p pk s
  | .delegateRx pk => Sys2Proof.Machine.execDelegateRx pk s
  | .delegateReturnRx src cells => Sys2Proof.Machine.execDelegateReturnRx src cells s
  | .newLinkHandle reporter p expect ident => Sys2Proof.Machine.execNewLinkHandle reporter p expect ident s
  | .routeRepair lost => Sys2Proof.Machine.execRouteRepair lost s
  | .cayLaunchWrite o val => Sys2Proof.Machine.execCayLaunchWrite o val s
  | .cayenneRx ports scope hops at_ps => Sys2Proof.Machine.execCayenneRx ports scope hops at_ps s
  | .cayHoldExpiry => Sys2Proof.Machine.execCayHoldExpiry s
  | .cayStatClear o val => Sys2Proof.Machine.execCayStatClear o val s
  | .rdlEnableWrite o val => Sys2Proof.Machine.execRdlEnableWrite o val s
  | .rakeRx p pk arr => Sys2Proof.Machine.execRakeRx p pk arr s
  | .rakeOutputStart planeB => Sys2Proof.Machine.execRakeOutputStart planeB s
  | .levelGoWrite o val => Sys2Proof.Machine.execLevelGoWrite o val s
  | .selectionRun => Sys2Proof.Machine.execSelectionRun s
  | .levelDeadline => Sys2Proof.Machine.execLevelDeadline s
  | .binsRx p pk => Sys2Proof.Machine.execBinsRx p pk s
  | .descentRx p pk => Sys2Proof.Machine.execDescentRx p pk s
  | .descentDeadline => Sys2Proof.Machine.execDescentDeadline s
  | .edgeInstant => Sys2Proof.Machine.execEdgeInstant s
  | .legBEdge => Sys2Proof.Machine.execLegBEdge s
  | .fracOffEdge => Sys2Proof.Machine.execFracOffEdge s
  | .insertRx pk => Sys2Proof.Machine.execInsertRx pk s
  | .deadtimeTurnOn m => Sys2Proof.Machine.execDeadtimeTurnOn m s
  | .fbCheck m pin => Sys2Proof.Machine.execFbCheck m pin s
  | .gfbChange m pin => Sys2Proof.Machine.execGfbChange m pin s
  | .desatBlankEnd m => Sys2Proof.Machine.execDesatBlankEnd m s
  | .desatDetect m => Sys2Proof.Machine.execDesatDetect m s
  | .hardShortDetect m => Sys2Proof.Machine.execHardShortDetect m s
  | .softoffRelease => Sys2Proof.Machine.execSoftoffRelease s
  | .offCheck pins => Sys2Proof.Machine.execOffCheck pins s
  | .uvArm m => Sys2Proof.Machine.execUvArm m s
  | .uvTrip m => Sys2Proof.Machine.execUvTrip m s
  | .preTickSnapshot => Sys2Proof.Machine.execPreTickSnapshot s
  | .tickGroupStart => Sys2Proof.Machine.execTickGroupStart s
  | .sarConversionDone c raw => Sys2Proof.Machine.execSarConversionDone c raw s
  | .ditherBlockEnd c => Sys2Proof.Machine.execDitherBlockEnd c s
  | .sdResult n bits => Sys2Proof.Machine.execSdResult n bits s
  | .sdLoss n => Sys2Proof.Machine.execSdLoss n s
  | .pulseEdge a b => Sys2Proof.Machine.execPulseEdge a b s
  | .noPulse => Sys2Proof.Machine.execNoPulse s
  | .classSJob ix => Sys2Proof.Machine.execClassSJob ix s
  | .swapRequest o ix => Sys2Proof.Machine.execSwapRequest o ix s
  | .lpeEnableWrite o ix val => Sys2Proof.Machine.execLpeEnableWrite o ix val s
  | .cascadeEnWrite o c val => Sys2Proof.Machine.execCascadeEnWrite o c val s
  | .cascadeRun c => Sys2Proof.Machine.execCascadeRun c s
  | .add n q gd ga gb => Sys2Proof.Machine.execAdd n q gd ga gb s
  | .sub n q gd ga gb => Sys2Proof.Machine.execSub n q gd ga gb s
  | .and n q gd ga gb => Sys2Proof.Machine.execAnd n q gd ga gb s
  | .or n q gd ga gb => Sys2Proof.Machine.execOr n q gd ga gb s
  | .xor n q gd ga gb => Sys2Proof.Machine.execXor n q gd ga gb s
  | .shl n q gd ga gb => Sys2Proof.Machine.execShl n q gd ga gb s
  | .shr n q gd ga gb => Sys2Proof.Machine.execShr n q gd ga gb s
  | .sra n q gd ga gb => Sys2Proof.Machine.execSra n q gd ga gb s
  | .adds n q gd ga gb => Sys2Proof.Machine.execAdds n q gd ga gb s
  | .subs n q gd ga gb => Sys2Proof.Machine.execSubs n q gd ga gb s
  | .min n q gd ga gb => Sys2Proof.Machine.execMin n q gd ga gb s
  | .max n q gd ga gb => Sys2Proof.Machine.execMax n q gd ga gb s
  | .minu n q gd ga gb => Sys2Proof.Machine.execMinu n q gd ga gb s
  | .maxu n q gd ga gb => Sys2Proof.Machine.execMaxu n q gd ga gb s
  | .mul n q gd ga gb => Sys2Proof.Machine.execMul n q gd ga gb s
  | .mulh n q gd ga gb => Sys2Proof.Machine.execMulh n q gd ga gb s
  | .mulhu n q gd ga gb => Sys2Proof.Machine.execMulhu n q gd ga gb s
  | .mulq15 n q gd ga gb => Sys2Proof.Machine.execMulq15 n q gd ga gb s
  | .mulq31 n q gd ga gb => Sys2Proof.Machine.execMulq31 n q gd ga gb s
  | .div n q gd ga gb => Sys2Proof.Machine.execDiv n q gd ga gb s
  | .divu n q gd ga gb => Sys2Proof.Machine.execDivu n q gd ga gb s
  | .rem n q gd ga gb => Sys2Proof.Machine.execRem n q gd ga gb s
  | .remu n q gd ga gb => Sys2Proof.Machine.execRemu n q gd ga gb s
  | .clz n q gd ga => Sys2Proof.Machine.execClz n q gd ga s
  | .abs n q gd ga => Sys2Proof.Machine.execAbs n q gd ga s
  | .addi n q gd ga imm => Sys2Proof.Machine.execAddi n q gd ga imm s
  | .andi n q gd ga imm => Sys2Proof.Machine.execAndi n q gd ga imm s
  | .ori n q gd ga imm => Sys2Proof.Machine.execOri n q gd ga imm s
  | .xori n q gd ga imm => Sys2Proof.Machine.execXori n q gd ga imm s
  | .shli n q gd ga imm => Sys2Proof.Machine.execShli n q gd ga imm s
  | .shri n q gd ga imm => Sys2Proof.Machine.execShri n q gd ga imm s
  | .srai n q gd ga imm => Sys2Proof.Machine.execSrai n q gd ga imm s
  | .movl n q gd imm => Sys2Proof.Machine.execMovl n q gd imm s
  | .movh n q gd imm => Sys2Proof.Machine.execMovh n q gd imm s
  | .fadd n q gd ga gb => Sys2Proof.Machine.execFadd n q gd ga gb s
  | .fsub n q gd ga gb => Sys2Proof.Machine.execFsub n q gd ga gb s
  | .fmul n q gd ga gb => Sys2Proof.Machine.execFmul n q gd ga gb s
  | .fdiv n q gd ga gb => Sys2Proof.Machine.execFdiv n q gd ga gb s
  | .fmin n q gd ga gb => Sys2Proof.Machine.execFmin n q gd ga gb s
  | .fmax n q gd ga gb => Sys2Proof.Machine.execFmax n q gd ga gb s
  | .fabs n q gd ga => Sys2Proof.Machine.execFabs n q gd ga s
  | .fneg n q gd ga => Sys2Proof.Machine.execFneg n q gd ga s
  | .fsqrt n q gd ga => Sys2Proof.Machine.execFsqrt n q gd ga s
  | .itof n q gd ga => Sys2Proof.Machine.execItof n q gd ga s
  | .utof n q gd ga => Sys2Proof.Machine.execUtof n q gd ga s
  | .ftoiN n q gd ga => Sys2Proof.Machine.execFtoiN n q gd ga s
  | .ftoiZ n q gd ga => Sys2Proof.Machine.execFtoiZ n q gd ga s
  | .ftoiFl n q gd ga => Sys2Proof.Machine.execFtoiFl n q gd ga s
  | .ftoiCe n q gd ga => Sys2Proof.Machine.execFtoiCe n q gd ga s
  | .fmac n q gd ga gb => Sys2Proof.Machine.execFmac n q gd ga gb s
  | .fmsc n q gd ga gb => Sys2Proof.Machine.execFmsc n q gd ga gb s
  | .ld n q gt base sz off => Sys2Proof.Machine.execLd n q gt base sz off s
  | .ldu n q gt base sz off => Sys2Proof.Machine.execLdu n q gt base sz off s
  | .st n q gt base sz off => Sys2Proof.Machine.execSt n q gt base sz off s
  | .amoSwap n q gd ga gb => Sys2Proof.Machine.execAmoSwap n q gd ga gb s
  | .amoAdd n q gd ga gb => Sys2Proof.Machine.execAmoAdd n q gd ga gb s
  | .cmp n q pd pc cond ga gb => Sys2Proof.Machine.execCmp n q pd pc cond ga gb s
  | .cmpi n q pd pc cond ga imm => Sys2Proof.Machine.execCmpi n q pd pc cond ga imm s
  | .fcmp n q pd pc cond ga gb => Sys2Proof.Machine.execFcmp n q pd pc cond ga gb s
  | .plog n q pd pc cond pa pb => Sys2Proof.Machine.execPlog n q pd pc cond pa pb s
  | .br n q off => Sys2Proof.Machine.execBr n q off s
  | .call n q off => Sys2Proof.Machine.execCall n q off s
  | .jr n q ga imm => Sys2Proof.Machine.execJr n q ga imm s
  | .jalr n q gd ga imm => Sys2Proof.Machine.execJalr n q gd ga imm s
  | .loop n q ga imm => Sys2Proof.Machine.execLoop n q ga imm s
  | .twait n q => Sys2Proof.Machine.execTwait n q s
  | .twaitWake n => Sys2Proof.Machine.execTwaitWake n s
  | .wait n q gd ga => Sys2Proof.Machine.execWait n q gd ga s
  | .waitWake n => Sys2Proof.Machine.execWaitWake n s
  | .rte n q => Sys2Proof.Machine.execRte n q s
  | .syncslot n q => Sys2Proof.Machine.execSyncslot n q s
  | .sig n q ga => Sys2Proof.Machine.execSig n q ga s
  | .halt n q => Sys2Proof.Machine.execHalt n q s
  | .mfc n q gd cr => Sys2Proof.Machine.execMfc n q gd cr s
  | .mtc n q ga cr => Sys2Proof.Machine.execMtc n q ga cr s
  | .fsend n q gd ga => Sys2Proof.Machine.execFsend n q gd ga s
  | .frecv n q gd ga => Sys2Proof.Machine.execFrecv n q gd ga s
  | .lut n q gd ga gb => Sys2Proof.Machine.execLut n q gd ga gb s
  | .interruptEntry n => Sys2Proof.Machine.execInterruptEntry n s
  | .nmtEntry n => Sys2Proof.Machine.execNmtEntry n s
  | .coreHalt o n => Sys2Proof.Machine.execCoreHalt o n s
  | .coreHalted n => Sys2Proof.Machine.execCoreHalted n s
  | .coreRun o n => Sys2Proof.Machine.execCoreRun o n s
  | .coreStep o n => Sys2Proof.Machine.execCoreStep o n s
  | .scratchpadWindowAccess o n wr => Sys2Proof.Machine.execScratchpadWindowAccess o n wr s
  | .tpBudgetCheck => Sys2Proof.Machine.execTpBudgetCheck s
  | .referenceRx pk => Sys2Proof.Machine.execReferenceRx pk s
  | .tickReportRx pk => Sys2Proof.Machine.execTickReportRx pk s
  | .tblBufWrite pk => Sys2Proof.Machine.execTblBufWrite pk s
  | .tableCommit o => Sys2Proof.Machine.execTableCommit o s
  | .tableLoadDone => Sys2Proof.Machine.execTableLoadDone s
  | .qspiProgram o => Sys2Proof.Machine.execQspiProgram o s
  | .qspiErase o => Sys2Proof.Machine.execQspiErase o s
  | .qspiOpDone => Sys2Proof.Machine.execQspiOpDone s
  | .ethFrameRx e f freed => Sys2Proof.Machine.execEthFrameRx e f freed s
  | .ethFrameTx e desc => Sys2Proof.Machine.execEthFrameTx e desc s
  | .ethLinkDown e => Sys2Proof.Machine.execEthLinkDown e s
  | .svFrameRx e raw k f => Sys2Proof.Machine.execSvFrameRx e raw k f s
  | .svTimeout k => Sys2Proof.Machine.execSvTimeout k s
  | .svPublish k => Sys2Proof.Machine.execSvPublish k s
  | .gooseChange o g => Sys2Proof.Machine.execGooseChange o g s
  | .gooseRepeat g => Sys2Proof.Machine.execGooseRepeat g s
  | .gooseFrameRx e raw g f => Sys2Proof.Machine.execGooseFrameRx e raw g f s
  | .gooseTtl g => Sys2Proof.Machine.execGooseTtl g s
  | .xhpCommandRx e raw ip port bytes => Sys2Proof.Machine.execXhpCommandRx e raw ip port bytes s
  | .xhpRead => Sys2Proof.Machine.execXhpRead s
  | .xhpWrite => Sys2Proof.Machine.execXhpWrite s
  | .xhpFread => Sys2Proof.Machine.execXhpFread s
  | .xhpFwrite => Sys2Proof.Machine.execXhpFwrite s
  | .xhpEcho => Sys2Proof.Machine.execXhpEcho s
  | .xhpNotifySend => Sys2Proof.Machine.execXhpNotifySend s
  | .capArm o val => Sys2Proof.Machine.execCapArm o val s
  | .capStop o val => Sys2Proof.Machine.execCapStop o val s
  | .capTrigWrite o val => Sys2Proof.Machine.execCapTrigWrite o val s
  | .capRow => Sys2Proof.Machine.execCapRow s
  | .capSlotFree o r => Sys2Proof.Machine.execCapSlotFree o r s
  | .capStreamSend => Sys2Proof.Machine.execCapStreamSend s
  | .streamRx pk => Sys2Proof.Machine.execStreamRx pk s
  | .faultMsgCapture raw => Sys2Proof.Machine.execFaultMsgCapture raw s
  | .eventRx pk => Sys2Proof.Machine.execEventRx pk s
  | .pendClear o k val => Sys2Proof.Machine.execPendClear o k val s
  | .firstFaultClear o val => Sys2Proof.Machine.execFirstFaultClear o val s
  | .injectArm o val => Sys2Proof.Machine.execInjectArm o val s
  | .aliveEdge => Sys2Proof.Machine.execAliveEdge s
  | .aliveKickWrite o val => Sys2Proof.Machine.execAliveKickWrite o val s
  | .kickWindowExpiry => Sys2Proof.Machine.execKickWindowExpiry s
  | .tempSample ix t => Sys2Proof.Machine.execTempSample ix t s
  | .railSample r mv => Sys2Proof.Machine.execRailSample r mv s
  | .roMeasure c0 c1 c2 c3 => Sys2Proof.Machine.execRoMeasure c0 c1 c2 c3 s
  | .selfTestDone pass => Sys2Proof.Machine.execSelfTestDone pass s
  | .demandInput ch lowFor => Sys2Proof.Machine.execDemandInput ch lowFor s
  | .inDiscrep => Sys2Proof.Machine.execInDiscrep s
  | .fbDiscrep ch level span => Sys2Proof.Machine.execFbDiscrep ch level span s
  | .actFbCheck fbA fbB => Sys2Proof.Machine.execActFbCheck fbA fbB s
  | .actTimeEnd => Sys2Proof.Machine.execActTimeEnd s
  | .bypassRequest o val => Sys2Proof.Machine.execBypassRequest o val s
  | .islandLatch c => Sys2Proof.Machine.execIslandLatch c s
  | .aliveSilent => Sys2Proof.Machine.execAliveSilent s
  | .testStart => Sys2Proof.Machine.execTestStart s
  | .testNow o val => Sys2Proof.Machine.execTestNow o val s
  | .testStepEnd fbA fbB tst => Sys2Proof.Machine.execTestStepEnd fbA fbB tst s
  | .testGapEnd => Sys2Proof.Machine.execTestGapEnd s
  | .testOverdue => Sys2Proof.Machine.execTestOverdue s
  | .unlockAttempt o val => Sys2Proof.Machine.execUnlockAttempt o val s
  | .lockoutEnd => Sys2Proof.Machine.execLockoutEnd s
  | .safLockCmd o val => Sys2Proof.Machine.execSafLockCmd o val s
  | .unlockTimeout => Sys2Proof.Machine.execUnlockTimeout s
  | .passwordSet o val => Sys2Proof.Machine.execPasswordSet o val s
  | .serviceRecord o val => Sys2Proof.Machine.execServiceRecord o val s
  | .logAck o val => Sys2Proof.Machine.execLogAck o val s
  | .intlRecheck level => Sys2Proof.Machine.execIntlRecheck level s
  | .mirrorRx pk => Sys2Proof.Machine.execMirrorRx pk s
  | .yieldReq o => Sys2Proof.Machine.execYieldReq o s
  | .relinquish o => Sys2Proof.Machine.execRelinquish o s
  | .yieldDrop => Sys2Proof.Machine.execYieldDrop s
  | .syncReq o => Sys2Proof.Machine.execSyncReq o s
  | .stateImageSend => Sys2Proof.Machine.execStateImageSend s
  | .stateImageRx words last => Sys2Proof.Machine.execStateImageRx words last s
  | .peerUpd o val => Sys2Proof.Machine.execPeerUpd o val s
  | .canInitClear o val => Sys2Proof.Machine.execCanInitClear o val s
  | .canBusJoin => Sys2Proof.Machine.execCanBusJoin s
  | .canTxReq o mb val => Sys2Proof.Machine.execCanTxReq o mb val s
  | .canTxAttempt delay => Sys2Proof.Machine.execCanTxAttempt delay s
  | .canAttemptEnd r => Sys2Proof.Machine.execCanAttemptEnd r s
  | .canRecover o val => Sys2Proof.Machine.execCanRecover o val s
  | .canRecoveryDone => Sys2Proof.Machine.execCanRecoveryDone s
  | .canCancel o mb => Sys2Proof.Machine.execCanCancel o mb s
  | .canFrameRx f => Sys2Proof.Machine.execCanFrameRx f s
  | .rxPop o val => Sys2Proof.Machine.execRxPop o val s
  | .keyAccept k pressed => Sys2Proof.Machine.execKeyAccept k pressed s
  | .touchMeasure t c => Sys2Proof.Machine.execTouchMeasure t c s
  | .touchBaselineDrift t => Sys2Proof.Machine.execTouchBaselineDrift t s
  | .touchStuck t => Sys2Proof.Machine.execTouchStuck t s
  | .ledBlink l => Sys2Proof.Machine.execLedBlink l s
  | .svcDetChange present => Sys2Proof.Machine.execSvcDetChange present s
  | .feedImbalance mvA mvB => Sys2Proof.Machine.execFeedImbalance mvA mvB s
  | .passTickSymbolSend => Sys2Proof.Machine.execPassTickSymbolSend s
  | .symbolRealign p => Sys2Proof.Machine.execSymbolRealign p s
  | .codeViolation p => Sys2Proof.Machine.execCodeViolation p s
  | .ethLinkUp e => Sys2Proof.Machine.execEthLinkUp e s
  | .demandInputRelease ch => Sys2Proof.Machine.execDemandInputRelease ch s
  | .testCurrentFail fbA fbB tst => Sys2Proof.Machine.execTestCurrentFail fbA fbB tst s
  | .illegalInstruction n w => Sys2Proof.Machine.execIllegalInstruction n w s

end Sys2Proof.Machine
end

