-- ==== Sys2Proof/Machine/Idle.lean ====
section
/-! DEFINITION. What one 2 ns cycle of the part's clock does when no command waits: time passes. -/

namespace Sys2Proof.Machine

open Sys2Proof

/-- LT counts on and the phase of the tick with it (R39, R42); PT instances run at their rates (R40); a cell has none (R38, Table 1-1). (Log 115 DEDUCED safe.) -/
def clockTime (s : State) : State :=
  modTmk { s with lt := s.lt + 1 } fun t =>
    { t with phase := if t.ticked then t.phase + 1 else t.phase
             pt := if isCell s then t.pt else (List.range 3).foldl (fun m n => kput 0 m n (ptAdvance s n)) t.pt }

/-- A waiting core's cycle counter and frame go on, two cycles of 1 ns (R267, R294). -/
def clockCore (c : Core) : Core :=
  let c := { c with evNew := 0 }
  if c.st == .waiting then spend c 2 else c

def clockCores (s : State) : State := (List.range 4).foldl (fun s n => modCore s n clockCore) s

/-- A C3 packet under way ends when its port's transmission does (R133). -/
def clockPort (t : Nat) (p : PortSt) : PortSt :=
  { p with cut := p.cut.filter fun c => c.held || decide (t < p.lastTx) }

/-- A port spreads: in reference mode, a DOWN port by SPREAD_EN, and an UP port as its parent does (R90, R98). -/
def spreads (s : State) (p : Nat) : Bool :=
  !(portOf s p).fwd && ((dirOf s p == 3 && rb s (trlR 0) 1) || ((dirOf s p == 1 || dirOf s p == 2) && rb s (trlR (0x110 + 0x40 * p)) 27))

/-- The span between skip sets, in units of LT: 1,024 symbols, or 128 while spread is on (R88). -/
def skipSpan (s : State) (p : Nat) : Nat := if spreads s p then 204 else 1638

/-- A transmitter that is not idle and has passed TRAIN sends a skip set when one is due, ahead of flits (R87, R88). -/
def clockSkip (s : State) (p : Port) : State :=
  let t := portOf s p.val
  let on := t.stage == .lock || t.stage == .caps || t.stage == .active
  if on && !t.idleTx && decide (t.skipAt + skipSpan s p.val ≤ now s) then send (modPort s p.val fun t => { t with skipAt := now s }) (.skip p) else s

/-- What the ports do of themselves: transmissions end, blocks of CAPS and skip sets fall due, packets whose link was
lost find another way (R88, R101, R103, R133). -/
def clockPorts (s : State) : State :=
  let s := orphansRoute s
  allPorts (allPorts s fun s p => modPort s p.val (clockPort (now s))) fun s p => clockSkip (capsRepeat s p) p

/-- One clock cycle of a part out of reset, after which TT_ALIGN is evaluated (R500); in a chip reset LT alone counts
on, and power-on reset holds it at 0 (R39). (Log 1 DESIGN CHOICE unsafe, 5 DEDUCED unsafe.) -/
def clock (s : State) : State :=
  if s.sys.inReset then (if s.sys.porRst then s else { s with lt := s.lt + 1, hwSet := [], swSet := [] })
  else alignSync (clockPorts (clockCores (lpeClock (pulseAccept (clockTime { s with hwSet := [], swSet := [] })))))

end Sys2Proof.Machine
end

