-- ==== Sys2Proof/Machine/Step.lean ====
section
/-! DEFINITION. One step: the command at the front of the queue takes effect, or a clock cycle passes. -/

namespace Sys2Proof.Machine

open Sys2Proof

/-- The state without the command at the front of its queue. -/
def State.popped (s : State) : State := { s with pending := s.pending.tail }

/-- A step takes the command that waits longest; when none waits, 2 ns pass. (Log 1 DESIGN CHOICE unsafe.) -/
def step (s : State) : Host.Outcome State Fault Refusal :=
  match s.pending with
  | [] => .next (clock s)
  | c :: _ => exec c s.popped

/-- The state with the command that a word spells at the front of its queue. -/
def State.withFetchWord (s : State) (nbits w : Nat) : State :=
  match decodeTableWord nbits w with
  | some c => { s with pending := c :: s.pending }
  | none => s

end Sys2Proof.Machine
end

