-- ==== Sys2Proof/Safety.lean ====
section
/-! DEFINITION. The terms in which claims are made: a command that answers, what an instruction of a core leaves,
when a core issues one, and the invariants of the part. -/

namespace Sys2Proof.Machine

open Sys2Proof

/-- The command is carried out at s, and the state it leaves satisfies P. -/
def Answers (c : Instr) (s : State) (P : State → Prop) : Prop := ∃ t, exec c s = .next t ∧ P t

/-- The part is out of reset and a core may issue an instruction with guard q now: it runs, nothing is due at the
boundary, the PC lies in its instruction scratchpad, the word there is good, and the guard holds (R266, R270, R288). -/
def issues (s : State) (n : CoreId) (q : Pred) : Bool :=
  !s.sys.inReset && coreLive s n && !boundaryDue s n && fetchOk (coreOf s n).pc &&
    (kget 0 s.flt.ecc (eccKey (3 + n.val) (coreOf s n).pc.toNat) == 0) && guardOk (coreOf s n) q

/-- The same, but the guard does not hold. -/
def suppressed (s : State) (n : CoreId) (q : Pred) : Bool :=
  !s.sys.inReset && coreLive s n && !boundaryDue s n && fetchOk (coreOf s n).pc &&
    (kget 0 s.flt.ecc (eccKey (3 + n.val) (coreOf s n).pc.toNat) == 0) && !guardOk (coreOf s n) q

/-- Nothing outside core n has changed. -/
def OnlyCore (s t : State) (n : Nat) : Prop := (∀ m, m ≠ n → coreOf t m = coreOf s m) ∧ { t with cores := s.cores } = s

/-- A core has gone on to its next instruction in cyc cycles: the counters, the PC where no LOOP ends here, and
nothing else but the fields named (a STEP ends with it, R297). -/
def Advanced (c d : Core) (cyc : Nat) : Prop :=
  d.cycle = c.cycle + wd cyc ∧ d.frame = (c.frame + cyc) % 16 ∧
    ((c.loopCnt = 0 ∨ c.pc ≠ c.loopEnd) → d.pc = c.pc + 4 ∧ d.loopCnt = c.loopCnt) ∧
    (c.stepOne = false → d.st = c.st) ∧ (c.stepOne = true → d.st = .halted) ∧
    (d.ie, d.exl, d.pie, d.epc, d.cause, d.nested) = (c.ie, c.exl, c.pie, c.epc, c.cause, c.nested) ∧
    (d.iscr, d.rxq, d.txq) = (c.iscr, c.rxq, c.txq)

/-- An instruction has written v to gd and set the FPSR flags fl, in cyc cycles; writes to g0 are discarded (R268). -/
def Wrote (s t : State) (n : CoreId) (gd : Nat) (v : Word) (fl cyc : Nat) : Prop :=
  gOf t n gd = (if gd = 0 then 0 else v) ∧ (∀ r, r ≠ gd → gOf t n r = gOf s n r) ∧
    (coreOf t n).p = (coreOf s n).p ∧ (coreOf t n).fpsr = (coreOf s n).fpsr ||| BitVec.ofNat 8 fl ∧
    (coreOf t n).ev = (coreOf s n).ev ∧ (coreOf t n).dscr = (coreOf s n).dscr ∧
    Advanced (coreOf s n) (coreOf t n) cyc ∧ OnlyCore s t n

/-- An instruction has written the condition b to pd and its opposite to pc, in cyc cycles; writes to p0 are
discarded (R268), and the registers stand. -/
def Compared (s t : State) (n : CoreId) (pd pc : PReg) (b : Bool) (cyc : Nat) : Prop :=
  (∀ r : PReg, pGet (coreOf t n) r = (if r = 0 then true else if r = pc then !b else if r = pd then b else pGet (coreOf s n) r)) ∧
    (∀ r, gOf t n r = gOf s n r) ∧ (coreOf t n).ev = (coreOf s n).ev ∧ (coreOf t n).dscr = (coreOf s n).dscr ∧
    Advanced (coreOf s n) (coreOf t n) cyc ∧ OnlyCore s t n

/-- A core has entered a trap (R287): EPC, ECAUSE, IE copied to PIE and cleared, EXL set, the vector, 4 cycles;
registers, predicates, FPSR, LOOP and scratchpads stand. -/
def Trapped (c d : Core) (cause : Nat) (epc vec : Word) (nested : Bool) : Prop :=
  (d.epc, d.cause, d.nested, d.pie, d.ie, d.exl, d.pc) = (epc, cause, nested, c.ie, false, true, vec) ∧
    d.cycle = c.cycle + 4 ∧ (d.g, d.p, d.fpsr, d.ev) = (c.g, c.p, c.fpsr, c.ev) ∧
    (d.loopCnt, d.loopEnd, d.iscr, d.dscr, d.rxq, d.txq) = (c.loopCnt, c.loopEnd, c.iscr, c.dscr, c.rxq, c.txq)

/-- No leg has both its gate commands high (R193). -/
def LegsApart (s : State) : Prop := ∀ l : Fin 4, ¬ (has8 s.swg.gcmd (2 * l.val) = true ∧ has8 s.swg.gcmd (2 * l.val + 1) = true)

/-- While a protective turn-off runs every gate command is low, and no turn-on waits (R206). -/
def TurnOffLow (s : State) : Prop := s.swg.seqAt.isSome = true → s.swg.gcmd = 0

/-- The shared memories are in their canonical form. -/
def MemoryOk (s : State) : Prop := Memory.wf s.mem = true

/-- A message of a block has been put on the fault bus: its source and kind (Table 14-1), by the address it names. -/
def Reports (s t : State) (src : Nat) (k : Kind) (addr : Nat) : Prop :=
  t.flt.bus = s.flt.bus ++ [(now s, faultMsg src k addr false)]

/-- The tick symbols that leave on ports: the low 6 bits of a tick number, DLY and the instant of each, both counting
the whole symbol times for which a Cayenne holds the symbol (R57, R87). -/
def symbolsOut (s : State) (ps : List Nat) (no : BitVec 40) (dly : Nat) (at_ : Nat → Nat) : List Sent :=
  ps.filterMap fun p =>
    let n := symHeld (portOf s p).cayBusy (at_ p)
    if h : p < 6 then some (.tick ⟨p, h⟩ (no.setWidth 6) (BitVec.ofNat 2 (min 3 (dly + n))) (at_ p + 3200 * n)) else none

/-- A packet of a type and payload waits among the C2 packets of a port. -/
def Waits2 (t : State) (p typ : Nat) (pay : List Word) : Prop :=
  ∃ k ∈ (portOf t p).q2, k.typ = BitVec.ofNat 6 typ ∧ k.cls = 2 ∧ k.payload = pay

/-- A packet waits on a port in the queue of its class, the others there as they were (R132). -/
def Queued (s t : State) (q : Nat) (pk : Packet) : Prop :=
  let a := portOf s q
  let b := portOf t q
  (b.q1, b.q2, b.q3d, b.q3m) =
    if pk.cls = 1 then (a.q1 ++ [pk], a.q2, a.q3d, a.q3m) else if pk.cls = 2 then (a.q1, a.q2 ++ [pk], a.q3d, a.q3m)
    else if pk.typ = 0x20 then (a.q1, a.q2, a.q3d ++ [pk], a.q3m) else (a.q1, a.q2, a.q3d, a.q3m ++ [pk])

/-- No fault injection is armed (R377). -/
def notInjecting (s : State) : Bool := !rb s (fltR 0x080) 31

end Sys2Proof.Machine
end

