-- ==== Sys2Proof/Certificates/Slice0/Obligations.lean ====
section
/-! DEFINITION. The statements for the provers. -/

open Sys2Proof Sys2Proof.Machine

/-- For every core, operands and state in which the core issues the instruction: ADD, SUB, AND, OR, XOR, SHL, SHR, SRA, MIN, MAX, MINU, MAXU and the saturating ADDS and SUBS complete in 1 cycle; gd takes the result of Table 10-3 (g0 stays 0), OV is set exactly when ADDS or SUBS clamps, the PC goes on, and no other register, core, memory or block changes. Where the core issues it: ADDI adds imm12 sign-extended; ANDI, ORI, XORI take it zero-extended; SHLI, SHRI, SRAI shift by imm12[4:0]; MOVL writes imm16 zero-extended; MOVH writes imm16 to the high half and keeps the low half. Each takes 1 cycle and changes nothing else. Where the core issues it: CMP and CMPI for each of the eleven conditions, PLOG for each of its four, and FCMP for each of its seven on operands that are not NaN, write the condition to pd and its opposite to pc (p0 stays 1; where both name one predicate the opposite stands) in 1 cycle, FCMP in 2; where FPTRAP is 0 FCMP completes on every operand, with the NV of its comparison; a condition code that is not listed takes the ILLEGAL trap. No register changes. Readings and choices of the model that it rests on: log entries 77, 78, 85, 88. (R268, R270, 10_zynul_instruction_set.md Table 10-3, 10_zynul_instruction_set.md Table 10-2, R271, R287, 10_zynul_instruction_set.md Table 10-5.) -/
def Obligations.IntegerRegisterOperations : Prop :=
  ((∀ (n : CoreId) (q : Pred) (gd ga gb : GReg) (s : State), issues s n q = true →
    let a := gOf s n ga
    let b := gOf s n gb
    Answers (.add n q gd ga gb) s (fun t => Wrote s t n gd (a + b) (0) 1) ∧
    Answers (.sub n q gd ga gb) s (fun t => Wrote s t n gd (a - b) (0) 1) ∧
    Answers (.and n q gd ga gb) s (fun t => Wrote s t n gd (a &&& b) (0) 1) ∧
    Answers (.or n q gd ga gb) s (fun t => Wrote s t n gd (a ||| b) (0) 1) ∧
    Answers (.xor n q gd ga gb) s (fun t => Wrote s t n gd (a ^^^ b) (0) 1) ∧
    Answers (.shl n q gd ga gb) s (fun t => Wrote s t n gd (a <<< (b.toNat % 32)) (0) 1) ∧
    Answers (.shr n q gd ga gb) s (fun t => Wrote s t n gd (a >>> (b.toNat % 32)) (0) 1) ∧
    Answers (.sra n q gd ga gb) s (fun t => Wrote s t n gd (a.sshiftRight (b.toNat % 32)) (0) 1) ∧
    Answers (.adds n q gd ga gb) s (fun t => Wrote s t n gd (BitVec.ofInt 32 (max (-2147483648) (min 2147483647 (a.toInt + b.toInt)))) (if -2147483648 ≤ a.toInt + b.toInt ∧ a.toInt + b.toInt ≤ 2147483647 then 0 else 32) 1) ∧
    Answers (.subs n q gd ga gb) s (fun t => Wrote s t n gd (BitVec.ofInt 32 (max (-2147483648) (min 2147483647 (a.toInt - b.toInt)))) (if -2147483648 ≤ a.toInt - b.toInt ∧ a.toInt - b.toInt ≤ 2147483647 then 0 else 32) 1) ∧
    Answers (.min n q gd ga gb) s (fun t => Wrote s t n gd (if a.toInt ≤ b.toInt then a else b) (0) 1) ∧
    Answers (.max n q gd ga gb) s (fun t => Wrote s t n gd (if a.toInt ≤ b.toInt then b else a) (0) 1) ∧
    Answers (.minu n q gd ga gb) s (fun t => Wrote s t n gd (if a.toNat ≤ b.toNat then a else b) (0) 1) ∧
    Answers (.maxu n q gd ga gb) s (fun t => Wrote s t n gd (if a.toNat ≤ b.toNat then b else a) (0) 1)) ∧
  (∀ (n : CoreId) (q : Pred) (gd ga : GReg) (i : BitVec 12) (k : BitVec 5) (w : BitVec 16) (s : State), issues s n q = true →
    let a := gOf s n ga
    Answers (.addi n q gd ga i) s (fun t => Wrote s t n gd (a + i.signExtend 32) 0 1) ∧
    Answers (.andi n q gd ga i) s (fun t => Wrote s t n gd (a &&& i.zeroExtend 32) 0 1) ∧
    Answers (.ori n q gd ga i) s (fun t => Wrote s t n gd (a ||| i.zeroExtend 32) 0 1) ∧
    Answers (.xori n q gd ga i) s (fun t => Wrote s t n gd (a ^^^ i.zeroExtend 32) 0 1) ∧
    Answers (.shli n q gd ga k) s (fun t => Wrote s t n gd (a <<< k.toNat) 0 1) ∧
    Answers (.shri n q gd ga k) s (fun t => Wrote s t n gd (a >>> k.toNat) 0 1) ∧
    Answers (.srai n q gd ga k) s (fun t => Wrote s t n gd (a.sshiftRight k.toNat) 0 1) ∧
    Answers (.movl n q gd w) s (fun t => Wrote s t n gd (w.zeroExtend 32) 0 1) ∧
    Answers (.movh n q gd w) s (fun t => Wrote s t n gd (w ++ (gOf s n gd).extractLsb' 0 16) 0 1))) ∧
  (∀ (n : CoreId) (q : Pred) (pd pc pa pb : PReg) (c : BitVec 4) (ga gb : GReg) (i : BitVec 7) (s : State), issues s n q = true →
    let a := gOf s n ga
    let b := gOf s n gb
    let int (x y : Word) : Option Bool := [x == y, x != y, decide (x.toInt < y.toInt), decide (y.toInt ≤ x.toInt), decide (x < y), decide (y ≤ x),
      decide (y.toInt < x.toInt), decide (x.toInt ≤ y.toInt), decide (y < x), decide (x ≤ y), x &&& y != 0][c.toNat]?
    let u := pGet (coreOf s n) pa
    let v := pGet (coreOf s n) pb
    (∀ r, int a b = some r → Answers (.cmp n q pd pc c ga gb) s (fun t => Compared s t n pd pc r 1)) ∧
    (∀ r, int a (i.signExtend 32) = some r → Answers (.cmpi n q pd pc c ga i) s (fun t => Compared s t n pd pc r 1)) ∧
    (∀ r, [u && v, u || v, u != v, u && !v][c.toNat]? = some r → Answers (.plog n q pd pc c pa pb) s (fun t => Compared s t n pd pc r 1)) ∧
    (∀ r, fpIsNan a = false → fpIsNan b = false →
      [some (fpCmp a b == 0), some (fpCmp a b != 0), some (decide (fpCmp a b < 0)), some (decide (0 ≤ fpCmp a b)), none, none,
        some (decide (0 < fpCmp a b)), some (decide (fpCmp a b ≤ 0)), none, none, none, none, some false][c.toNat]? = some (some r) →
      Answers (.fcmp n q pd pc c ga gb) s (fun t => Compared s t n pd pc r 2)) ∧
    (∀ r, rb s (coreCtrl n) 2 = false → fpCond c.toNat a b = some r → Answers (.fcmp n q pd pc c ga gb) s (fun t =>
      Compared s t n pd pc r.1 2 ∧ (coreOf t n).fpsr = (coreOf s n).fpsr ||| BitVec.ofNat 8 r.2)) ∧
    ((coreOf s n).exl = false → 10 < c.toNat → Answers (.cmp n q pd pc c ga gb) s (fun t =>
      Trapped (coreOf s n) (coreOf t n) 1 (coreOf s n).pc (vector s n 1) false ∧ OnlyCore s t n)))

/-- Where the core issues it: MUL, MULH, MULHU give the low and high halves of the exact product in 2 cycles; MULQ15 and MULQ31 the rounded, saturated fixed-point product, OV on saturation; DIV, DIVU, REM, REMU in 18 cycles with the values R272 gives for a zero divisor (IDZ) and for -2^31 by -1 (OV); CLZ and ABS in 1 cycle. Nothing else changes. (R268, R272, 10_zynul_instruction_set.md Table 10-3.) -/
def Obligations.IntegerProductsAndQuotients : Prop :=
  ∀ (n : CoreId) (q : Pred) (gd ga gb : GReg) (s : State), issues s n q = true →
    let a := gOf s n ga
    let b := gOf s n gb
    Answers (.mul n q gd ga gb) s (fun t => Wrote s t n gd (a * b) (0) 2) ∧
    Answers (.mulh n q gd ga gb) s (fun t => Wrote s t n gd (BitVec.ofInt 32 ((a.toInt * b.toInt) / 4294967296)) (0) 2) ∧
    Answers (.mulhu n q gd ga gb) s (fun t => Wrote s t n gd (BitVec.ofNat 32 (a.toNat * b.toNat / 4294967296)) (0) 2) ∧
    Answers (.mulq15 n q gd ga gb) s (fun t => Wrote s t n gd (let p := ((a.setWidth 16).toInt * (b.setWidth 16).toInt + 16384) / 32768; BitVec.ofInt 32 (max (-32768) (min 32767 p))) (if ((a.setWidth 16).toInt * (b.setWidth 16).toInt + 16384) / 32768 ≤ 32767 then 0 else 32) 2) ∧
    Answers (.mulq31 n q gd ga gb) s (fun t => Wrote s t n gd (let p := (a.toInt * b.toInt + 1073741824) / 2147483648; BitVec.ofInt 32 (max (-2147483648) (min 2147483647 p))) (if (a.toInt * b.toInt + 1073741824) / 2147483648 ≤ 2147483647 then 0 else 32) 2) ∧
    Answers (.div n q gd ga gb) s (fun t => Wrote s t n gd (if b = 0 then (if 0 ≤ a.toInt then 0x7FFFFFFF else 0x80000000) else if a = 0x80000000 ∧ b = 0xFFFFFFFF then 0x7FFFFFFF else BitVec.ofInt 32 (a.toInt.tdiv b.toInt)) (if b = 0 then 64 else if a = 0x80000000 ∧ b = 0xFFFFFFFF then 32 else 0) 18) ∧
    Answers (.divu n q gd ga gb) s (fun t => Wrote s t n gd (if b = 0 then 0xFFFFFFFF else a / b) (if b = 0 then 64 else 0) 18) ∧
    Answers (.rem n q gd ga gb) s (fun t => Wrote s t n gd (if b = 0 then a else if a = 0x80000000 ∧ b = 0xFFFFFFFF then 0 else BitVec.ofInt 32 (a.toInt.tmod b.toInt)) (if b = 0 then 64 else if a = 0x80000000 ∧ b = 0xFFFFFFFF then 32 else 0) 18) ∧
    Answers (.remu n q gd ga gb) s (fun t => Wrote s t n gd (if b = 0 then a else a % b) (if b = 0 then 64 else 0) 18) ∧
    Answers (.clz n q gd ga) s (fun t => Wrote s t n gd (if a = 0 then 32 else 31 - BitVec.ofNat 32 a.toNat.log2) 0 1) ∧
    Answers (.abs n q gd ga) s (fun t =>
      Wrote s t n gd (if a = 0x80000000 then 0x7FFFFFFF else if a.toInt < 0 then -a else a) (if a = 0x80000000 then 32 else 0) 1)

/-- Where the core issues it and FPTRAP is 0: FADD, FSUB, FMUL (3 cycles), FDIV (14), FMIN, FMAX, FABS, FNEG (1), FSQRT (14), ITOF, UTOF and the four FTOI (3), FMAC and FMSC (4, with gd as addend) write the result of the fp32 arithmetic of R243 to gd and add its flags to FPSR; FABS and FNEG change the sign bit only and set no flag. Nothing else changes. For all operand words: a NaN result of FADD, FSUB, FMUL, FDIV, FSQRT, FMAC or FMSC is 0x7FC0_0000; FMIN and FMAX give 0x7FC0_0000 for two NaNs and order -0.0 below +0.0; each FTOI of a NaN gives 0 with NV, and of a value beyond the signed range (2^31 and more) 0x7FFF_FFFF with NV. Readings and choices of the model that it rests on: log entries 77, 88. (R268, R273, 10_zynul_instruction_set.md Table 10-4, R243, R274.) -/
def Obligations.FloatingPointOperations : Prop :=
  (∀ (n : CoreId) (q : Pred) (gd ga gb : GReg) (s : State), issues s n q = true → rb s (coreCtrl n) 2 = false →
    let a := gOf s n ga
    let b := gOf s n gb
    Answers (.fadd n q gd ga gb) s (fun t => Wrote s t n gd (fpAdd a b).1 (fpAdd a b).2 3) ∧
    Answers (.fsub n q gd ga gb) s (fun t => Wrote s t n gd (fpSub a b).1 (fpSub a b).2 3) ∧
    Answers (.fmul n q gd ga gb) s (fun t => Wrote s t n gd (fpMul a b).1 (fpMul a b).2 3) ∧
    Answers (.fdiv n q gd ga gb) s (fun t => Wrote s t n gd (fpDiv a b).1 (fpDiv a b).2 14) ∧
    Answers (.fmin n q gd ga gb) s (fun t => Wrote s t n gd (fpMin a b).1 (fpMin a b).2 1) ∧
    Answers (.fmax n q gd ga gb) s (fun t => Wrote s t n gd (fpMax a b).1 (fpMax a b).2 1) ∧
    Answers (.fmac n q gd ga gb) s (fun t => Wrote s t n gd (fpFma a b (gOf s n gd)).1 (fpFma a b (gOf s n gd)).2 4) ∧
    Answers (.fmsc n q gd ga gb) s (fun t => Wrote s t n gd (fpFms a b (gOf s n gd)).1 (fpFms a b (gOf s n gd)).2 4) ∧
    Answers (.fsqrt n q gd ga) s (fun t => Wrote s t n gd (fpSqrt a).1 (fpSqrt a).2 14) ∧
    Answers (.itof n q gd ga) s (fun t => Wrote s t n gd (fpOfInt a.toInt).1 (fpOfInt a.toInt).2 3) ∧
    Answers (.utof n q gd ga) s (fun t => Wrote s t n gd (fpOfInt a.toNat).1 (fpOfInt a.toNat).2 3) ∧
    Answers (.ftoiN n q gd ga) s (fun t => Wrote s t n gd (fpToInt .near a).1 (fpToInt .near a).2 3) ∧
    Answers (.ftoiZ n q gd ga) s (fun t => Wrote s t n gd (fpToInt .zero a).1 (fpToInt .zero a).2 3) ∧
    Answers (.ftoiFl n q gd ga) s (fun t => Wrote s t n gd (fpToInt .floor a).1 (fpToInt .floor a).2 3) ∧
    Answers (.ftoiCe n q gd ga) s (fun t => Wrote s t n gd (fpToInt .ceil a).1 (fpToInt .ceil a).2 3) ∧
    Answers (.fabs n q gd ga) s (fun t => Wrote s t n gd (a &&& 0x7FFFFFFF) 0 1) ∧
    Answers (.fneg n q gd ga) s (fun t => Wrote s t n gd (a ^^^ 0x80000000) 0 1)) ∧
  (∀ (a b c : Word),
    (∀ r ∈ [fpAdd a b, fpSub a b, fpMul a b, fpDiv a b, fpSqrt a, fpFma a b c, fpFms a b c], fpIsNan r.1 = true → r.1 = 0x7FC00000) ∧
    (fpIsNan a = true → fpIsNan b = true → (fpMin a b).1 = 0x7FC00000 ∧ (fpMax a b).1 = 0x7FC00000) ∧
    (fpMin 0x80000000 0 = (0x80000000, 0) ∧ fpMin 0 0x80000000 = (0x80000000, 0) ∧ fpMax 0x80000000 0 = (0, 0) ∧ fpMax 0 0x80000000 = (0, 0)) ∧
    (∀ k : FMode, (fpIsNan a = true → fpToInt k a = (0, 16)) ∧
      (bitOf a 31 = false → 158 ≤ fld a 30 23 → fpIsNan a = false → fpToInt k a = (0x7FFFFFFF, 16))))

/-- Where the guard of an instruction does not hold, a load, a store, an AMO, an addition, a compare, a branch, a control-register write, and a send each take 1 cycle, go on to the next instruction, and change no register, predicate, flag, memory or other core, and take no trap. (R270.) -/
def Obligations.SuppressedInstructionOnlyPassesTime : Prop :=
  ∀ (n : CoreId) (q : Pred) (gd ga gb : GReg) (pd pc : PReg) (sz : Size) (o : BitVec 10) (f : BitVec 22) (cr : BitVec 12) (c : BitVec 4) (s : State),
    suppressed s n q = true → ∀ i ∈ ([.add n q gd ga gb, .ld n q gd ga sz o, .st n q gd ga sz o, .amoAdd n q gd ga gb, .cmp n q pd pc c ga gb,
      .br n q f, .mtc n q ga cr, .fsend n q gd ga, .frecv n q gd ga, .lut n q gd ga gb] : List Instr),
    Answers i s (fun t => (∀ r, gOf t n r = gOf s n r) ∧ ((coreOf t n).p, (coreOf t n).fpsr, (coreOf t n).ev, (coreOf t n).dscr) =
      ((coreOf s n).p, (coreOf s n).fpsr, (coreOf s n).ev, (coreOf s n).dscr) ∧ Advanced (coreOf s n) (coreOf t n) 1 ∧ OnlyCore s t n)

/-- Where the core issues it and the effective address is aligned: ST.W to the own data scratchpad stores the word little-endian in 2 cycles and leaves every other byte of it, every register and the shared memories; LD.W reads it back zero-free, LD.B and LDU.B extend the byte with and without sign; ST.W to the shared SRAM stores the four bytes at the address and no other, in the cycles of the slot rule R278 (4 to 19). Of every size and region: an aligned store has the effect of its region, and an aligned load whose word is good writes what the region gives, extended, in its cycles. Where the core issues it, the address in ga is a multiple of 4 in the shared SRAM and its word is good: gd takes the old word, the word becomes gb (AMO.SWAP) or the old word plus gb (AMO.ADD), no other byte of memory changes, in the cycles of the slot rule; no other register and no other core changes. Readings and choices of the model that it rests on: log entries 77, 79, 84. (R269, R277, R278, 10_zynul_instruction_set.md Table 10-6, R280, 10_zynul_instruction_set.md Table 10-5.) -/
def Obligations.ScratchpadAndSharedMemoryAccess : Prop :=
  (∀ (n : CoreId) (q : Pred) (gt base : GReg) (o : BitVec 10) (s : State), issues s n q = true →
    let a := (gOf s n base + BitVec.ofInt 32 (o.toInt * 4)).toNat
    let ab := (gOf s n base + BitVec.ofInt 32 o.toInt).toNat
    let byte (x : Nat) : Byte := kget (memDefault x) (coreOf s n).dscr x
    (0x10000000 ≤ a → a < 0x10040000 → a % 4 = 0 →
      Answers (.st n q gt base .w o) s (fun t =>
        bytesGet (coreOf t n).dscr a 4 = (gOf s n gt).toNat ∧
        (∀ x, (x < a ∨ a + 4 ≤ x) → kget (memDefault x) (coreOf t n).dscr x = byte x) ∧
        (∀ r, gOf t n r = gOf s n r) ∧ (∀ x, memByte t x = memByte s x) ∧ Advanced (coreOf s n) (coreOf t n) 2 ∧
        (∀ m, m ≠ n.val → coreOf t m = coreOf s m))) ∧
    (0x10000000 ≤ a → a < 0x10040000 → a % 4 = 0 → kget 0 s.flt.ecc (eccKey (7 + n.val) a) = 0 →
      Answers (.ld n q gt base .w o) s (fun t => Wrote s t n gt (BitVec.ofNat 32 (bytesGet (coreOf s n).dscr a 4)) 0 2)) ∧
    (0x10000000 ≤ ab → ab < 0x10040000 → kget 0 s.flt.ecc (eccKey (7 + n.val) ab) = 0 →
      Answers (.ld n q gt base .b o) s (fun t => Wrote s t n gt ((byte ab).signExtend 32) 0 2) ∧
      Answers (.ldu n q gt base .b o) s (fun t => Wrote s t n gt ((byte ab).zeroExtend 32) 0 2)) ∧
    (∀ sz : Size, quadOk sz gt = true →
      let e := effAddr s n base sz o
      e % sz.bytes = 0 → regionOf e ≠ .none →
      Answers (.st n q gt base sz o) s (fun t => t = storeAt s n e sz (storeVal s n gt sz)) ∧
      (∀ v, (loadAt s n e sz).2.1 = some v →
        Answers (.ld n q gt base sz o) s (fun t => t = finish (loadPut (loadAt s n e sz).1 n gt sz true v) n (loadAt s n e sz).2.2) ∧
        (sz = .b ∨ sz = .h →
          Answers (.ldu n q gt base sz o) s (fun t => t = finish (loadPut (loadAt s n e sz).1 n gt sz false v) n (loadAt s n e sz).2.2)))) ∧
    (0x20000000 ≤ a → a < 0x20400000 → a % 4 = 0 →
      Answers (.st n q gt base .w o) s (fun t =>
        bytesGet t.mem a 4 = (gOf s n gt).toNat ∧ (∀ x, (x < a ∨ a + 4 ≤ x) → memByte t x = memByte s x) ∧
        (∀ r, gOf t n r = gOf s n r) ∧ (coreOf t n).dscr = (coreOf s n).dscr ∧
        Advanced (coreOf s n) (coreOf t n) (slotCycles (coreOf s n) n) ∧ 4 ≤ slotCycles (coreOf s n) n ∧ slotCycles (coreOf s n) n ≤ 19 ∧
        (∀ m, m ≠ n.val → coreOf t m = coreOf s m)))) ∧
  (∀ (n : CoreId) (q : Pred) (gd ga gb : GReg) (s : State), issues s n q = true →
    let a := (gOf s n ga).toNat
    let old := BitVec.ofNat 32 (bytesGet s.mem a 4)
    0x20000000 ≤ a → a < 0x20400000 → a % 4 = 0 → kget 0 s.flt.ecc (eccKey 0 a) = 0 →
    ∀ e ∈ ([(.amoSwap n q gd ga gb, gOf s n gb), (.amoAdd n q gd ga gb, old + gOf s n gb)] : List (Instr × Word)),
    Answers e.1 s (fun t => bytesGet t.mem a 4 = e.2.toNat ∧ (∀ x, (x < a ∨ a + 4 ≤ x) → memByte t x = memByte s x) ∧
      gOf t n gd = (if gd = 0 then 0 else old) ∧ (∀ r : Nat, r ≠ gd.val → gOf t n r = gOf s n r) ∧
      Advanced (coreOf s n) (coreOf t n) (slotCycles (coreOf s n) n) ∧ (∀ m, m ≠ n.val → coreOf t m = coreOf s m)))

/-- Where the core issues it, no STEP is running and no LOOP is active: BR goes to PC + 4 off in 2 cycles; CALL also writes PC + 4 to g31; JR and JALR go to ga + imm12 in 3 cycles where that is a multiple of 4, JALR linking to gd, and otherwise take the ACCESS trap; LOOP with imm12 above 0 loads LOOPCNT with ga and LOOPEND with the address of the last instruction of the body, or skips the body when ga is 0. In every state in which the core issues them, a LOOP active or not, each is carried out as that operation. Where the core issues an instruction at LOOPEND with LOOPCNT above 0, completing it decrements LOOPCNT and continues at the first instruction of the body while LOOPCNT is still above 0, else at the next instruction; stated of ADD and SYNCSLOT, which take 1 cycle and the cycles of R279 (1 to 16). Readings and choices of the model that it rests on: log entries 77, 80, 82. (R276, 10_zynul_instruction_set.md Table 10-5, R279.) -/
def Obligations.BranchesAndLoops : Prop :=
  (∀ (n : CoreId) (q : Pred) (gd ga : GReg) (f : BitVec 22) (i : BitVec 12) (s : State), issues s n q = true →
    (coreOf s n).loopCnt = 0 → (coreOf s n).stepOne = false → (coreOf s n).exl = false →
    let c := coreOf s n
    let rel := c.pc + BitVec.ofInt 32 (4 * f.toInt)
    let tgt := gOf s n ga + i.signExtend 32
    let last := c.pc + BitVec.ofNat 32 (4 * i.toNat)
    let went (t : State) (link : Nat) (pc : Word) (cyc : Word) : Prop :=
      (coreOf t n).pc = pc ∧ (coreOf t n).cycle = c.cycle + cyc ∧ (coreOf t n).loopCnt = 0 ∧
      (∀ r, gOf t n r = if r = 0 then 0 else if r = link then c.pc + 4 else gOf s n r) ∧
      ((coreOf t n).p, (coreOf t n).fpsr, (coreOf t n).ev, (coreOf t n).dscr) = (c.p, c.fpsr, c.ev, c.dscr) ∧ OnlyCore s t n
    Answers (.br n q f) s (fun t => went t 0 rel 2) ∧
    Answers (.call n q f) s (fun t => went t 31 rel 2) ∧
    (tgt.toNat % 4 = 0 → Answers (.jr n q ga i) s (fun t => went t 0 tgt 3) ∧ Answers (.jalr n q gd ga i) s (fun t => went t gd tgt 3)) ∧
    (tgt.toNat % 4 ≠ 0 → Answers (.jalr n q gd ga i) s (fun t => Trapped c (coreOf t n) 2 c.pc (vector s n 2) false ∧ OnlyCore s t n)) ∧
    (∀ g : State, issues g n q = true → Answers (.br n q f) g (fun t => t = finishAt g n 2 (relTarget g n f)) ∧
      Answers (.call n q f) g (fun t => t = finishAt (setG g n 31 ((coreOf g n).pc + 4)) n 2 (relTarget g n f)) ∧
      Answers (.jr n q ga i) g (fun t => t = jump g n 0 (gOf g n ga + simm i)) ∧
      Answers (.jalr n q gd ga i) g (fun t => t = jump g n gd (gOf g n ga + simm i)) ∧
      Answers (.loop n q ga i) g (fun t => t = loopBegin g n ga i) ∧
      Answers (.rte n q) g (fun t => t = modCore g n fun c => stepEnd { spend c 3 with pc := c.epc, ie := c.pie, exl := false })) ∧
    (i ≠ 0 → gOf s n ga ≠ 0 → Answers (.loop n q ga i) s (fun t =>
      ((coreOf t n).loopCnt, (coreOf t n).loopEnd, (coreOf t n).pc, (coreOf t n).cycle) = (gOf s n ga, last, c.pc + 4, c.cycle + 1) ∧
      (∀ r, gOf t n r = gOf s n r) ∧ OnlyCore s t n)) ∧
    (i ≠ 0 → gOf s n ga = 0 → Answers (.loop n q ga i) s (fun t =>
      ((coreOf t n).loopCnt, (coreOf t n).pc, (coreOf t n).cycle) = (0, last + 4, c.cycle + 1) ∧ (∀ r, gOf t n r = gOf s n r) ∧ OnlyCore s t n))) ∧
  (∀ (n : CoreId) (q : Pred) (gd ga gb : GReg) (s : State), issues s n q = true → (coreOf s n).loopCnt ≠ 0 →
    (coreOf s n).pc = (coreOf s n).loopEnd →
    let c := coreOf s n
    let wraps (t : State) : Prop := (coreOf t n).loopCnt = c.loopCnt - 1 ∧ (coreOf t n).loopEnd = c.loopEnd ∧
      (coreOf t n).pc = (if c.loopCnt = 1 then c.pc + 4 else c.loopTop)
    Answers (.add n q gd ga gb) s (fun t => wraps t ∧ (coreOf t n).cycle = c.cycle + 1) ∧
    Answers (.syncslot n q) s (fun t => wraps t ∧ (∀ r, gOf t n r = gOf s n r) ∧ OnlyCore s t n ∧
      ∃ k, 1 ≤ k ∧ k ≤ 16 ∧ (coreOf t n).cycle = c.cycle + BitVec.ofNat 32 k ∧ ((coreOf t n).frame + 1) % 16 = 4 * n.val % 16))

/-- Where the core issues it: WAIT with a flag of its mask set writes those flags to gd, clears them (not one that an event sets in that cycle) and completes in 3 cycles; with none set it suspends the core; TWAIT clears TICK and suspends; SIG sets bit 16 + CORE in the core that ga[1:0] names; HALT halts behind itself. A waiting core with a flag of its mask wakes, and a TWAIT whose tick has been applied completes 3 cycles later with TICK cleared. Readings and choices of the model that it rests on: log entries 77, 78, 87. (R283, R284, R286, 10_zynul_instruction_set.md Table 10-5.) -/
def Obligations.WaitingForEventsAndTicks : Prop :=
  ∀ (n : CoreId) (q : Pred) (gd ga : GReg) (s : State),
    let c := coreOf s n
    let m := gOf s n ga
    (issues s n q = true → m ≠ 0 → evNow c &&& m ≠ 0 → Answers (.wait n q gd ga) s (fun t =>
      gOf t n gd = (if gd = 0 then 0 else evNow c &&& m) ∧ (coreOf t n).ev = c.ev &&& ~~~ (evNow c &&& m &&& ~~~ c.evNew) ∧
      (coreOf t n).cycle = c.cycle + 3 ∧ OnlyCore s t n)) ∧
    (issues s n q = true → m ≠ 0 → evNow c &&& m = 0 → Answers (.wait n q gd ga) s (fun t =>
      coreOf t n = { c with st := .waiting, wait := some (.flags gd m) } ∧ OnlyCore s t n)) ∧
    (issues s n q = true → Answers (.twait n q) s (fun t =>
      coreOf t n = { c with ev := c.ev &&& ~~~ (0x100 &&& ~~~ c.evNew), st := .waiting, wait := some .tick, woken := false } ∧ OnlyCore s t n)) ∧
    (issues s n q = true → m.toNat % 4 = n.val → Answers (.sig n q ga) s (fun t =>
      (coreOf t n).ev = c.ev ||| (1#32 <<< (16 + n.val)) ∧ Advanced c (coreOf t n) 1 ∧ (∀ r, gOf t n r = gOf s n r) ∧ OnlyCore s t n)) ∧
    (issues s n q = true → m.toNat % 4 ≠ n.val → Answers (.sig n q ga) s (fun t =>
      coreOf t (m.toNat % 4) = { coreOf s (m.toNat % 4) with ev := (coreOf s (m.toNat % 4)).ev ||| (1#32 <<< (16 + n.val)),
                                                              evNew := (coreOf s (m.toNat % 4)).evNew ||| (1#32 <<< (16 + n.val)) } ∧
      Advanced c (coreOf t n) 1 ∧ (∀ r, gOf t n r = gOf s n r) ∧ { t with cores := s.cores } = s)) ∧
    (issues s n q = true → Answers (.halt n q) s (fun t => (coreOf t n).st = .halted ∧ (coreOf t n).cycle = c.cycle + 1 ∧
      (∀ r, gOf t n r = gOf s n r) ∧ OnlyCore s t n)) ∧
    (s.sys.inReset = false → c.st = .waiting → c.wait = some (.flags gd m) → evNow c &&& m ≠ 0 → Answers (.waitWake n) s (fun t =>
      gOf t n gd = (if gd = 0 then 0 else evNow c &&& m) ∧ (coreOf t n).ev = c.ev &&& ~~~ (evNow c &&& m) ∧ (coreOf t n).wait = none ∧ OnlyCore s t n)) ∧
    (s.sys.inReset = false → c.st = .waiting → c.wait = some .tick → c.woken = true → c.stepOne = false → Answers (.twaitWake n) s (fun t =>
      (coreOf t n).st = .running ∧ (coreOf t n).ev = c.ev &&& 0xFFFFFEFF ∧ (coreOf t n).cycle = c.cycle + 3 ∧ (coreOf t n).wait = none ∧
      (∀ r, gOf t n r = gOf s n r) ∧ OnlyCore s t n))

/-- Where the core issues it: MFC of each number 0 to 10 writes that control register to gd in 2 cycles; MTC of a read-only number changes no control register, of EPC, LOOPCNT or LOOPEND writes it, of EVFLAGS (not one that an event sets in that cycle) or FPSR clears the bits that are 1, of STATUS sets IE, EXL and PIE; a number above 10 takes the ILLEGAL trap; with a LOOP active MTC does the same and goes on as an instruction there. RTE sets the PC to EPC, copies PIE to IE and clears EXL in 3 cycles. Readings and choices of the model that it rests on: log entries 77, 80. (R271, R287, 10_zynul_instruction_set.md Table 10-1.) -/
def Obligations.ControlRegisters : Prop :=
  ∀ (n : CoreId) (q : Pred) (gd ga : GReg) (cr : BitVec 12) (s : State), issues s n q = true →
    let c := coreOf s n
    let v := gOf s n ga
    (∀ w, [c.cycle, BitVec.ofNat 32 (phaseOf s), BitVec.ofNat 32 n.val, BitVec.ofNat 32 (b2n c.pie * 4 + b2n c.exl * 2 + b2n c.ie), c.epc,
        BitVec.ofNat 32 (b2n c.nested * 16 + c.cause % 16), evNow c, c.fpsr.zeroExtend 32, c.loopCnt, c.loopEnd,
        BitVec.ofNat 32 (c.frame % 16)][cr.toNat]? = some w →
      Answers (.mfc n q gd cr) s (fun t => Wrote s t n gd w 0 2)) ∧
    (c.loopCnt = 0 → cr.toNat ≤ 10 → Answers (.mtc n q ga cr) s (fun t =>
      (coreOf t n).epc = (if cr = 4 then v else c.epc) ∧ (coreOf t n).loopEnd = (if cr = 9 then v else c.loopEnd) ∧
      (coreOf t n).ev = (if cr = 6 then c.ev &&& ~~~ (v &&& ~~~ c.evNew) else c.ev) ∧
      (coreOf t n).fpsr = (if cr = 7 then c.fpsr &&& ~~~ (v.setWidth 8) else c.fpsr) ∧
      ((coreOf t n).ie, (coreOf t n).exl, (coreOf t n).pie) = (if cr = 3 then (v.getLsbD 0, v.getLsbD 1, v.getLsbD 2) else (c.ie, c.exl, c.pie)) ∧
      (coreOf t n).loopCnt = (if cr = 8 then (if v ≠ 0 ∧ c.pc = c.loopEnd then v - 1 else v) else 0) ∧
      (coreOf t n).cycle = c.cycle + 2 ∧ (coreOf t n).cause = c.cause ∧ (∀ r, gOf t n r = gOf s n r) ∧ OnlyCore s t n)) ∧
    (c.exl = false → 10 < cr.toNat → Answers (.mtc n q ga cr) s (fun t => Trapped c (coreOf t n) 1 c.pc (vector s n 1) false ∧ OnlyCore s t n)) ∧
    (cr.toNat ≤ 10 → Answers (.mtc n q ga cr) s (fun t => coreOf t n = endPlain (crPut c cr.toNat v) 2 ∧ OnlyCore s t n)) ∧
    (c.stepOne = false → Answers (.rte n q) s (fun t =>
      coreOf t n = { c with pc := c.epc, ie := c.pie, exl := false, cycle := c.cycle + 3, frame := (c.frame + 3) % 16 } ∧ OnlyCore s t n))

/-- A word that R271 makes illegal, issued with EXL 0, enters the ILLEGAL trap: EPC is the instruction, PIE takes IE, IE is cleared, EXL set, PC = VBASE + 0x20 in 4 cycles; with EXL 1 the core halts in DOUBLE and reports ZC_DOUBLE. A due interrupt (IE 1, EXL 0, an enabled line pending) enters cause 5, a due NMT cause 6, with NESTED set when EXL was 1; each leaves registers and predicates. Readings and choices of the model that it rests on: log entries 78, 81. (R287, R288, R289, R290, R291.) -/
def Obligations.TrapsAndInterrupts : Prop :=
  ∀ (n : CoreId) (w : Word) (s : State),
    let c := coreOf s n
    (issues s n (wordPred w) = true → wordLegal w = false → c.exl = false → Answers (.illegalInstruction n w) s (fun t =>
      Trapped c (coreOf t n) 1 c.pc (vector s n 1) false ∧ OnlyCore s t n)) ∧
    (issues s n (wordPred w) = true → wordLegal w = false → c.exl = true → notInjecting s = true → Answers (.illegalInstruction n w) s (fun t =>
      (coreOf t n).st = .double ∧ bitOf (reg t (coreStat n)) 10 = true ∧ Reports s t (448 + n.val) .zcDouble (coreStat n) ∧
      (∀ r, gOf t n r = gOf s n r) ∧ (coreOf t n).pc = c.pc)) ∧
    (s.sys.inReset = false → coreRuns c = true → irqDue s n = true → haltDue s n = false → nmtDue s n = false →
      Answers (.interruptEntry n) s (fun t => Trapped c (coreOf t n) 5 c.pc (vector s n 5) false ∧ (coreOf t n).wait = none ∧ OnlyCore s t n)) ∧
    (s.sys.inReset = false → coreRuns c = true → nmtDue s n = true → haltDue s n = false →
      Answers (.nmtEntry n) s (fun t => Trapped c (coreOf t n) 6 c.pc (vector s n 6) c.exl ∧ (coreOf t n).nmtReq = false ∧ OnlyCore s t n))

/-- Where the core issues it: FSEND with an image whose status by R292 is 0 and whose words are good appends the packet, with SRC set to the own endpoint index 0, to the transmit queue and writes 0 to gd; FRECV with an empty queue writes 0; with a packet and room for it removes the oldest and writes 2 + LEN; LUT over a good table of 2 to 4,096 entries writes the value of R295 in 12 cycles. Readings and choices of the model that it rests on: log entries 77, 86, 87. (R292, R294, R295.) -/
def Obligations.FabricSendReceiveAndLookup : Prop :=
  ∀ (n : CoreId) (q : Pred) (gd ga gb : GReg) (s : State), issues s n q = true →
    let c := coreOf s n
    let a := (gOf s n ga).toNat
    (fsendStatus s n a = 0 → (∀ e ∈ s.flt.ecc, e.1 < eccKey (7 + n.val) 0x10000000 ∨ eccKey (7 + n.val) 0x10040000 ≤ e.1) →
      Answers (.fsend n q gd ga) s (fun t => (coreOf t n).txq = c.txq ++ [imagePacket s n a] ∧ gOf t n gd = 0 ∧
        (imagePacket s n a).src = BitVec.ofNat 20 ((nodeId s).toNat * 64) ∧
        (coreOf t n).cycle = c.cycle + BitVec.ofNat 32 (2 + (8 + 4 * (imagePacket s n a).len + 15) / 16) ∧ (coreOf t n).dscr = c.dscr)) ∧
    (c.rxq = [] → Answers (.frecv n q gd ga) s (fun t => Wrote s t n gd 0 0 2)) ∧
    (∀ k r, c.rxq = k :: r → a % 4 = 0 → 0x10000000 ≤ a → a + 4 * (2 + k.len) ≤ 0x10040000 →
      Answers (.frecv n q gd ga) s (fun t => (coreOf t n).rxq = r ∧ gOf t n gd = (if gd = 0 then 0 else BitVec.ofNat 32 (2 + k.len)) ∧
        (∀ x, memByte t x = memByte s x) ∧ (∀ m, m ≠ n.val → coreOf t m = coreOf s m))) ∧
    (imageFits a 4 = true → 2 ≤ (scrWord s n (a + 8)).toNat → (scrWord s n (a + 8)).toNat ≤ 4096 → imageFits a (4 + (scrWord s n (a + 8)).toNat) = true →
      s.flt.ecc = [] → rb s (coreCtrl n) 2 = false →
      Answers (.lut n q gd ga gb) s (fun t =>
        let r := lutEval (scrWord s n a) (scrWord s n (a + 4)) (scrWord s n (a + 8)).toNat (fun i => scrWord s n (a + 16 + 4 * i)) (gOf s n gb)
        Wrote s t n gd r.1 r.2 12))

/-- Written by any agent to an unfenced, clocked ZCC: RUN and STEP start a core that is HALTED or in DOUBLE with CYCLE 0 (unless the boot ROM has stopped), STEP for one instruction; HALT at a waiting core halts it at once and at a running core is kept until the boundary, where the core halts. A window read of a halted core returns the word of its scratchpads at the window address, which goes on by 4; a window write stores it. Readings and choices of the model that it rests on: log entries 79, 81. (R296, R297.) -/
def Obligations.CoreControl : Prop :=
  ∀ (o : Origin) (n : CoreId) (v : Word) (s : State), s.sys.inReset = false → reachable s (coreCtrl n) = true →
    let c := coreOf s n
    let w := zccR (0x100 * n.val + 0x14)
    let a := (reg s w).toNat / 4 * 4
    (s.sys.stopped = false → (c.st = .halted ∨ c.st = .double) → Answers (.coreRun o n) s (fun t => (coreOf t n).st = .running ∧ (coreOf t n).cycle = 0 ∧ (coreOf t n).stepOne = false ∧
      (coreOf t n).pc = c.pc ∧ (coreOf t n).g = c.g ∧ (∀ m, m ≠ n.val → coreOf t m = coreOf s m))) ∧
    (s.sys.stopped = false → (c.st = .halted ∨ c.st = .double) → Answers (.coreStep o n) s (fun t => (coreOf t n).st = .running ∧ (coreOf t n).cycle = 0 ∧ (coreOf t n).stepOne = true ∧
      (coreOf t n).pc = c.pc ∧ (coreOf t n).g = c.g ∧ (∀ m, m ≠ n.val → coreOf t m = coreOf s m))) ∧
    (c.st = .waiting → Answers (.coreHalt o n) s (fun t => (coreOf t n).st = .halted ∧ (coreOf t n).wait = none ∧ (coreOf t n).pc = c.pc ∧
      (∀ m, m ≠ n.val → coreOf t m = coreOf s m))) ∧
    (c.st = .running → Answers (.coreHalt o n) s (fun t => rb t (coreCtrl n) 6 = true ∧ coreOf t n = c)) ∧
    (coreRuns c = true → haltDue s n = true → Answers (.coreHalted n) s (fun t => (coreOf t n).st = .halted ∧ (coreOf t n).pc = c.pc ∧
      (∀ r, gOf t n r = gOf s n r) ∧ (∀ m, m ≠ n.val → coreOf t m = coreOf s m))) ∧
    (c.st = .halted → reachable s (zccR (0x100 * n.val + 0x18)) = true → (a < 0x20000 ∨ (0x10000000 ≤ a ∧ a < 0x10040000)) →
      Answers (.scratchpadWindowAccess o n (some v)) s (fun t => scrGet (coreOf t n) a 4 = v.toNat ∧ reg t w = reg s w + 4) ∧
      (kget 0 s.flt.ecc (eccKey (if a < 0x20000 then 3 + n.val else 7 + n.val) a) = 0 → Answers (.scratchpadWindowAccess o n none) s (fun t =>
        t.rdata = BitVec.ofNat 32 (scrGet c a 4) ∧ reg t w = reg s w + 4 ∧ coreOf t n = c)))

/-- For every command c and state s with c at the front of its queue, step of s is exec of c on s with the rest of the queue. With an empty queue the step is one clock cycle (DESIGN CHOICE, log entry 1): outside reset LT counts on by one, and the memories, the mode, the guard and the island stand; with no tick running, no run of the loop engine, no packet in search of a way and settled pulse inputs the registers stand too. In a chip reset LT alone counts; in power-on reset nothing changes. Readings and choices of the model that it rests on: log entry 1. (R39.) -/
def Obligations.StepRunsFrontCommand : Prop :=
  (∀ (c : Instr) (r : List Instr) (s : State), s.pending = c :: r → step s = exec c { s with pending := r }) ∧
    (∀ s : State, s.pending = [] → s.sys.inReset = false → ∃ t, step s = .next t ∧ t.lt = s.lt + 1 ∧ t.pending = [] ∧
      (t.mem, t.sys, t.swg, t.saf, t.nv) = (s.mem, s.sys, s.swg, s.saf, s.nv) ∧
      (s.trr.orphans = [] → s.lpe.runs = [] → s.tmk.ticked = false → s.sns.rawA = s.sns.pa → s.sns.rawB = s.sns.pb →
        (t.regs, t.flt) = (s.regs, s.flt))) ∧
    (∀ s : State, s.pending = [] → s.sys.inReset = true →
      step s = .next (if s.sys.porRst then s else { s with lt := s.lt + 1, hwSet := [], swSet := [] }))

/-- For every command and every state exec answers a next state, never a fault and never a refusal: a command whose conditions do not hold is turned away with the effects the spec gives that. Each command listed (reset, modes, register access, time, lanes, packets, walk and Cayennes), with every operand and in every state out of reset, completes with the state that the model’s operation of its chapter gives; in reset it changes nothing, but for POWER_ON_RESET, RESET_RELEASE and FEED_IMBALANCE, which act there too. Readings and choices of the model that it rests on: log entry 6. (95_what_each_step_holds.md, 01_architecture.md, 02_tick_and_time.md, 03_trellis_lanes.md, 04_trellis_fabric.md, 17_supply_start_and_modes.md.) -/
def Obligations.EveryCommandAnswers : Prop :=
  (∀ (c : Instr) (s : State), ∃ t, exec c s = .next t) ∧
  (∀ s : State,
    let does (c : Instr) (f : State → State) : Prop := exec c s = .next (if s.sys.inReset then s else f s)
    (exec .powerOnReset s = .next (powerOn s)) ∧
    (∀ (straps : BitVec 3) (testmode : Bool), exec (.resetRelease straps testmode) s = .next (resetRelease s straps testmode)) ∧
    (∀ (o : Origin) (sz : Size) (addr val : Word), does (.registerWrite o sz addr val) fun s => regWriteCmd s o sz addr.toNat val) ∧
    (∀ (u : Origin) (addr : Word), does (.timeLowWordRead u addr) fun s => if reachable s addr.toNat then lowRead s addr.toNat else { s with rdata := 0 }) ∧
    (∀ (o : Origin), does (.modeCmdPrecharge o) fun s => modeCmd s o 1) ∧
    (∀ (o : Origin), does (.modeCmdReady o) fun s => modeCmd s o 2) ∧
    (∀ (o : Origin), does (.modeCmdRun o) fun s => modeCmd s o 3) ∧
    (∀ (o : Origin), does (.modeCmdSafe o) fun s => modeCmd s o 5) ∧
    (∀ (o : Origin), does (.modeCmdChipReset o) fun s => modeCmd s o 7) ∧
    (does .modeCmdTakeEffect cmdEffect) ∧
    (does .degradedTimerExpiry fun s => if modeOf s == .degraded && s.flt.degTil.any (decide <| · ≤ now s) then enterSafe s 20 (some s.flt.degNow) else s) ∧
    (∀ (x : TickIn), does (.stationTickBoundary x) (tickWhen stationTick x)) ∧
    (does .tickSymbolLaunch tickLaunch) ∧
    (∀ (p : Port) (tt : BitVec 6) (dly : BitVec 2) (at_ps : Nat), does (.tickSymbolRx p tt dly at_ps) fun s => symbolIn s p.val tt.toNat dly.toNat at_ps) ∧
    (∀ (x : TickIn), does (.tickApply x) (tickWhen symbolTick x)) ∧
    (∀ (x : TickIn), does (.tickExpectedTimeout x) (tickWhen missedTick x)) ∧
    (∀ (o : Origin) (val : Word), does (.tickPeriodWrite o val) fun s => periodWrite s o val) ∧
    (∀ (p : Port) (ann : Announce), does (.renumberRx p ann) fun s => alignSync (announceIn (creditSend s p 1 0 0) p.val ann)) ∧
    (does .periodBoundary fun s => alignSync (periodBoundary s)) ∧
    (does .renumberBoundary fun s => alignSync (renumberBoundary s)) ∧
    (∀ (p : Port), does (.ticknoReqRx p) fun s => ticknoAnswer (creditSend s p 1 0 0) p.val) ∧
    (∀ (o : Origin), does (.couple o) fun s => tmkCtrlWrite s o (tmkCtrlBit s 2)) ∧
    (∀ (o : Origin), does (.decouple o) fun s => tmkCtrlWrite s o (tmkCtrlBit s 3)) ∧
    (∀ (o : Origin) (on : Bool), does (.pt0ValidSet o on) fun s => tmkCtrlWrite s o (setBit 0 1 on)) ∧
    (∀ (o : Origin), does (.remeasure o) fun s => tmkCtrlWrite s o (tmkCtrlBit s 4)) ∧
    (∀ (o : Origin) (m : Fin 8) (val : Word), does (.cmpArm o m val) fun s => cmpArm s o m.val val) ∧
    (∀ (m : Fin 8), does (.cmpFire m) fun s => cmpTry s m.val) ∧
    (∀ (o : Origin) (m : Fin 8) (val : Word), does (.cmpCancel o m val) fun s => cmpCtrl s o m.val val) ∧
    (∀ (o : Origin) (p : Port) (val : Word), does (.portCfgWrite o p val) fun s => gate s (trlCfg p) fun s => portCfg s o p val) ∧
    (∀ (o : Origin) (p : Port), does (.portRetrain o p) fun s => gate s (trlCfg p) fun s => portCfg s o p (setBit (reg s (trlCfg p)) 31 true)) ∧
    (∀ (p : Port), does (.portDetectDone p) fun s => if mayTrain s p then modPort s p fun t => { t with stage := .train, since := now s, hop := [] } else s) ∧
    (∀ (p : Port) (t1 t2 t3 t4 : Nat), does (.timingExchangeRx p t1 t2 t3 t4) fun s => exchange s p.val t1 t2 t3 t4) ∧
    (∀ (p : Port) (block : List Byte), does (.capsBlockRx p block) fun s => capsIn s p block) ∧
    (∀ (p : Port), does (.portActive p) fun s => portActive s p) ∧
    (∀ (p : Port), does (.stageTimeout p) fun s => stageOut s p) ∧
    (∀ (p : Port), does (.portRetryHoldEnd p) fun s => modPort s p fun t => if t.holdUntil ≤ now s then { t with holdUntil := 0 } else t) ∧
    (∀ (p : Port) (c : LossCause), does (.linkLoss p c) fun s => if isActive s p && lossSeen s p c then toDetect s p true else s) ∧
    (∀ (p : Port), does (.idleExit p) fun s => idleExit s p) ∧
    (∀ (o : Origin) (val : Word), does (.eyeStart o val) fun s => gate s (trlR 0x040) fun s => eyeWrite s o (setBit (setBit val 31 true) 30 false)) ∧
    (∀ (o : Origin) (val : Word), does (.eyeAbort o val) fun s => gate s (trlR 0x040) fun s => eyeWrite s o (setBit val 30 true)) ∧
    (does .c1WindowEnd fun s => if c1End s ≤ phaseOf s then allPorts s fun s p => if (portOf s p.val).q2.isEmpty then s else txStart s p else s) ∧
    (∀ (src : Option Port) (pk : Packet) (arr : Arrival), does (.packetRoute src pk arr) fun s => receive s (src.map (·.val)) pk arr) ∧
    (∀ (src : Option Port) (pk : Packet) (arr : Arrival), does (.packetAcceptLocal src pk arr) fun s => if isMine s (src.map (·.val)) pk then receive s (src.map (·.val)) pk arr else s) ∧
    (∀ (pk : Packet), does (.wrReqRx pk) fun s => ownIn s [0x01] pk fun s => requestIn s pk) ∧
    (∀ (pk : Packet), does (.rdReqRx pk) fun s => ownIn s [0x02] pk fun s => requestIn s pk) ∧
    (∀ (pk : Packet), does (.wrCplRx pk) fun s => ownIn s [0x03] pk fun s => complIn s pk) ∧
    (∀ (pk : Packet), does (.rdCplRx pk) fun s => ownIn s [0x04] pk fun s => complIn s pk) ∧
    (∀ (pk : Packet), does (.errCplRx pk) fun s => ownIn s [0x05] pk fun s => complIn s pk) ∧
    (∀ (o : Origin) (val : Word), does (.discStart o val) fun s => discStart s o (setBit val 31 true)) ∧
    (∀ (p : Port), does (.probeRx p) fun s => probeAnswer (creditC2 s p.val) p.val) ∧
    (∀ (pk : Packet), does (.probeViaRx pk) fun s => ownIn s [0x0B] pk fun s => if epOf pk.dest = 0 then probeVia s pk else s) ∧
    (does .probeTimeout (walkAgain probeTimeout)) ∧
    (∀ (pk : Packet), does (.identRx pk) fun s => hopIn s 0x09 pk fun s => identIn s pk) ∧
    (∀ (p : Port) (pk : Packet), does (.assignRx p pk) fun s => hopIn (creditC2 s p.val) 0x0A pk fun s => assignIn s p.val pk) ∧
    (∀ (pk : Packet), does (.delegateRx pk) fun s => ownIn s [0x0C] pk fun s => if epOf pk.dest = 0 then delegateIn s pk else s) ∧
    (∀ (src : BitVec 20) (cells : BitVec 14), does (.delegateReturnRx src cells) (walkAgain fun s => delegateReturn s src cells.toNat)) ∧
    (∀ (reporter : BitVec 14) (p : Port) (expect : BitVec 2) (ident : Packet), does (.newLinkHandle reporter p expect ident) fun s => newLink s reporter p.val expect.toNat (identParse ident.payload)) ∧
    (∀ (lost : BitVec 14), does (.routeRepair lost) fun s => repair s lost) ∧
    (∀ (o : Origin) (val : Word), does (.cayLaunchWrite o val) fun s => cayCtrlWrite s o (setBit val 31 true)) ∧
    (∀ (ports : BitVec 6) (scope : BitVec 2) (hops : BitVec 6) (at_ps : Nat), does (.cayenneRx ports scope hops at_ps) fun s => cayReceive s ports.toNat scope.toNat hops.toNat at_ps) ∧
    (does .cayHoldExpiry fun s => modTrr s fun t => { t with hold := t.hold.filter fun e => e.2.any (decide <| now s < ·) }) ∧
    (∀ (u : Origin) (val : Word), does (.cayStatClear u val) fun s => cayStatWrite s val) ∧
    (∀ (pk : Packet), does (.referenceRx pk) fun s => ownIn s [0x19] pk fun s => if epOf pk.dest = 32 then referenceIn s pk else s) ∧
    (∀ (pk : Packet), does (.tickReportRx pk) fun s => ownIn s [0x18] pk fun s => toCore s pk) ∧
    (∀ (pk : Packet), does (.tblBufWrite pk) fun s => ownIn s [0x01] pk fun s => if 0x40008000 ≤ (pk.payload.getD 0 0).toNat ∧ (pk.payload.getD 0 0).toNat < 0x40010000 then requestIn s pk else s) ∧
    (does .xhpFread fun s => xIssue s 3 0x02) ∧
    (does .xhpFwrite fun s => xIssue s 4 0x01) ∧
    (∀ (pk : Packet), does (.eventRx pk) fun s => ownIn s [0x21] pk fun s => if 56 ≤ epOf pk.dest then eventIn s pk else s) ∧
    (∀ (mvA mvB : BitVec 16), exec (.feedImbalance mvA mvB) s = .next (feedGates (modSup s fun u => { u with mvA := mvA, mvB := mvB }))) ∧
    (∀ (p : Port), does (.symbolRealign p) fun s => if dirOf s p = 0 then s else modPort s p fun t => { t with cleanFrom := now s }))

/-- Each command listed, with every operand and in every state out of reset, completes with the state that the model’s operation of its chapter gives; in reset it changes nothing. Each instruction listed (loads, stores, AMO, compares, branches, LOOP, TWAIT, WAIT, RTE, SYNCSLOT, HALT, MFC, MTC, FSEND, FRECV, LUT) completes so wherever its core issues it, with every operand, those that R271 calls illegal included, which take that trap. Readings and choices of the model that it rests on: log entry 6. (95_what_each_step_holds.md, 05_riddle_balancing.md, 06_insertion_and_modulation.md, 07_switch_guard_and_energy_ledger.md, 08_sense_front_end.md, 09_loop_engine.md, 10_zynul_instruction_set.md, 11_tick_programs_tables_images.md.) -/
def Obligations.CellLoopAndCoreCommandsComplete : Prop :=
  ∀ s : State,
    let does (c : Instr) (f : State → State) : Prop := exec c s = .next (if s.sys.inReset then s else f s)
    let runs (n : CoreId) (q : Pred) (c : Instr) (f : State → State) : Prop := issues s n q = true → exec c s = .next (f s)
    (∀ (o : Origin) (val : Word), does (.rdlEnableWrite o val) fun s => gate s (rdlR 0x000) fun s => rdlCtrlWrite s o val) ∧
    (∀ (p : Port) (pk : Packet) (arr : Arrival), does (.rakeRx p pk arr) fun s => hopIn s 0x10 pk fun s => rakeIn s p.val pk arr) ∧
    (∀ (planeB : Bool), does (.rakeOutputStart planeB) fun s => rakeOutput s planeB) ∧
    (∀ (o : Origin) (val : Word), does (.levelGoWrite o val) fun s => gate s (rdlR 0x01C) fun s => levelWrite s o val) ∧
    (does .selectionRun selectTry) ∧
    (does .levelDeadline levelLate) ∧
    (∀ (p : Port) (pk : Packet), does (.binsRx p pk) fun s => hopIn s 0x11 pk fun s => binsIn s p.val pk) ∧
    (∀ (p : Port) (pk : Packet), does (.descentRx p pk) fun s => hopIn s 0x12 pk fun s => descentIn s p.val pk) ∧
    (does .descentDeadline descentMissed) ∧
    (does .edgeInstant edgeInstant) ∧
    (∀ (pk : Packet), does (.insertRx pk) fun s => ownIn s [0x13] pk fun s => if epOf pk.dest = 0 then insertIn s pk else s) ∧
    (∀ (m : Fin 8), does (.deadtimeTurnOn m) fun s => if has8 s.swg.waitOn m && has8 s.swg.want m && mayRiseCh s m then chRise s m else s) ∧
    (∀ (m : Fin 8), does (.desatBlankEnd m) fun s => if has8 s.swg.gcmd m && decide (kget 0 s.swg.onLt m + blank s m ≤ now s) then modSwg s fun g => { g with desat := set8 g.desat m true } else s) ∧
    (∀ (m : Fin 8), does (.desatDetect m) fun s => if compOn s m && has8 s.swg.desat m then detect s m 1 .desat else s) ∧
    (∀ (m : Fin 8), does (.hardShortDetect m) fun s => if compOn s m && has8 s.swg.hs m then detect s m 2 .hardShort else s) ∧
    (∀ (m : Fin 8), does (.uvArm m) fun s => if chOn s m && (s.sup.stage.toNat.testBit 3) then modSwg s fun g => { g with armed := set8 g.armed m true } else s) ∧
    (does .preTickSnapshot fun s => if !s.tmk.ticked && now s % us 10 == 0 then holdupCheck (ledger (snsLatch s)) else s) ∧
    (∀ (c : Fin 17), does (.ditherBlockEnd c) fun s => if 256 ≤ kget 0 s.sns.dCnt c.val then ditherEnd s c.val else s) ∧
    (∀ (ix : Fin 4), does (.classSJob ix) fun s => classS s ix.val) ∧
    (∀ (o : Origin) (ix : Fin 4), does (.swapRequest o ix) fun s => siCtrlWrite s o ix.val (setBit (reg s (siCtrl ix.val)) 31 true)) ∧
    (∀ (o : Origin) (ix : Fin 4) (val : Word), does (.lpeEnableWrite o ix val) fun s => siCtrlWrite s o ix.val val) ∧
    (∀ (o : Origin) (c : Fin 16) (val : Word), does (.cascadeEnWrite o c val) fun s => qCtrlWrite s o c.val val) ∧
    (∀ (n : CoreId) (q : Pred) (gt base : GReg) (sz : Size) (off : BitVec 10), runs n q (.ld n q gt base sz off) (fun s => load s n.val gt.val base.val sz off true)) ∧
    (∀ (n : CoreId) (q : Pred) (gt base : GReg) (sz : Size) (off : BitVec 10), runs n q (.ldu n q gt base sz off) (fun s => if sz = .b ∨ sz = .h then load s n.val gt.val base.val sz off false else illegal s n.val)) ∧
    (∀ (n : CoreId) (q : Pred) (gt base : GReg) (sz : Size) (off : BitVec 10), runs n q (.st n q gt base sz off) (fun s => store s n gt.val base.val sz off)) ∧
    (∀ (n : CoreId) (q : Pred) (gd ga gb : GReg), runs n q (.amoSwap n q gd ga gb) (fun s => amo s n.val gd.val ga.val gb.val fun _ b => b)) ∧
    (∀ (n : CoreId) (q : Pred) (gd ga gb : GReg), runs n q (.amoAdd n q gd ga gb) (fun s => amo s n.val gd.val ga.val gb.val fun v b => v + b)) ∧
    (∀ (n : CoreId) (q : Pred) (pd pc : PReg) (cond : BitVec 4) (ga gb : GReg), runs n q (.cmp n q pd pc cond ga gb) (fun s => setPreds s n.val pd.val pc.val 1 ((intCond cond.toNat (gOf s n.val ga.val) (gOf s n.val gb.val)).map fun b => (b, 0)))) ∧
    (∀ (n : CoreId) (q : Pred) (pd pc : PReg) (cond : BitVec 4) (ga : GReg) (imm : BitVec 7), runs n q (.cmpi n q pd pc cond ga imm) (fun s => setPreds s n.val pd.val pc.val 1 ((intCond cond.toNat (gOf s n.val ga.val) (imm.signExtend 32)).map fun b => (b, 0)))) ∧
    (∀ (n : CoreId) (q : Pred) (pd pc : PReg) (cond : BitVec 4) (ga gb : GReg), runs n q (.fcmp n q pd pc cond ga gb) (fun s => setPreds s n.val pd.val pc.val 2 (fpCond cond.toNat (gOf s n.val ga.val) (gOf s n.val gb.val)))) ∧
    (∀ (n : CoreId) (q : Pred) (off : BitVec 22), runs n q (.br n q off) (fun s => finishAt s n.val 2 (relTarget s n.val off))) ∧
    (∀ (n : CoreId) (q : Pred) (off : BitVec 22), runs n q (.call n q off) (fun s => finishAt (setG s n.val 31 ((coreOf s n.val).pc + 4)) n.val 2 (relTarget s n.val off))) ∧
    (∀ (n : CoreId) (q : Pred) (ga : GReg) (imm : BitVec 12), runs n q (.jr n q ga imm) (fun s => jump s n.val 0 (gOf s n.val ga.val + simm imm))) ∧
    (∀ (n : CoreId) (q : Pred) (gd ga : GReg) (imm : BitVec 12), runs n q (.jalr n q gd ga imm) (fun s => jump s n.val gd.val (gOf s n.val ga.val + simm imm))) ∧
    (∀ (n : CoreId) (q : Pred) (ga : GReg) (imm : BitVec 12), runs n q (.loop n q ga imm) (fun s => loopBegin s n.val ga.val imm)) ∧
    (∀ (n : CoreId) (q : Pred), runs n q (.twait n q) (fun s => modCore s n.val fun c => { evClear c 0x100 with st := .waiting, wait := some .tick, woken := false })) ∧
    (∀ (n : CoreId) (q : Pred), runs n q (.rte n q) (fun s => modCore s n.val fun c => stepEnd { spend c 3 with pc := c.epc, ie := c.pie, exl := false })) ∧
    (∀ (n : CoreId) (q : Pred), runs n q (.syncslot n q) (fun s => finish s n.val (syncCycles (coreOf s n.val) n.val))) ∧
    (∀ (n : CoreId) (q : Pred), runs n q (.halt n q) (fun s => modCore (finish s n.val 1) n.val fun c => { c with st := .halted, stepOne := false })) ∧
    (∀ (n : CoreId) (q : Pred) (gd : GReg) (cr : BitVec 12), runs n q (.mfc n q gd cr) (fun s => if 10 < cr.toNat then illegal s n.val else finish (setG s n.val gd.val (crGet s n.val cr.toNat)) n.val 2)) ∧
    (∀ (n : CoreId) (q : Pred) (ga : GReg) (cr : BitVec 12), runs n q (.mtc n q ga cr) (fun s => if 10 < cr.toNat then illegal s n.val else finish (modCore s n.val fun c => crPut c cr.toNat (gGet c ga.val)) n.val 2)) ∧
    (∀ (n : CoreId) (q : Pred) (gd ga : GReg), runs n q (.fsend n q gd ga) (fun s => fsend s n gd.val ga.val)) ∧
    (∀ (n : CoreId) (q : Pred) (gd ga : GReg), runs n q (.frecv n q gd ga) (fun s => frecv s n.val gd.val ga.val)) ∧
    (∀ (n : CoreId) (q : Pred) (gd ga gb : GReg), runs n q (.lut n q gd ga gb) (fun s => lut s n.val gd.val ga.val gb.val)) ∧
    (∀ (n : CoreId), does (.interruptEntry n) fun s => if coreRuns (coreOf s n.val) && irqDue s n.val && !haltDue s n.val && !nmtDue s n.val then irqEnter s n.val else s) ∧
    (∀ (n : CoreId), does (.nmtEntry n) fun s => if coreRuns (coreOf s n.val) && nmtDue s n.val && !haltDue s n.val then nmtEnter s n.val else s) ∧
    (∀ (o : Origin) (n : CoreId), does (.coreHalt o n) fun s => gate s (coreCtrl n.val) fun s => coreCtrlWrite s o n.val (coreCtrlBit s n.val 6)) ∧
    (∀ (o : Origin) (n : CoreId), does (.coreRun o n) fun s => gate s (coreCtrl n.val) fun s => coreCtrlWrite s o n.val (coreCtrlBit s n.val 5)) ∧
    (∀ (o : Origin) (n : CoreId), does (.coreStep o n) fun s => gate s (coreCtrl n.val) fun s => coreCtrlWrite s o n.val (coreCtrlBit s n.val 7)) ∧
    (∀ (u : Origin) (n : CoreId) (wr : Option Word), does (.scratchpadWindowAccess u n wr) fun s => gate s (zccR (0x100 * n.val + 0x18)) fun s => let r := window s n.val wr; { r.1 with rdata := r.2 }) ∧
    (does .tpBudgetCheck budgetCheck) ∧
    (∀ (u : Origin), does (.tableCommit u) fun s => commitWrite s 1) ∧
    (does .tableLoadDone fun s => if s.sys.tbl.busyTil.isSome then tableLoad s else s) ∧
    (∀ (o : Origin), does (.qspiProgram o) fun s => qspiWrite s o 0x10000001) ∧
    (∀ (o : Origin), does (.qspiErase o) fun s => qspiWrite s o 0x20000001) ∧
    (does .qspiOpDone qspiDone) ∧
    (∀ (n : CoreId) (w : Word), does (.illegalInstruction n w) fun s => if wordLegal w then s else issue s n.val (wordPred w) fun s => illegal s n.val) ∧
    (∀ (n : CoreId) (q : Pred) (gd ga : GReg), runs n q (.wait n q gd ga) fun s => let m := gOf s n ga; if m = 0 then illegal s n else if evNow (coreOf s n) &&& m ≠ 0 then waitDone s n gd m false else modCore s n fun c => { c with st := .waiting, wait := some (.flags gd m) }) ∧
    (∀ (n : CoreId) (q : Pred) (pd pc pa pb : PReg) (cond : BitVec 4), runs n q (.plog n q pd pc cond pa pb) fun s => setPreds s n pd pc 1 ((plogCond cond.toNat (pGet (coreOf s n) pa) (pGet (coreOf s n) pb)).map fun b => (b, 0)))

/-- Each command listed, with every operand and in every state out of reset, completes with the state that the model’s operation of its chapter gives; in reset it changes nothing, but for the commands of the Saffron island listed as acting in every state (IN_DISCREP, ALIVE_SILENT, LOCKOUT_END, UNLOCK_TIMEOUT). Readings and choices of the model that it rests on: log entry 6. (95_what_each_step_holds.md, 12_station_port.md, 13_capture_engine.md, 14_fault_hub.md, 15_saffron_safety_island.md, 16_hub_redundancy.md, 18_service_bus_and_panel.md.) -/
def Obligations.HubAndStationCommandsComplete : Prop :=
  ∀ s : State,
    let does (c : Instr) (f : State → State) : Prop := exec c s = .next (if s.sys.inReset then s else f s)
    (∀ (u : Origin) (n : Fin 3) (val : Word), does (.ptStep u n val) fun s => gate s (tmkR (0x114 + 0x40 * n.val)) fun s => ptStep s n.val val) ∧
    (∀ (o : Origin) (j : Fin 4) (val : Word), does (.launchArm o j val) fun s => gate s (lchR j.val 8) fun s => lchArm s o j.val val) ∧
    (∀ (j : Fin 4), does (.launchFire j) fun s => lchTry s j.val) ∧
    (∀ (e : Fin 2) (f : EthFrame) (freed : Fin 65), does (.ethFrameRx e f freed) fun s => ethFrameIn s e.val f freed.val) ∧
    (∀ (e : Fin 2), does (.ethLinkDown e) fun s => if ethUp s e then report (modStp s fun t => { t with link := t.link &&& ~~~ BitVec.ofNat 2 (2 ^ e.val) }) (256 + e) .ethLink (stpR 0x004) else s) ∧
    (∀ (e : Fin 2) (raw : EthFrame) (k : Fin 16) (f : SvFrame), does (.svFrameRx e raw k f) fun s => ethFirst s e.val raw fun s l => if svMatch s k.val l then svFrameIn s k.val f else s) ∧
    (∀ (k : Fin 4), does (.svPublish k) fun s => svPublish s k.val) ∧
    (∀ (o : Origin) (g : Fin 32), does (.gooseChange o g) fun s => gate s (stpGp g.val 0) fun s => gpubWrite s o g.val (setBit (reg s (stpGp g.val 0)) 31 true)) ∧
    (∀ (e : Fin 2) (raw : EthFrame) (g : Fin 64) (f : GooseFrame), does (.gooseFrameRx e raw g f) fun s => ethFirst s e.val raw fun s l => if gooseMatch s g.val l then gooseIn s g.val f else s) ∧
    (∀ (e : Fin 2) (raw : EthFrame) (ip : Word) (port : BitVec 16) (bytes : List Byte), does (.xhpCommandRx e raw ip port bytes) fun s => ethFirst s e.val raw fun s l => if xhpGram s l = some (ip.toNat, port.toNat, bytes) then xhpIn s ip port bytes else s) ∧
    (∀ (o : Origin) (val : Word), does (.capArm o val) fun s => gate s (capR 0) fun s => capCtrlWrite s o (setBit val 31 true)) ∧
    (∀ (o : Origin) (val : Word), does (.capStop o val) fun s => gate s (capR 0) fun s => capCtrlWrite s o (setBit val 30 true)) ∧
    (∀ (o : Origin) (val : Word), does (.capTrigWrite o val) fun s => gate s (capR 0) fun s => capCtrlWrite s o (setBit val 29 true)) ∧
    (does .capRow capRow) ∧
    (∀ (o : Origin) (r : Fin 8), does (.capSlotFree o r) fun s => gate s (capRec r.val 0) fun s => capWrite s o (capRec r.val 0) 0x80000000) ∧
    (does .capStreamSend capStreamSend) ∧
    (∀ (pk : Packet), does (.streamRx pk) fun s => ownIn s [0x20] pk fun s => if 48 ≤ epOf pk.dest ∧ epOf pk.dest ≤ 55 then streamIn s pk else s) ∧
    (∀ (o : Origin) (k : Fin 16) (val : Word), does (.pendClear o k val) fun s => pendWrite s o k.val val) ∧
    (∀ (u : Origin) (val : Word), does (.firstFaultClear u val) fun s => firstWrite s val) ∧
    (∀ (o : Origin) (val : Word), does (.injectArm o val) fun s => injWrite s o (setBit val 31 true)) ∧
    (∀ (o : Origin) (u : Word), does (.aliveKickWrite o u) fun s => kickWrite s o) ∧
    (does .kickWindowExpiry fun s => (List.range 4).foldl kickEnd s) ∧
    (exec .inDiscrep s = .next (if inEn s && s.saf.lowA.isSome != s.saf.lowB.isSome && decide (s.saf.inChg + ms 10 < now s) then report (flag s safStat 0x20) 355 .inDiscrep safStat else s)) ∧
    (∀ (o : Origin) (val : Word), does (.bypassRequest o val) fun s => bypassWrite s o val) ∧
    (exec .aliveSilent s = .next (if isUpper s && s.flt.running && decide (s.flt.lastEdge + us 300 ≤ now s) then safDemand s 6 else s)) ∧
    (∀ (o : Origin) (val : Word), does (.testNow o val) fun s => safCtrlWrite s o (setBit val 31 true)) ∧
    (∀ (o : Origin) (val : Word), does (.unlockAttempt o val) fun s => unlockTry s o val) ∧
    (exec .lockoutEnd s = .next (if s.saf.lockTil ≤ now s then modSaf s fun f => { f with lockTil := 0 } else s)) ∧
    (∀ (o : Origin) (val : Word), does (.safLockCmd o val) fun s => safLockWrite s o (setBit val 31 true)) ∧
    (exec .unlockTimeout s = .next (if s.saf.unlocked && decide (s.saf.lockAt ≤ now s) then safLock s (nodeId s) else s)) ∧
    (∀ (o : Origin) (val : Word), does (.passwordSet o val) fun s => safLockWrite s o (setBit val 30 true)) ∧
    (∀ (o : Origin) (val : Word), does (.serviceRecord o val) fun s => serviceWrite s o val) ∧
    (∀ (u : Origin) (val : Word), does (.logAck u val) fun s => logAckWrite s val) ∧
    (∀ (level : Bool), does (.intlRecheck level) fun s => intlRecheck s level) ∧
    (∀ (pk : Packet), does (.mirrorRx pk) fun s => if packetOk pk then mirrorIn s pk else s) ∧
    (∀ (o : Origin), does (.yieldReq o) fun s => pairCmdWrite s o 0x40000000) ∧
    (∀ (o : Origin), does (.relinquish o) fun s => pairCmdWrite s o 0x80000000) ∧
    (does .yieldDrop yieldDrop) ∧
    (∀ (o : Origin), does (.syncReq o) fun s => pairCmdWrite s o 0x20000000) ∧
    (does .stateImageSend imageSend) ∧
    (∀ (o : Origin) (val : Word), does (.peerUpd o val) fun s => pairCmdWrite s o (setBit (val &&& 0x08000000) 28 true)) ∧
    (∀ (o : Origin) (val : Word), does (.canInitClear o val) fun s => gate s canCtrl fun s => canCtrlWrite s o (setBit val 31 false)) ∧
    (does .canBusJoin fun s => if blockOn (roleOf s) 13 && !canInit s then modSvb s fun v => { v with joined := true } else s) ∧
    (∀ (u : Origin) (mb : Fin 8) (val : Word), does (.canTxReq u mb val) fun s => gate s (mbCtrl mb.val) fun s => mbCtrlWrite s mb.val (setBit val 31 true)) ∧
    (∀ (u : Origin) (val : Word), does (.canRecover u val) fun s => gate s (svbR 0x014) fun s => recoverWrite s (setBit val 0 true)) ∧
    (∀ (u : Origin) (mb : Fin 8), does (.canCancel u mb) fun s => gate s (mbCtrl mb.val) fun s => mbCancel s mb.val) ∧
    (∀ (u : Origin) (u2 : Word), does (.rxPop u u2) fun s => gate s (svbR 0x01C) fun s => rxPop s) ∧
    (∀ (l : Fin 4), does (.ledBlink l) fun s => if panelOn s then ledSet s l.val else s) ∧
    (∀ (e : Fin 2), does (.ethLinkUp e) fun s => if ethOn s e then modStp s fun t => { t with link := t.link ||| BitVec.ofNat 2 (2 ^ e.val) } else s) ∧
    (∀ (e : Fin 2) (desc : Option (BitVec 8)), does (.ethFrameTx e desc) fun s => ethTx s e desc) ∧
    (∀ (raw : List (BitVec 64)), does (.faultMsgCapture raw) fun s => hubCapture s raw) ∧
    (∀ (words : List (Word × Word)) (last : Bool), does (.stateImageRx words last) fun s => imageIn s words last)

/-- State.reset is in power-on reset with LT 0, mode BOOT, no core running, every gate command low, SOFTOFF asserted, the Saffron outputs low, an empty command queue and empty memories; registers read their reset values in each role, stated of SYS_ID, SYS_TP_CFG, SYS_RST_CAUSE, TMK_TICK_PERIOD, TRR_CHILD_ROLE, SWG_CFG, SUP_FEED, FLT_CFG and STP_CTRL; LegsApart and MemoryOk hold. Readings and choices of the model that it rests on: log entries 2, 3, 4, 5. (R442, 17_supply_start_and_modes.md Table 17-10, 02_tick_and_time.md Table 2-9.) -/
def Obligations.ResetState : Prop :=
  ∀ s : State, s = State.reset →
    (s.sys.inReset, s.sys.porRst, s.lt, modeOf s, s.swg.gcmd, s.swg.softoff, s.pending) = (true, true, 0, Mode.boot, 0, true, []) ∧
    (s.saf.outA, s.saf.outB, s.mem, s.sent, s.hwSet) = (false, false, [], [], []) ∧
    (∀ n : CoreId, (coreOf s n).st = .halted ∧ (coreOf s n).pc = 0) ∧
    (∀ k : BitVec 3, let t := modSys s fun y => { y with strap := k }
      [reg t (sysR 0x000), reg t (sysR 0x020), reg t (sysR 0x028), reg t (tmkR 0x008), reg t (trrR 0x004), reg t (swgR 0x000), reg t (supR 0x000),
        reg t (fltR 0x000), reg t (stpR 0x000)] =
      [0x720000C1, 0x00021194, 1, 0x14, 0xAAA, 0x09C4640A, 0x0244011D, 0x65B40000, if k = 3 then 0x802 else 2]) ∧
    LegsApart s ∧ TurnOffLow s ∧ MemoryOk s

/-- POWER_ON_RESET leaves LT 0, an empty register file, mode BOOT and the part in power-on reset, and of the memories exactly the bytes at and above 0x5000_0000. RST_N low, CHIP_RESET for each cause and the mode command CHIP_RESET, where no discard fell in the same cycle, leave the part in chip reset with LT and straps kept, the cause bit of SYS_RST_CAUSE set, a discard of cause 2 with its SOURCE and LT recorded, every register outside Table 17-2 at its reset value, every other kept register, a locked island (its test time apart) and MRAM unchanged; CHIP_RESET through JTAG outside factory test. Readings and choices of the model that it rests on: log entries 5, 24, 25. (R438, R441, R442, 17_supply_start_and_modes.md Table 17-2, 17_supply_start_and_modes.md Table 17-10.) -/
def Obligations.PowerOnAndChipReset : Prop :=
  ∀ s : State,
    Answers .powerOnReset s (fun t => (t.lt, t.regs, modeOf t, t.sys.inReset, t.sys.porRst, t.cores, t.ports, t.swg.gcmd, t.swg.softoff) =
        (0, [], Mode.boot, true, true, [], [], 0, true) ∧ t.nv = s.nv ∧ (t.pending, t.sent, t.free) = (s.pending, s.sent, s.free) ∧
        (∀ a, memByte t a = if 0x50000000 ≤ a then memByte s a else 0)) ∧
    (s.sys.inReset = false → s.sys.discLt ≠ some (now s) → s.saf.unlocked = false → s.sys.testmode = false →
      ∀ e ∈ ([(.rstNLow, 1, 0x1FF), (.chipReset .command, 2, 0x1FF), (.chipReset .jtag, 4, 0x1FF), (.modeCmdChipReset .xhp, 2, 0x1FF)] ++
        (List.range 512).map fun k => (.chipReset (.reaction (BitVec.ofNat 9 k)), 3, k) : List (Instr × Nat × Nat)),
      Answers e.1 s (fun t => (t.lt, t.sys.strap, modeOf t, t.sys.inReset, t.sys.porRst) = (s.lt, s.sys.strap, Mode.boot, true, false) ∧
        rb t (sysR 0x028) e.2.1 = true ∧ rf t (sysR 0x010) 3 0 = 2 ∧ rf t (sysR 0x014) 24 16 = e.2.2 ∧ reg t (sysR 0x018) = s.lt.setWidth 32 ∧
        (∀ a, keptReg a = false → a ≠ sysR 0x034 → reg t a = regReset (roleOf s) a) ∧
        (∀ a, keptReg a = true → a ∉ [sysR 0x010, sysR 0x014, sysR 0x018, sysR 0x028] → reg t a = reg s a) ∧
        rf t (sysR 0x034) 1 0 = rf s (sysR 0x034) 1 0 ∧ t.nv = s.nv ∧
        t.saf = (if testMode s then { s.saf with okAcc := now s - s.saf.okAt } else s.saf) ∧
        (t.swg.gcmd, t.swg.softoff, t.cores, t.pending) = (0, true, [], s.pending) ∧
        (∀ a, memByte t a = if 0x50000000 ≤ a then memByte s a else 0)))

/-- In reset with no rail outside its window, RESET_RELEASE ends it: after a power-on the straps are sampled and PWR_CNT counts, after a chip reset both stand. In the CELL role the cores are OFF and P0 and P1 powered; a cell found BYPASSED enters SAFE. With a reserved strap or TESTMODE the boot ROM stops with the six ports in DETECT. In the upper roles the boot ROM runs on the kept flash: no valid slot is IMAGE_NONE and stops it; else SYS_BOOT shows the slot and its cores may run. BLOCK_RESET_RELEASE of any block 500 units of LT after assertion ends its reset with the block at its reset values, and leaves the registers of other blocks. Readings and choices of the model that it rests on: log entries 4, 26, 29, 32, 95, 123. (R2, R3, R310, R311, R370, R413, R440, R443.) -/
def Obligations.ResetReleaseAndBlockReset : Prop :=
  (∀ (k : BitVec 3) (tm : Bool) (s : State), s.sys.inReset = true → railsOut s = false →
      let strap := if s.sys.porRst then k else s.sys.strap
      let base (t : State) : Prop := (t.sys.inReset, t.sys.porRst, t.sys.strap, t.sys.testmode) = (false, false, strap, tm) ∧
        t.nv.pwrCnt = (if s.sys.porRst then s.nv.pwrCnt + 1 else s.nv.pwrCnt) ∧ t.lt = s.lt
      let shut : Bool := (s.sys.porRst && s.nv.bypassed) || s.saf.closed.isSome
      (Role.ofStrap strap = .cell → tm = false → shut = false → Answers (.resetRelease k tm) s (fun t => base t ∧ modeOf t = modeOf s ∧
        (∀ n : CoreId, (coreOf t n).st = .off) ∧ (portOf t 0).powered = true ∧ (portOf t 1).powered = true ∧ t.regs = s.regs ∧ t.swg.softoff = false)) ∧
      (Role.ofStrap strap = .cell → tm = false → shut = true → s.sys.barred = false → Answers (.resetRelease k tm) s (fun t => base t ∧
        modeOf t = .safe ∧ t.sys.cause.getLsbD 6 = true ∧ (t.rdl.state = .blocked ∨ t.rdl.state = .bypassed))) ∧
      (Role.ofStrap strap = .reserved ∨ tm = true → Answers (.resetRelease k tm) s (fun t => base t ∧ (t.sys.stopped, t.sys.barred) = (true, true) ∧
        modeOf t = modeOf s ∧ t.regs = s.regs ∧ ∀ p : Port, (portOf t p).stage = .detect)) ∧
      (Role.ofStrap strap ∈ [Role.arm, Role.pole, Role.station] → tm = false → Answers (.resetRelease k tm) s (fun t => ∃ u : State, t = bootUpper u ∧ base u ∧
        (u.regs, u.cores, u.saf.unlocked, u.swg.softoff) = (s.regs, [], s.saf.unlocked, false) ∧ ∀ a, 0x50000000 ≤ a → memByte u a = memByte s a))) ∧
    (∀ u : State, let va := slotValid u false; let vb := slotValid u true
      (slotPick (setRf (setRf u (sysR 0x034) 7 7 (b2n vb)) (sysR 0x034) 6 6 (b2n va)) va vb = none → (bootUpper u).sys.stopped = true ∧
        (bootUpper u).sys.bootOk = u.sys.bootOk ∧ (bootUpper u).flt.bus.length = u.flt.bus.length + 1 ∧ (bootUpper u).cores = u.cores) ∧
      (∀ b f, slotPick (setRf (setRf u (sysR 0x034) 7 7 (b2n vb)) (sysR 0x034) 6 6 (b2n va)) va vb = some (b, f) → (bootUpper u).sys.bootOk = true ∧
        (bootUpper u).sys.stopped = u.sys.stopped ∧ rb (bootUpper u) (sysR 0x034) 4 = b)) ∧
    (∀ (b : Fin 15) (a : Nat) (s : State), s.sys.inReset = false → kget none s.flt.rstBlk b = some a → a + 500 ≤ now s →
      Answers (.blockResetRelease b) s (fun t => kget none t.flt.rstBlk b = none ∧ t = modFlt (blockInit s b) (fun f => { f with rstBlk := kput none f.rstBlk b none }) ∧
        (∀ x, 0x40000000 ≤ x → x < 0x400F0000 → blockOf x ≠ b.val → reg t x = reg s x) ∧
        (b.val ∈ [2, 8, 13, 14] → ∀ x, 0x40000000 ≤ x → x < 0x400F0000 → blockOf x = b.val → reg t x = regReset (roleOf s) x) ∧
        (b.val = 13 → t.svb.fifo = [] ∧ t.svb.tec = s.svb.tec) ∧ (b.val = 9 → t.cap.st = .idle) ∧
        (t.mem, t.saf, t.nv, t.sys, t.swg) = (s.mem, s.saf, s.nv, s.sys, s.swg)))

/-- Outside reset, a command to PRECHARGE, READY or RUN whose conditions of Table 17-5 and R453 hold is kept for the next tick application and changes nothing else; a command from SAFE to READY that the host did not write, to RUN under QUARANTINE, with a unit pruned or in the CELL role, writes codes 8, 3, 4 and 7 to REFUSE, leaves the mode and reports no fault. Readings and choices of the model that it rests on: log entry 27. (R448, R449, R453, 17_supply_start_and_modes.md Table 17-5, 17_supply_start_and_modes.md Table 17-8.) -/
def Obligations.ModeCommandsAcceptedOrRefused : Prop :=
  ∀ (o : Origin) (s : State), s.sys.inReset = false →
    let waits (t : State) (target : Nat) : Prop :=
      t.sys.cmd = some (target, byHost o) ∧ t.sys.cmdDue = false ∧ { t with sys := { t.sys with cmd := s.sys.cmd, cmdDue := s.sys.cmdDue } } = s
    let refused (t : State) (code : Nat) : Prop := t = modSys s fun y => { y with refuse := code }
    (isUpper s = true → modeOf s = .boot → s.sys.bootOk = true → anyCoreRuns s = true → (s.trr.nodeId.isSome = true ∨ roleOf s = .station) →
      Answers (.modeCmdPrecharge o) s (waits · 1)) ∧
    (isUpper s = true → modeOf s = .precharge → ttAlign s = true → Answers (.modeCmdReady o) s (waits · 2)) ∧
    (modeOf s = .safe → byHost o = true → maskEmpty s = true → inDemand s = false → s.saf.latched = false →
      (isCell s = true → s.nv.bypassed = false ∧ s.saf.closed = none ∧ s.saf.demand = 0) → Answers (.modeCmdReady o) s (waits · 2)) ∧
    (isUpper s = true → modeOf s = .ready → quarHeld s = false → reg s (fltR 0x090) = 0 → s.saf.demand = 0 → inDemand s = false →
      Answers (.modeCmdRun o) s (waits · 3)) ∧
    (modeOf s = .safe → byHost o = false → Answers (.modeCmdReady o) s (refused · 8)) ∧
    (isUpper s = true → modeOf s = .ready → quarHeld s = true → Answers (.modeCmdRun o) s (refused · 3)) ∧
    (isUpper s = true → modeOf s = .ready → quarHeld s = false → reg s (fltR 0x090) ≠ 0 → Answers (.modeCmdRun o) s (refused · 4)) ∧
    (isCell s = true → Answers (.modeCmdRun o) s (refused · 7) ∧ Answers (.modeCmdPrecharge o) s (refused · 7))

/-- After a tick an accepted command to PRECHARGE, READY or RUN changes the mode while its conditions hold, and otherwise writes REFUSE code 2; READY from SAFE clears SAFE_CAUSE and TRIPPED; in PRECHARGE the ALIVE pin begins to toggle. A command to SAFE enters SAFE in its cycle with cause bit 21, launches no Cayenne, and, from another mode (none entered in the same cycle), drops INTL_OUT and a waiting command and in the CELL role puts every gate command low. Not at a part that behaves as R3 gives. An expired DEGRADED timer enters SAFE with cause bit 20 and the mask bit of the timer’s source. Readings and choices of the model that it rests on: log entries 30, 33. (R9, R449, R450, R452, 17_supply_start_and_modes.md Table 17-6.) -/
def Obligations.ModeCommandsTakeEffect : Prop :=
  ∀ (o : Origin) (s : State), s.sys.inReset = false →
    let fresh : Prop := ∀ u, s.sys.undo = some u → u.at_lt ≠ now s
    (∀ h, isUpper s = true → s.sys.cmd = some (1, h) → s.sys.cmdDue = true → modeOf s = .boot → refuseCode s h 1 = 0 → Answers .modeCmdTakeEffect s
      (fun t => modeOf t = .precharge ∧ t.sys.cmd = none ∧ t.flt.running = true ∧ (mayRise s = true → s.saf.risen = false → t.saf.outA = true ∧ t.saf.outB = true) ∧
        (t.regs, t.mem, t.swg, t.nv) = (s.regs, s.mem, s.swg, s.nv))) ∧
    (∀ h, isUpper s = true → s.sys.cmd = some (2, h) → s.sys.cmdDue = true → modeOf s = .precharge → ttAlign s = true → Answers .modeCmdTakeEffect s
      (fun t => modeOf t = .ready ∧ t.sys.cmd = none ∧ t.sys.refuse = s.sys.refuse ∧ { t with sys := s.sys, saf := s.saf } = s)) ∧
    (∀ h, isUpper s = true → s.sys.cmd = some (2, h) → s.sys.cmdDue = true → modeOf s = .precharge → ttAlign s = false → Answers .modeCmdTakeEffect s
      (fun t => modeOf t = .precharge ∧ t.sys.cmd = none ∧ t.sys.refuse = 2 ∧ { t with sys := s.sys } = s)) ∧
    (∀ h, isUpper s = true → s.sys.cmd = some (3, h) → s.sys.cmdDue = true → modeOf s = .ready → refuseCode s h 3 = 0 → Answers .modeCmdTakeEffect s
      (fun t => modeOf t = .run ∧ t.saf.unlocked = false ∧ (t.mem, t.flt) = (s.mem, s.flt))) ∧
    (∀ h, s.sys.cmd = some (2, h) → s.sys.cmdDue = true → modeOf s = .safe → refuseCode s h 2 = 0 → Answers .modeCmdTakeEffect s
      (fun t => modeOf t = .ready ∧ t.sys.cmd = none ∧ (t.sys.cause, t.swg.tripped) = (0, false))) ∧
    (s.sys.barred = false → Answers (.modeCmdSafe o) s (fun t => modeOf t = .safe ∧ t.sys.cause.getLsbD 5 = true ∧ t.sent = s.sent)) ∧
    (s.sys.barred = false → fresh → modeOf s ≠ .safe → Answers (.modeCmdSafe o) s (fun t => t.sys.cmd = none ∧ t.sys.pair.intlOut = false ∧
      (isCell s = true → (TurnOffLow s → t.swg.gcmd = 0) ∧ t.nv = s.nv ∧ (testMode s = false → t.saf = s.saf)))) ∧
    (∀ d, s.sys.barred = false → fresh → modeOf s = .degraded → s.flt.degTil = some d → d ≤ now s → s.flt.degNow < 512 → Answers .degradedTimerExpiry s (fun t =>
      modeOf t = .safe ∧ t.sys.cause.getLsbD 4 = true ∧ rb t (sysR (0x200 + 4 * (s.flt.degNow / 32))) (s.flt.degNow % 32) = true ∧ t.flt.degTil = none))

/-- A feed whose voltage has lain in the window of SUP_FEED for 1 ms becomes valid, not before; its gate closes where the other feed is not valid. A valid feed that has lain below it for 10 µs, or above it for 1 µs, stops being valid, opens its gate, sets LOSS or OV of SUP_STAT and reports FEED_LOSS or FEED_OV; the other feed’s validity stands. Between two valid feeds one more than 200 mV below the other has its gate open, one within 100 mV of it has it closed. Nothing else changes. Readings and choices of the model that it rests on: log entry 8. (R435, R436, R437, 17_supply_start_and_modes.md Table 17-11.) -/
def Obligations.SupplyFeeds : Prop :=
  ∀ (span : BitVec 24) (a b : BitVec 16) (s : State),
    let in_ (v : BitVec 16) : Prop := feedUv s ≤ v.toNat ∧ v.toNat ≤ feedOv s
    let lost (v : BitVec 16) (high : Bool) : Prop := if high then feedOv s < v.toNat ∧ 500 ≤ span.toNat else v.toNat < feedUv s ∧ 5000 ≤ span.toNat
    (in_ a → Answers (.feedValid 0 span a b) s (fun t => t.sup.validA = (s.sup.validA || decide (500000 ≤ span.toNat)) ∧ t.sup.validB = s.sup.validB ∧
      (500000 ≤ span.toNat → s.sup.validB = false → (t.sup.gateA, t.sup.gateB) = (true, false)) ∧ { t with sup := s.sup } = s)) ∧
    (in_ b → Answers (.feedValid 1 span a b) s (fun t => t.sup.validB = (s.sup.validB || decide (500000 ≤ span.toNat)) ∧ t.sup.validA = s.sup.validA ∧
      (500000 ≤ span.toNat → s.sup.validA = false → (t.sup.gateB, t.sup.gateA) = (true, false)) ∧ { t with sup := s.sup } = s)) ∧
    (∀ high, lost a high → s.sup.validA = true → notInjecting s = true → Answers (.feedLoss 0 span a b) s (fun t =>
      (t.sup.validA, t.sup.gateA, t.sup.validB, t.sup.gateB) = (false, false, s.sup.validB, s.sup.validB) ∧ rb t (supR 0x004) (if high then 2 else 0) = true ∧
      Reports s t 384 (if high then .feedOv else .feedLoss) (supR 0x004) ∧ (∀ x, x ≠ supR 0x004 → reg t x = reg s x) ∧ modeOf t = modeOf s)) ∧
    (∀ high, lost b high → s.sup.validB = true → notInjecting s = true → Answers (.feedLoss 1 span a b) s (fun t =>
      (t.sup.validB, t.sup.gateB, t.sup.validA, t.sup.gateA) = (false, false, s.sup.validA, s.sup.validA) ∧ rb t (supR 0x004) (if high then 3 else 1) = true ∧
      Reports s t 385 (if high then .feedOv else .feedLoss) (supR 0x004) ∧ (∀ x, x ≠ supR 0x004 → reg t x = reg s x) ∧ modeOf t = modeOf s)) ∧
    (s.sup.validA = true → s.sup.validB = true → Answers (.feedImbalance a b) s (fun t =>
      (a.toNat + 200 < b.toNat → (t.sup.gateA, t.sup.gateB) = (false, true)) ∧ (b.toNat + 200 < a.toNat → (t.sup.gateA, t.sup.gateB) = (true, false)) ∧
      (a.toNat ≤ b.toNat + 100 → b.toNat ≤ a.toNat + 100 → (t.sup.gateA, t.sup.gateB) = (true, true)) ∧
      (t.sup.validA, t.sup.validB) = (true, true) ∧ { t with sup := s.sup } = s))

/-- Outside reset and with no injection armed: a write of SYS_TP_CFG changes its RW fields and nothing else; one of TMK_STATUS clears the flags written as 1 that hardware has not set in the same cycle; one of SYS_ID, read-only, changes nothing; one of SUP_FEED outside BOOT is an access fault and changes no register; one of SAF_ACT is an access fault while locked and takes the value with a change-log entry and a report while unlocked with room in the log and FB_DLY below TP_WIDTH; a write that is not a word or not aligned is an access fault; a word written to the shared SRAM stands there and nowhere else. Every aligned word write to a register that its map defines in a reached block has the effect of its block; where that follows the access codes, each field takes what its code gives and no other register changes. Readings and choices of the model that it rests on: log entries 7, 13, 15, 23. (R10, R11, R16, R411, R499, 00_scope.md Table 0-3.) -/
def Obligations.RegisterWriteByAccessCodes : Prop :=
  ∀ (o : Origin) (v addr : Word) (sz : Size) (s : State), s.sys.inReset = false → notInjecting s = true →
    let open_ (a : Nat) : Prop := reachable s a = true ∧ ∀ e ∈ s.hwSet, e.1 ≠ a
    let fault (t : State) (src a : Nat) : Prop := Reports s t src .access a ∧ (∀ x, reg t x = reg s x) ∧ { t with flt := s.flt, regs := s.regs } = s
    (open_ (sysR 0x020) → Answers (.registerWrite o .w (BitVec.ofNat 32 (sysR 0x020)) v) s (fun t =>
      reg t (sysR 0x020) = (reg s (sysR 0x020) &&& 0xFFF08000) ||| (v &&& 0x000F7FFF) ∧ (∀ x, x ≠ sysR 0x020 → reg t x = reg s x) ∧ { t with regs := s.regs } = s)) ∧
    (open_ (tmkR 0x004) → Answers (.registerWrite o .w (BitVec.ofNat 32 (tmkR 0x004)) v) s (fun t =>
      reg t (tmkR 0x004) = reg s (tmkR 0x004) &&& ~~~ (v &&& 0x1F) ∧ (∀ x, x ≠ tmkR 0x004 → reg t x = reg s x) ∧ { t with regs := s.regs } = s)) ∧
    (open_ (sysR 0x000) → Answers (.registerWrite o .w (BitVec.ofNat 32 (sysR 0x000)) v) s (fun t => (∀ x, reg t x = reg s x) ∧ { t with regs := s.regs } = s)) ∧
    (open_ (supR 0x000) → modeOf s ≠ .boot → Answers (.registerWrite o .w (BitVec.ofNat 32 (supR 0x000)) v) s (fault · 415 (supR 0x000))) ∧
    (open_ (supR 0x000) → modeOf s = .boot → Answers (.registerWrite o .w (BitVec.ofNat 32 (supR 0x000)) v) s (fun t =>
      reg t (supR 0x000) = v ∧ (∀ x, x ≠ supR 0x000 → reg t x = reg s x) ∧ { t with regs := s.regs } = s)) ∧
    (open_ (safR 0x010) → rwlOpen s = false → Answers (.registerWrite o .w (BitVec.ofNat 32 (safR 0x010)) v) s (fault · 383 (safR 0x010))) ∧
    (open_ (safR 0x010) → rwlOpen s = true → logIsFull s = false → us (Nat.max 1 (fld v 23 16)) < tpWidth s → Answers (.registerWrite o .w (BitVec.ofNat 32 (safR 0x010)) v) s (fun t =>
      reg t (safR 0x010) = v ∧ (∀ x, x ≠ safR 0x010 → reg t x = reg s x) ∧ Reports s t 357 .cfgChange (safR 0x010) ∧
      t.nv.logSeq = s.nv.logSeq + 1 ∧ t.nv.unack = s.nv.unack + 1 ∧ t.saf.lockAt = now s + sec 600 ∧ (t.mem, t.sys, t.swg) = (s.mem, s.sys, s.swg))) ∧
    (sz ≠ .w → addr.toNat < 0x40000000 → Answers (.registerWrite o sz addr v) s (fault · 31 addr.toNat)) ∧
    (addr.toNat % 4 ≠ 0 → addr.toNat < 0x40000000 → Answers (.registerWrite o .w addr v) s (fault · 31 addr.toNat)) ∧
    (0x20000000 ≤ addr.toNat → addr.toNat < 0x20400000 → addr.toNat % 4 = 0 → Answers (.registerWrite o .w addr v) s (fun t =>
      bytesGet t.mem addr.toNat 4 = v.toNat ∧ (∀ x, (x < addr.toNat ∨ addr.toNat + 4 ≤ x) → memByte t x = memByte s x) ∧ t.regs = s.regs ∧
      { t with mem := s.mem, flt := s.flt } = s)) ∧
    Answers (.registerWrite o sz addr v) s (fun t => t = if sz = .w then busWrite s o addr.toNat v else accessFault s addr.toNat) ∧
    (inPeriph addr.toNat = true → addr.toNat % 4 = 0 → reachable s addr.toNat = true → (rowOf addr.toNat).isSome = true →
      Answers (.registerWrite o .w addr v) s (fun t => t = blockWrite s o addr.toNat v)) ∧
    (∀ a r, rowOf a = some r → (r.modes = [] ∨ modeOf s ∈ r.modes) → accMask r (· == .rwl) = 0 → (∀ e ∈ s.hwSet, e.1 ≠ a) →
      let t := genWrite s o a v
      reg t a = r.fs.foldl (fieldWrite v 0 (rwlOpen s && !logIsFull s)) (reg s a) ∧ (∀ x, x ≠ a → reg t x = reg s x) ∧ { t with regs := s.regs, swSet := s.swSet } = s)

/-- Outside reset, a read of TMK_TT_LO returns the low byte of the tick number above the phase and latches the other 32 bits for TMK_TT_HI; a read of TMK_LT_LO returns LT[31:0] and latches LT[63:32]; a read of the lowest word of PT instance n returns its sub-nanoseconds and latches nanoseconds and seconds, and is 0 in a cell, which has no PT. No register, memory or time changes. Readings and choices of the model that it rests on: log entry 16. (R41, 02_tick_and_time.md Table 2-8, 02_tick_and_time.md Table 2-2.) -/
def Obligations.TimeReadsLatchHigherWords : Prop :=
  ∀ (o : Origin) (n : Fin 3) (s : State), s.sys.inReset = false → kget none s.flt.rstBlk 1 = none →
    let same (t : State) : Prop := { t with tmk := { t.tmk with latch := s.tmk.latch }, rdata := s.rdata } = s
    let held (t : State) (off : Nat) : Word := kget 0 t.tmk.latch off
    Answers (.timeLowWordRead o (BitVec.ofNat 32 (tmkR 0x020))) s (fun t => same t ∧ held t 0x024 = (s.tmk.tick >>> 8).setWidth 32 ∧
      t.rdata = (s.tmk.tick.setWidth 8) ++ (s.tmk.phase.setWidth 24)) ∧
    Answers (.timeLowWordRead o (BitVec.ofNat 32 (tmkR 0x030))) s (fun t => same t ∧ held t 0x034 = (s.lt >>> 32).setWidth 32 ∧ t.rdata = s.lt.setWidth 32) ∧
    (isCell s = true → Answers (.timeLowWordRead o (BitVec.ofNat 32 (tmkR (0x10C + 0x40 * n.val)))) s (fun t => same t ∧ t.rdata = 0)) ∧
    (isCell s = false → Answers (.timeLowWordRead o (BitVec.ofNat 32 (tmkR (0x10C + 0x40 * n.val)))) s (fun t => same t ∧ t.rdata = wd (ptSub (ptOf s n)) ∧
      held t (0x108 + 0x40 * n.val) = wd (ptNs (ptOf s n)) ∧ held t (0x104 + 0x40 * n.val) = wd (ptSec (ptOf s n)) ∧
      held t (0x100 + 0x40 * n.val) = wd (ptSec (ptOf s n) / 2 ^ 32)))

/-- Outside reset: at a STATION part that generates the tick and has reached its boundary, at a node that holds a symbol of its primary port, or one chosen between its two up-ports, whose instant has come, and at a ticked node without a symbol at its expected instant, the tick is applied: the tick number is the next one, the phase 0, its instant is kept, every running core has EVFLAGS.TICK set, an accepted mode command falls due, and, outside a forwarded pass, a missing symbol counts MISS_RUN. Readings and choices of the model that it rests on: log entries 6, 42. (R47, R58, R65, R282, 02_tick_and_time.md Table 2-1.) -/
def Obligations.TickIsApplied : Prop :=
  ∀ (x : TickIn) (s : State), s.sys.inReset = false →
    let ticked (t : State) (at_ : Nat) : Prop := t.tmk.tick = nextNo s ∧ t.tmk.phase = 0 ∧ t.tmk.lastPs = at_ ∧ t.tmk.ticked = true ∧ t.sys.cmdDue = true ∧
      (∀ n : CoreId, coreRuns (coreOf s n) = true → (coreOf t n).ev.getLsbD 8 = true) ∧ t.lt = s.lt
    (generates s = true → s.tmk.nextPs ≤ nowPs s → Answers (.stationTickBoundary x) s (ticked · s.tmk.nextPs)) ∧
    (∀ p y, generates s = false → primPort s = some p → kget none s.tmk.sym p = some y → (∀ q, secPort s = some q → kget none s.tmk.sym q = none) →
      symInstant s p y ≤ nowPs s → Answers (.tickApply x) s (ticked · (symInstant s p y))) ∧
    (∀ c, generates s = false → tickChoice s = some c → c.1 ≤ nowPs s → Answers (.tickApply x) s (ticked · c.1)) ∧
    (generates s = false → s.tmk.ticked = true → tickChoice s = none → expectPs s ≤ nowPs s →
      Answers (.tickExpectedTimeout x) s (fun t => ticked t (expectPs s) ∧ (inPass s = false → t.tmk.missRun = min 15 (s.tmk.missRun + 1))))

/-- Outside reset: a generating STATION part within LEAD of its boundary launches the symbol on its ACTIVE DOWN ports, and as active part on PARTNER, LEAD before the boundary; a node keeps a symbol of its selected port that comes in time with its arrival, clears MISS_RUN and forwards it with its DLY after F; whole symbol times behind a Cayenne add to DLY and to the instant; in a forwarded pass it sends its own symbol with DLY 0; 200 ns before the expected symbol an idle DOWN port leaves idle; an ALIGN on the selected ACTIVE port gives PATH. No register or memory changes. Readings and choices of the model that it rests on: log entries 10, 41, 42, 118. (R56, R57, R67, R500, R503, 02_tick_and_time.md Table 2-4.) -/
def Obligations.TickSymbolsTravel : Prop :=
  ∀ (p : Port) (tt : BitVec 6) (dly : BitVec 2) (at_ : Nat) (pk : Packet) (s : State), s.sys.inReset = false →
    let quiet (t : State) : Prop := (t.regs, t.mem, t.cores, t.swg, t.flt) = (s.regs, s.mem, s.cores, s.swg, s.flt)
    (generates s = true → s.tmk.ticked = true → s.tmk.launched = false → s.tmk.nextPs ≤ nowPs s + leadPs s →
      let ps := activeDowns s ++ (if s.sys.pair.active then (portsOf s 4).filter (isActive s) else [])
      Answers .tickSymbolLaunch s (fun t => t.sent = s.sent ++ symbolsOut s ps (nextGrid s) 0 (fun _ => s.tmk.nextPs - leadPs s) ∧
        { t with sent := s.sent, ports := s.ports, tmk := { t.tmk with launched := false } } = s)) ∧
    (roleOf s ≠ .station → selPort s = some p.val → (primPort s = some p.val ∨ secPort s = some p.val) → isLive s p = true → s.tmk.held = true →
      s.tmk.ticked = true → (nextGrid s).setWidth 6 = tt → s.tmk.tick.setWidth 6 ≠ tt → inTime s at_ = true → dly ≠ 3 → Answers (.tickSymbolRx p tt dly at_) s (fun t =>
        kget none t.tmk.sym p = some ⟨tt, dly, at_⟩ ∧ t.tmk.missRun = 0 ∧ t.tmk.tick = s.tmk.tick ∧ quiet t ∧
        t.sent = s.sent ++ symbolsOut s (activeDowns s) (tt.zeroExtend 40) dly.toNat (fun q => at_ + fwdLat p q))) ∧
    (∀ q, inPass s = true → s.tmk.ticked = true → s.tmk.passSent = false → selPort s = some q → arrivalPs s ≤ nowPs s →
      Answers .passTickSymbolSend s (fun t => t.tmk.passSent = true ∧ quiet t ∧
        t.sent = s.sent ++ symbolsOut s (activeDowns s) (nextGrid s) 0 (fun r => arrivalPs s + fwdLat q r))) ∧
    (s.tmk.ticked = true → (if generates s then s.tmk.nextPs - leadPs s else arrivalPs s) ≤ nowPs s + 200000 → downPorts s = [p.val] → (portOf s p).idleTx = true →
      Answers .tickIdleWake s (fun t => (portOf t p).idleTx = false ∧ (portOf t p).idleTill = now s + 80 ∧ t.sent = s.sent ++ [.idle p false] ∧ quiet t)) ∧
    (pk.typ = 0x0E → packetOk pk = true → isActive s p = true → selPort s = some p.val → Answers (.alignRx p pk) s (fun t =>
      t.tmk.path = bitOf (pk.payload.getD 0 0) 0 ∧ t.tmk.tick = s.tmk.tick ∧ t.sent = s.sent ∧ quiet t))

/-- Outside reset: an accepted write of TMK_TICK_PERIOD and of COUPLE at the STATION part announce the period and the grid number for tick + 64 to every ACTIVE DOWN port; COUPLE without PT0_VALID is refused and reported; DECOUPLE ends coupling; PT0_VALID follows its write. A node keeps an announcement of its selected port and passes it on. At the announced boundary the period, or the number, takes effect, the latter cancelling armed TT compares; a node without the announcement reports TT_NUMBER. A parent answers TICKNO_REQ with its number and period. Readings and choices of the model that it rests on: log entries 43, 44. (R44, R45, R48, R49, R50, R54, 02_tick_and_time.md Table 2-9.) -/
def Obligations.PeriodAndRenumbering : Prop :=
  ∀ (o : Origin) (val : Word) (p : Port) (u : BitVec 8) (k g : BitVec 40) (on : Bool) (s : State), s.sys.inReset = false →
    let k64 := s.tmk.tick + 64
    let words (x : BitVec 40) : List Word := [(x >>> 32).setWidth 32, x.setWidth 32]
    (roleOf s = .station → s.tmk.coupled = false → s.tmk.annPer = none → 8 ≤ val.toNat % 256 → val.toNat % 256 ≤ 128 → snsOkFor s (val.toNat % 256) = true →
      lpeOkFor s (val.toNat % 256) = true → Answers (.tickPeriodWrite o val) s (fun t => t.tmk.annPer = some (val.toNat % 256, k64) ∧
        t.tmk.period = s.tmk.period ∧ ∀ q ∈ activeDowns s, Waits2 t q 0x1A ([wd (val.toNat % 256)] ++ words k64))) ∧
    (generates s = true → rb s (tmkR 0) 1 = true → s.tmk.coupled = false → preRun s = true → Answers (.couple o) s (fun t =>
      t.tmk.annNum = some (k64, gridNear s s.tmk.lastPs + 64) ∧ rb t (tmkR 0) 2 = false ∧ t.flt = s.flt ∧
      ∀ q ∈ activeDowns s, Waits2 t q 0x1A ([0x01000000] ++ words k64 ++ words (gridNear s s.tmk.lastPs + 64)))) ∧
    (rb s (tmkR 0) 1 = false → notInjecting s = true → Answers (.couple o) s (fun t => Reports s t 33 .coupleRefused (tmkR 0) ∧ t.tmk = s.tmk ∧ rb t (tmkR 0) 2 = false)) ∧
    (roleOf s = .station → preRun s = true → Answers (.decouple o) s (fun t => t.tmk = { s.tmk with coupled := false, slewing := false } ∧
      { t with tmk := s.tmk, regs := s.regs } = s)) ∧
    Answers (.pt0ValidSet o on) s (fun t => rb t (tmkR 0) 1 = on ∧ (∀ x, x ≠ tmkR 0 → reg t x = reg s x) ∧ { t with regs := s.regs } = s) ∧
    (isActive s p = true → selPort s = some p.val → roleOf s ≠ .station → 8 ≤ u.toNat → u.toNat ≤ 128 → s.tmk.okNo = true →
      Answers (.renumberRx p (.period u k)) s (fun t => t.tmk.annPer = some (u.toNat, k) ∧ t.tmk.period = s.tmk.period ∧
        ∀ q ∈ activeDowns s, Waits2 t q 0x1A ([u.zeroExtend 32] ++ words k))) ∧
    (isActive s p = true → selPort s = some p.val → roleOf s ≠ .station → k ≠ g → Answers (.renumberRx p (.renumber k g)) s (fun t =>
      t.tmk.annNum = some (k, g) ∧ t.tmk.tick = s.tmk.tick ∧ t.regs = s.regs ∧ ∀ q ∈ activeDowns s, Waits2 t q 0x1A ([0x01000000] ++ words k ++ words g))) ∧
    (∀ n, s.tmk.annPer = some (n, k) → n < 256 → (since s k).isSome = true → Answers .periodBoundary s (fun t => t.tmk.period = n ∧ t.tmk.annPer = none ∧
      rf t (tmkR 0x008) 7 0 = n ∧ t.tmk.nextPs = s.tmk.lastPs + n * 500000 ∧ (∀ x, x ≠ tmkR 0x008 → reg t x = reg s x))) ∧
    (s.tmk.annPer = none → generates s = false → notInjecting s = true → Answers .periodBoundary s (fun t => t.tmk.okNo = false ∧ t.tmk.period = s.tmk.period ∧
      Reports s t 32 .ttNumber (tmkR 0x020))) ∧
    (∀ d, s.tmk.annNum = some (k, g) → since s k = some d → Answers .renumberBoundary s (fun t => t.tmk.tick = g + BitVec.ofNat 40 d ∧ t.tmk.annNum = none ∧
      t.tmk.okNo = true ∧ (roleOf s = .station → t.tmk.coupled = true) ∧
      ∀ m : Fin 8, cmpState s m = 1 → cmpBase s m = 1 → cmpState t m = 0xB)) ∧
    (isActive s p = true → dirOf s p = 3 → s.tmk.held = true → s.tmk.okNo = true → s.tmk.annPer = none → s.tmk.annNum = none → s.tmk.period < 256 →
      Answers (.ticknoReqRx p) s (fun t => Waits2 t p 0x1A ([0x01000000] ++ words (nextNo s) ++ words (nextNo s)) ∧
        Waits2 t p 0x1A ([wd s.tmk.period] ++ words (nextNo s)) ∧ { t with ports := s.ports } = s))

/-- Outside reset: writing CMPm_LO with base LT arms the unit for a target 1 to 2^31 - 1 units ahead and refuses it as PAST or FAR otherwise, and likewise with the other bases, reserved ones and a phase beyond the period refused; an armed unit whose target has come takes FIRED, and with ACT event sets flag m in every running core; CANCEL of an armed unit takes CANCELLED. A launch slot is armed from 2,000 ns ahead and refused as PAST or FAR otherwise; at its target it sends the frame of its descriptor on its port once that is free and takes state 2, or LATE when late or too near the one before; without link LINKDOWN. A PT step without armed units moves that instance by the signed nanoseconds alone. Readings and choices of the model that it rests on: log entries 7, 99, 115, 116, 125. (R40, R69, R70, R72, R73, 02_tick_and_time.md Table 2-7.) -/
def Obligations.CompareAndLaunchUnits : Prop :=
  ∀ (o : Origin) (m : Fin 8) (j : Fin 4) (n : Fin 3) (val : Word) (s : State), s.sys.inReset = false →
    let cd := signedMod (2 ^ 64) (((reg s (cmpR m 4)).toNat * 2 ^ 32 + val.toNat : Nat) - (now s : Int))
    let v := ptOf s (lchPt s j)
    let ld := signedMod (2 ^ 32 * 1000000000) (((reg s (lchR j 4)).toNat * 1000000000 + val.toNat : Nat) - ((ptSec v % 2 ^ 32 * 1000000000 + ptNs v : Nat) : Int))
    (cmpBase s m = 0 → Answers (.cmpArm o m val) s (fun t => reg t (cmpR m 8) = val ∧
      cmpState t m = (if cd < 1 then 8 else if 2147483648 ≤ cd then 9 else 1) ∧
      (∀ x, x ≠ cmpR m 0 → x ≠ cmpR m 8 → reg t x = reg s x) ∧ { t with regs := s.regs } = s)) ∧
    Answers (.cmpArm o m val) s (fun t => let u := setReg s (cmpR m 8) val; let b := cmpBase s m; let d := cmpDelta u m b
      reg t (cmpR m 8) = val ∧ cmpState t m = (if 4 < b ∨ (isCell s = true ∧ 2 ≤ b) then 0xA else if d < 1 then 8 else if 2147483648 ≤ d then 9
        else if b = 1 ∧ periodLt s ≤ fld val 14 0 then 0xA else 1)) ∧
    (cmpState s m = 1 → cmpMatch s m (cmpBase s m) = true → Answers (.cmpFire m) s (fun t => cmpState t m = 2 ∧ (∀ x, x ≠ cmpR m 0 → reg t x = reg s x) ∧
      (rb s (cmpR m 0) 10 = true → ∀ c : CoreId, coreRuns (coreOf s c) = true → (coreOf t c).ev.getLsbD m.val = true) ∧
      (rb s (cmpR m 0) 10 = false → t.cores = s.cores) ∧ (rb s (cmpR m 0) 9 = false → t.cap = s.cap))) ∧
    (cmpState s m = 1 → bitOf val 0 = true → Answers (.cmpCancel o m val) s (fun t => cmpState t m = 0xD ∧ (∀ x, x ≠ cmpR m 0 → reg t x = reg s x) ∧
      { t with regs := s.regs } = s)) ∧
    (reachable s (lchR j 8) = true → Answers (.launchArm o j val) s (fun t => reg t (lchR j 8) = val ∧ lchState t j = (if ld < 2000 then 8 else if 2147483648 ≤ ld then 9 else 1) ∧
      (∀ x, x ≠ lchR j 0 → x ≠ lchR j 8 → reg t x = reg s x) ∧ { t with regs := s.regs } = s)) ∧
    (lchState s j = 1 → ethUp s (lchPort s j) = true → lchDiff s j ≤ 0 → lchYields s j = false → kget 0 s.stp.busyTil (lchPort s j) ≤ now s →
      let len := ethLen (Config.txFrame (rf s (lchR j 0) 15 8) s.mem) + tagLen s
      Answers (.launchFire j) s (fun t => lchState t j = (if lchNear s j || decide (lchDiff s j < -16) then 0xE else 2) ∧
        (len ≤ 1518 → ∃ e f, t.sent = s.sent ++ [.eth e f] ∧ e.val = lchPort s j ∧ (f.group, f.len) = (1, len)) ∧ (1518 < len → t.sent = s.sent) ∧
        (∀ x, x ≠ lchR j 0 → x ≠ lchR j 4 → x ≠ lchR j 8 → reg t x = reg s x))) ∧
    (lchState s j = 1 → ethUp s (lchPort s j) = false → lchDiff s j ≤ 0 → Answers (.launchFire j) s (fun t => lchState t j = 0xF ∧
      (∀ x, x ≠ lchR j 0 → reg t x = reg s x) ∧ { t with regs := s.regs } = s)) ∧
    (reachable s (tmkR (0x114 + 0x40 * n.val)) = true → (∀ c : Fin 8, cmpState s c ≠ 1) → (∀ i : Fin 4, lchState s i ≠ 1) → Answers (.ptStep o n val) s (fun t =>
      ptOf t n = (((ptOf s n : Int) + val.toInt * 4294967296) % (ptMod : Int)).toNat ∧ (∀ k, k ≠ n.val → ptOf t k = ptOf s k) ∧
      reg t (tmkR (0x114 + 0x40 * n.val)) = val ∧ (∀ x, x ≠ tmkR (0x114 + 0x40 * n.val) → reg t x = reg s x) ∧ { t with regs := s.regs, tmk := { t.tmk with pt := s.tmk.pt } } = s))

/-- Outside reset: an exchange of a port in TRAIN or of a repeated measurement adds (t4 - t1) - (t3 - t2) with the port’s asymmetry; the 64th gives the hop delay as the mean of 64 halves, rounded, and on an up-port before the first tick D_acc as D_out plus it. REMEASURE clears the exchanges of each ACTIVE up-port and leaves other ports, registers but TMK_CTRL, and the hop delays. Readings and choices of the model that it rests on: log entry 46. (R60, R61.) -/
def Obligations.HopDelayIsMeasured : Prop :=
  ∀ (o : Origin) (p : Port) (t1 t2 t3 t4 : Nat) (s : State), s.sys.inReset = false →
    let r : Int := ((t4 : Int) - t1) - ((t3 : Int) - t2) + (reg s (tmkR (0x060 + 4 * p.val))).toInt
    let d := rdivAway (((portOf s p).hop ++ [r]).foldl (· + ·) 0) 128
    (((portOf s p).stage = .train ∨ (portOf s p).stage = .active) → (portOf s p).hop.length < 63 → Answers (.timingExchangeRx p t1 t2 t3 t4) s (fun t =>
      (portOf t p).hop = (portOf s p).hop ++ [r] ∧ (portOf t p).hopDelay = (portOf s p).hopDelay ∧ (∀ q, q ≠ p.val → portOf t q = portOf s q) ∧ { t with ports := s.ports } = s)) ∧
    (((portOf s p).stage = .train ∨ (portOf s p).stage = .active) → (portOf s p).hop.length = 63 → Answers (.timingExchangeRx p t1 t2 t3 t4) s (fun t =>
      (portOf t p).hopDelay = d ∧ (∀ q, q ≠ p.val → portOf t q = portOf s q) ∧
      (s.tmk.ticked = false → primPort s = some p.val → kget 0 t.tmk.daccPort p = ((kget 0 s.tmk.dout p : Nat) + d).toNat) ∧ { t with ports := s.ports, tmk := s.tmk } = s)) ∧
    Answers (.remeasure o) s (fun t => (∀ q, (portOf t q).hop = (if q ∈ upPorts s ∧ isActive s q = true then [] else (portOf s q).hop) ∧
      (portOf t q).hopDelay = (portOf s q).hopDelay) ∧ (∀ x, x ≠ tmkR 0 → reg t x = reg s x) ∧ { t with ports := s.ports, regs := s.regs } = s)

/-- Outside reset, a port that may leave DETECT enters TRAIN; one in TRAIN with 64 exchanges enters LOCK with its polarity; one in LOCK that has been clean for 1,024 symbols sends a CAPS block and enters CAPS, or ends the forwarded pass in ACTIVE; in CAPS the first good block is kept in TRL_PpPEER, and two agreeing blocks with an ACK lead to ACTIVE with fresh credit; an ACTIVE port enabled for it enters the forwarded pass; a stage that exceeds its time returns to DETECT, counts FAILS and sets the flag; a retry hold that is over ends. Other ports do not change. Readings and choices of the model that it rests on: log entries 6, 47, 51, 118. (R93, R95, R101, R503, 03_trellis_lanes.md Table 3-3.) -/
def Obligations.LaneBringUpStages : Prop :=
  ∀ (p : Port) (inv : Bool) (dk : BitVec 6) (b : List Byte) (s : State), s.sys.inReset = false →
    let x := portOf s p
    let others (t : State) : Prop := ∀ q, q ≠ p.val → portOf t q = portOf s q
    (mayTrain s p = true → Answers (.portDetectDone p) s (fun t => portOf t p = { x with stage := .train, since := now s, hop := [] } ∧ others t ∧ { t with ports := s.ports } = s)) ∧
    (x.stage = .train → 64 ≤ x.hop.length → Answers (.portTrainDone p inv dk) s (fun t => ((portOf t p).stage, (portOf t p).polInv, (portOf t p).since) = (.lock, inv, now s) ∧
      (x.fwdPass = true → (portOf t p).deskew = dk) ∧ others t ∧ { t with ports := s.ports } = s)) ∧
    (x.stage = .lock → cleanLock s x = true → x.fwdPass = false → Answers (.portLockDone p) s (fun t => (portOf t p).stage = .caps ∧ others t ∧
      (∃ w, t.sent = s.sent ++ [.caps p false w] ∧ w.length = (capsBlock s p false).length) ∧ { t with ports := s.ports, sent := s.sent } = s)) ∧
    (x.stage = .lock → cleanLock s x = true → x.fwdPass = true → Answers (.portLockDone p) s (fun t => ((portOf t p).stage, (portOf t p).fwdPass) = (.active, false) ∧ t.regs = s.regs)) ∧
    (x.stage = .caps → capsGoodBlock b = true → dirOf s p ≠ 0 → x.capsGood = 0 → Answers (.capsBlockRx p b) s (fun t =>
      ((portOf t p).stage, (portOf t p).capsGood, (portOf t p).capsFirst) = (.caps, 1, b) ∧ others t ∧
      (∀ w : Fin 9, reg t (trlR (0x110 + 0x40 * p.val + 4 * w.val)) = wd (leNat ((b.drop (4 * w.val)).take 4))))) ∧
    (x.stage = .caps → 2 ≤ x.capsGood → x.capsAck = true → Answers (.portActive p) s (fun t =>
      ((portOf t p).stage, (portOf t p).crC2, (portOf t p).crC3d, (portOf t p).crC3m, (portOf t p).retries) = (.active, 8, 32, 32, 0) ∧ t.regs = s.regs)) ∧
    (x.stage = .active → x.fwd = false → x.lastTx ≤ now s → rb s (trlCfg p) 3 = true → bitOf (reg s (trlR (0x110 + 0x40 * p.val))) 25 = true →
      Answers (.forwardedPassStart p) s (fun t => ((portOf t p).stage, (portOf t p).fwd, (portOf t p).fwdPass) = (.train, true, true) ∧ others t ∧ { t with ports := s.ports } = s)) ∧
    (∀ l, stageLimit x = some l → x.since + l ≤ now s → x.fwdPass = false → s.eye = none → notInjecting s = true → Answers (.stageTimeout p) s (fun t =>
      ((portOf t p).stage, (portOf t p).retries, (portOf t p).fails) = (.detect, x.retries + 1, min 255 (x.fails + 1)) ∧ rb t (trlStat p) 1 = true ∧
      (x.retries + 1 = max 1 (rf s (trlCfg p) 23 20) → Reports s t (64 + p.val) .linkFail (trlStat p) ∧ now s < (portOf t p).holdUntil) ∧ others t)) ∧
    (x.holdUntil ≤ now s → Answers (.portRetryHoldEnd p) s (fun t => portOf t p = { x with holdUntil := 0 } ∧ others t ∧ { t with ports := s.ports } = s))

/-- Outside reset with no scan and no injection: a seen loss of an ACTIVE port returns it to DETECT, sets LOSS and reports LINK_LOSS; RETRAIN does the same to an ACTIVE port; a code violation sets CODE_ERR, counts, and restarts the clean count; a realignment restarts it too; an ACTIVE forwarded port whose idle conditions hold enters idle, and one in idle leaves it within 80 units of LT. In BOOT an upper part takes a new DIR and starts the port in DETECT; in another mode a new DIR is an access fault and the old one stands. Readings and choices of the model that it rests on: log entries 51, 55, 118. (R82, R84, R85, R102, R104, R106, 03_trellis_lanes.md Table 3-7.) -/
def Obligations.LinkErrorsIdleAndConfiguration : Prop :=
  ∀ (o : Origin) (p : Port) (c : LossCause) (val : Word) (s : State), s.sys.inReset = false → s.eye = none → notInjecting s = true →
    let x := portOf s p
    let others (t : State) : Prop := ∀ q, q ≠ p.val → portOf t q = portOf s q
    let lost (t : State) : Prop := ((portOf t p).stage, (portOf t p).fwd, (portOf t p).idleTx) = (.detect, false, false) ∧ rb t (trlStat p) 2 = true ∧
      Reports s t (64 + p.val) .linkLoss (trlStat p) ∧ others t
    (isActive s p = true → lossSeen s p c = true → Answers (.linkLoss p c) s lost) ∧
    (reachable s (trlCfg p) = true → isActive s p = true → portConfigBroken s = false → Answers (.portRetrain o p) s lost) ∧
    (dirOf s p ≠ 0 → isActive s p = false → Answers (.codeViolation p) s (fun t => rb t (trlStat p) 0 = true ∧ (portOf t p).cleanFrom = now s ∧
      reg t (trlR (0x108 + 0x40 * p.val)) = (if reg s (trlR (0x108 + 0x40 * p.val)) = 0xFFFFFFFF then 0xFFFFFFFF else reg s (trlR (0x108 + 0x40 * p.val)) + 1) ∧
      (portOf t p).stage = x.stage ∧ others t ∧ t.flt = s.flt)) ∧
    (dirOf s p ≠ 0 → Answers (.symbolRealign p) s (fun t => portOf t p = { x with cleanFrom := now s } ∧ others t ∧ { t with ports := s.ports } = s)) ∧
    (isActive s p = true → x.fwd = true → x.idleTx = false → portIdle x = true → rb s (trlCfg p) 4 = true → bitOf (reg s (trlR (0x110 + 0x40 * p.val))) 26 = true →
      max x.lastTx x.quietFrom + symbols (max 32 (rf s (trlCfg p) 19 8)) ≤ now s → inC1Win s = false → Answers (.idleEntry p) s (fun t => (portOf t p).idleTx = true ∧
      t.sent = s.sent ++ [.idle p true] ∧ others t ∧ { t with ports := s.ports, sent := s.sent } = s)) ∧
    (x.idleTx = true → Answers (.idleExit p) s (fun t => ((portOf t p).idleTx, (portOf t p).idleTill) = (false, now s + 80) ∧ t.sent = s.sent ++ [.idle p false] ∧
      others t ∧ { t with ports := s.ports, sent := s.sent } = s)) ∧
    (reachable s (trlCfg p) = true → isUpper s = true → modeOf s = .boot → portConfigBroken s = false → rf s (trlCfg p) 2 0 = 0 → reg s (fltR 0x090) = 0 →
      fld val 2 0 = 3 → bitOf val 31 = false → Answers (.portCfgWrite o p val) s (fun t => dirOf t p = 3 ∧ (portOf t p).stage = .detect ∧
      rf t (trlCfg p) 23 8 = fld val 23 8 ∧ rf t (trlCfg p) 4 3 = fld val 4 3 ∧ others t ∧ t.flt = s.flt ∧ (∀ a, a ≠ trlCfg p → reg t a = reg s a))) ∧
    (reachable s (trlCfg p) = true → isUpper s = true → modeOf s ≠ .boot → portConfigBroken s = false → fld val 2 0 ≠ rf s (trlCfg p) 2 0 → bitOf val 31 = false →
      Answers (.portCfgWrite o p val) s (fun t => rf t (trlCfg p) 2 0 = rf s (trlCfg p) 2 0 ∧ portOf t p = x ∧ Reports s t 95 .access (trlCfg p)))

/-- Outside reset, with TRL reached: START with a port of 0 to 5, DWELL of 16 to 40, XOFF not -32 and the ledger’s admission begins the scan at point 0 with STATE RUNNING; with illegal fields it ends at once as ABORTED. ABORT ends a running scan as ABORTED and clears START. At the end of a point’s dwell a single scan stores the count and is DONE; a sweep stores it at its place and goes on to the next of 4,032 points, after the last of which it is DONE. Readings and choices of the model that it rests on: log entries 6, 8, 118. (R108, R109, 03_trellis_lanes.md Table 3-9.) -/
def Obligations.EyeScan : Prop :=
  ∀ (o : Origin) (val : Word) (n : Nat) (s : State), s.sys.inReset = false → reachable s (trlR 0x040) = true → (∀ e ∈ s.swSet, e.1 ≠ trlR 0x040) →
    let stat (t : State) : Nat := rf t (trlR 0x044) 3 0
    (s.eye = none → fld val 29 27 ≤ 5 → 16 ≤ fld val 23 18 → fld val 23 18 ≤ 40 → fld val 5 0 ≠ 32 → ledgerOk s 20 = true → Answers (.eyeStart o val) s (fun t =>
      t.eye = some ⟨fld val 29 27, bitOf val 26, 0, now s⟩ ∧ stat t = 1 ∧ rb t (trlR 0x040) 31 = true ∧ t.ports = s.ports ∧ t.flt = s.flt)) ∧
    (s.eye = none → (5 < fld val 29 27 ∨ fld val 23 18 < 16 ∨ 40 < fld val 23 18 ∨ fld val 5 0 = 32) → Answers (.eyeStart o val) s (fun t =>
      t.eye = none ∧ stat t = 3 ∧ rb t (trlR 0x040) 31 = false ∧ t.ports = s.ports ∧ t.flt = s.flt)) ∧
    (∀ e, s.eye = some e → Answers (.eyeAbort o val) s (fun t => t.eye = none ∧ stat t = 3 ∧ rb t (trlR 0x040) 31 = false ∧ t.ports = s.ports ∧ t.flt = s.flt)) ∧
    (∀ e, s.eye = some e → e.begun + 2 ^ (rf s (trlR 0x040) 23 18) * 4 / 25 ≤ now s → e.sweep = false → Answers (.eyePointDone n) s (fun t =>
      t.eye = none ∧ stat t = 2 ∧ reg t (trlR 0x048) = wd (min n 0xFFFFFFFE) ∧ rb t (trlR 0x040) 31 = false)) ∧
    (∀ e, s.eye = some e → e.begun + 2 ^ (rf s (trlR 0x040) 23 18) * 4 / 25 ≤ now s → e.sweep = true → e.pt < 4031 → Answers (.eyePointDone n) s (fun t =>
      t.eye = some { e with pt := e.pt + 1, begun := now s } ∧ reg t (trlR (0x8000 + 4 * e.pt)) = wd (min n 0xFFFFFFFE) ∧
      (∀ a, a ≠ trlR (0x8000 + 4 * e.pt) → reg t a = reg s a))) ∧
    (∀ e, s.eye = some e → e.begun + 2 ^ (rf s (trlR 0x040) 23 18) * 4 / 25 ≤ now s → e.sweep = true → e.pt = 4031 → Answers (.eyePointDone n) s (fun t =>
      t.eye = none ∧ stat t = 2 ∧ reg t (trlR 0xBEFC) = wd (min n 0xFFFFFFFE) ∧ rb t (trlR 0x040) 31 = false))

/-- Outside reset with no injection and no packet waiting at a core, an ACTIVE port that is neither idle nor busy sends its first C1 packet; without one its first C2 packet that has credit and fits before the window, taking one credit; without either the C3 packet of its queues that has credit and fits before the window, taking its flits; in the window it holds C3. A C1 packet cuts into a C3 packet under way at its next flit boundary, whose rest goes on with RESUME. At the end of the window a held C2 packet starts; 200 ns before its start every idle port leaves idle; CREDIT adds to the port’s credit. Each sends at most that one packet. Readings and choices of the model that it rests on: log entries 10, 47, 117, 118. (R132, R134, R135, R479.) -/
def Obligations.TransmitOrderAndWindow : Prop :=
  ∀ (p : Port) (k : Packet) (r : List Packet) (c2 d m : BitVec 16) (s : State), s.sys.inReset = false → notInjecting s = true →
    let x := portOf s p
    let ready := isActive s p = true ∧ x.idleTx = false ∧ x.idleTill ≤ now s ∧ x.lastTx ≤ now s ∧ (∀ n : CoreId, (coreOf s n).txq = []) ∧ x.qx = []
    let sends (t : State) : Prop := t.sent = s.sent ++ [.packet p k false true (packetLine k 0 true)] ∧ (portOf t p).lastTx = now s + linkTime k ∧ (t.regs, t.mem) = (s.regs, s.mem) ∧
      ∀ q, q ≠ p.val → portOf t q = portOf s q
    (ready → x.q1 = k :: r → Answers (.packetTxStart p) s (fun t => sends t ∧ (portOf t p).q1 = r ∧ (portOf t p).q2 = x.q2 ∧ (portOf t p).q3m = x.q3m)) ∧
    (ready → x.cut = none → x.q1 = [] → x.q2 = k :: r → k.cls = 2 → isCredit k = false → 0 < x.crC2 → c2Fits s k = true → Answers (.packetTxStart p) s (fun t => sends t ∧
      ((portOf t p).q2, (portOf t p).crC2, (portOf t p).q3d, (portOf t p).q3m) = (r, x.crC2 - 1, x.q3d, x.q3m))) ∧
    (ready → x.cut = none → x.q1 = [] → x.q2 = [] → x.q3d = [] → x.q3m = k :: r → k.cls = 3 → dataQueue k = false → flits k ≤ x.crC3m → c3Fits s (flits k) = true → Answers (.packetTxStart p) s (fun t => sends t ∧
      ((portOf t p).q3m, (portOf t p).crC3m, (portOf t p).crC3d) = (r, x.crC3m - flits k, x.crC3d))) ∧
    (ready → x.cut = none → x.q1 = [] → x.q2 = [] → x.q3m = [] → x.q3d = k :: r → k.cls = 3 → dataQueue k = true → flits k ≤ x.crC3d → c3Fits s (flits k) = true → Answers (.packetTxStart p) s (fun t => sends t ∧
      ((portOf t p).q3d, (portOf t p).crC3d, (portOf t p).crC3m) = (r, x.crC3d - flits k, x.crC3m))) ∧
    (∀ c, ready → x.cut = some c → c.held = true → x.q1 = [] → c3Fits s (flits c.pk - c.gone) = true → Answers (.packetTxStart p) s (fun t =>
      t.sent = s.sent ++ [.packet p c.pk true c.good (packetLine c.pk c.gone c.good)] ∧ (portOf t p).lastTx = now s + flitTime (flits c.pk - c.gone))) ∧
    (∀ c, isActive s p = true → x.idleTx = false → x.idleTill ≤ now s → now s < x.lastTx → (∀ n : CoreId, (coreOf s n).txq = []) → x.qx = [] → x.cut = some c → c.held = false →
      0 < (x.lastTx - now s) * 10 / 256 → x.q1 = k :: r → Answers (.packetTxStart p) s (fun t =>
        let left := (x.lastTx - now s) * 10 / 256
        t.sent = s.sent ++ [.packet p k false true (packetLine k 0 true)] ∧ (portOf t p).q1 = r ∧ (portOf t p).lastTx = x.lastTx - flitTime left + linkTime k ∧
        (portOf t p).cut = some { c with held := true, gone := flits c.pk - left })) ∧
    (ready → x.cut = none → x.q1 = [] → x.q2 = [] → inC1Win s = true → Answers (.packetTxStart p) s (fun t => t.sent = s.sent ∧ ((portOf t p).q3d, (portOf t p).q3m) = (x.q3d, x.q3m))) ∧
    (ready → x.cut = none → c1End s ≤ phaseOf s → x.q1 = [] → x.q2 = k :: r → k.cls = 2 → isCredit k = false → 0 < x.crC2 → c2Fits s k = true → (∀ q, q ≠ p.val → (portOf s q).q2 = []) →
      Answers .c1WindowEnd s (fun t => sends t ∧ (portOf t p).q2 = r)) ∧
    ((c1Start s ≤ phaseOf s + 100 ∧ phaseOf s < c1End s) ∨ periodLt s + c1Start s ≤ phaseOf s + 100 → c1Start s < c1End s → Answers .c1WindowStart s (fun t => (∀ q : Port, (portOf t q).idleTx = false) ∧
      (∀ q, (portOf s q).idleTx = false → portOf t q = portOf s q) ∧ { t with ports := s.ports, sent := s.sent } = s)) ∧
    (isActive s p = true → Answers (.creditRx p c2 d m) s (fun t =>
      portOf t p = { x with crC2 := x.crC2 + c2.toNat, crC3d := x.crC3d + d.toNat, crC3m := x.crC3m + m.toNat } ∧
      (∀ q, q ≠ p.val → portOf t q = portOf s q) ∧ { t with ports := s.ports } = s))

/-- Outside reset with no injection: a whole permitted packet for another node, from a function of the node or from an ACTIVE port that gets its credit back, waits on the port its route gives; a damaged, aborted or cut-off one is ended there and counted; without a route in an upper role it is counted and reported as NO_ROUTE, a request being answered with ERR_CPL status 2 where there is a way back; one with a failed CRC is counted and reported. A whole packet for this node, or one that goes one hop, goes to the function of its TYPE: a request, a completion or a TICK_REPORT does what its own row does. Readings and choices of the model that it rests on: log entries 48, 49, 50. (R112, R119, R123, R125, 04_trellis_fabric.md Table 4-4.) -/
def Obligations.RoutingOfPackets : Prop :=
  ∀ (k : Packet) (s : State), s.sys.inReset = false → notInjecting s = true → packetOk k = true →
    let mine := isMine s none k
    let credited (src : Option Port) : State := match src with | some p => creditBack s p k | none => s
    let came (src : Option Port) : Prop := ∀ p, src = some p → isActive s p = true
    (∀ q, mine = false → outPort s none (nodeOf k.dest) = some q → Answers (.packetRoute none k .good) s (fun t => Queued s t q k ∧
      (∀ r, r ≠ q → portOf t r = portOf s r) ∧ { t with ports := s.ports } = s)) ∧
    (∀ src q, came src → (∀ p, src = some p → dirOf s p ≠ 4) → isMine s (src.map (·.val)) k = false → outPort s (src.map (·.val)) (nodeOf k.dest) = some q →
      Answers (.packetRoute src k .good) s (fun t => Queued (credited src) t q k ∧ (∀ r, r ≠ q → portOf t r = portOf (credited src) r) ∧ { t with ports := s.ports } = s) ∧
      ∀ arr, arr ≠ .good → Answers (.packetRoute src k arr) s (fun t => (portOf t q).qx = (portOf s q).qx ++ [k] ∧ rf t (trrR 0x030) 15 0 = min 65535 (rf s (trrR 0x030) 15 0 + 1) ∧
        (arr = .badCrc → (now s, faultMsg 96 .fabCrc (trrR 0x030) false) ∈ t.flt.bus))) ∧
    (∀ src, came src → isMine s (src.map (·.val)) k = true → let u := peerLearn (credited src) (src.map (·.val)) k
      Answers (.packetAcceptLocal src k .good) s (fun t => t = if fromPartner u (src.map (·.val)) k then partnerIn u ((src.map (·.val)).getD 0) k else deliver u (src.map (·.val)) k)) ∧
    (mine = false → isCell s = false → outPort s none (nodeOf k.dest) = none → isRequest k = false → Answers (.packetRoute none k .good) s (fun t =>
      Reports s t 96 .noRoute (trrR 0x030) ∧ rf t (trrR 0x030) 31 16 = min 65535 (rf s (trrR 0x030) 31 16 + 1) ∧ t.ports = s.ports)) ∧
    (∀ q, mine = false → isCell s = false → outPort s none (nodeOf k.dest) = none → isRequest k = true → outPort s none (nodeOf k.src) = some q →
      Answers (.packetRoute none k .good) s (fun t => Queued s t q ⟨k.src, k.dest, 5, k.cls, k.seq, [2]⟩ ∧ Reports s t 96 .noRoute (trrR 0x030))) ∧
    (mine = false → outPort s none (nodeOf k.dest) = none → isCell s = false → Answers (.packetRoute none k .badCrc) s (fun t =>
      t.flt.bus = s.flt.bus ++ [(now s, faultMsg 96 .fabCrc (trrR 0x030) false), (now s, faultMsg 96 .noRoute (trrR 0x030) false)] ∧ t.ports = s.ports)) ∧
    (isOwn s k.dest = true → ∀ e ∈ ([(1, .wrReqRx k), (2, .rdReqRx k), (3, .wrCplRx k), (4, .rdCplRx k), (5, .errCplRx k), (0x18, .tickReportRx k)] : List (Nat × Instr)),
      k.typ.toNat = e.1 → Answers (.packetAcceptLocal none k .good) s (fun t => exec e.2 s = .next t))

/-- Outside reset with no injection, for a permitted request to this node whose sender has a route: a WR_REQ of one word to an aligned address of the shared SRAM at endpoint 0 of an upper part stores it there and nowhere else and returns WR_CPL; an RD_REQ of one good word there returns RD_CPL with it and changes no memory; either to an address its endpoint does not reach has no effect but ERR_CPL status 1 and an access fault. A WR_REQ to SYS_TBL_BUF of a cell in BOOT stages the word and returns WR_CPL. Of every endpoint, address and length: a request within what its endpoint reaches writes or reads its words in order and is answered with its completion, any other with ERR_CPL. Readings and choices of the model that it rests on: log entries 19, 21, 22. (R113, R305, 04_trellis_fabric.md Table 4-2.) -/
def Obligations.RequestsAtTheirEndpoint : Prop :=
  ∀ (k : Packet) (q : Nat) (v : Word) (s : State), s.sys.inReset = false → notInjecting s = true → packetOk k = true → isOwn s k.dest = true → epOf k.dest = 0 →
    isOwn s k.src = false → outPort s none (nodeOf k.src) = some q →
    let a := (k.payload.getD 0 0).toNat
    let cpl (typ : BitVec 6) (pay : List Word) : Packet := ⟨k.src, k.dest, typ, k.cls, k.seq, pay⟩
    (isCell s = false → k.typ = 1 → k.payload = [BitVec.ofNat 32 a, v] → 0x20000000 ≤ a → a < 0x20400000 → a % 4 = 0 → Answers (.wrReqRx k) s (fun t =>
      bytesGet t.mem a 4 = v.toNat ∧ (∀ x, (x < a ∨ a + 4 ≤ x) → memByte t x = memByte s x) ∧ Queued s t q (cpl 3 []) ∧ t.regs = s.regs)) ∧
    (isCell s = false → k.typ = 2 → k.payload = [BitVec.ofNat 32 a, 1] → 0x20000000 ≤ a → a < 0x20400000 → a % 4 = 0 → kget 0 s.flt.ecc (eccKey 0 a) = 0 →
      Answers (.rdReqRx k) s (fun t => Queued s t q (cpl 4 [wd (bytesGet s.mem a 4)]) ∧ { t with ports := s.ports } = s)) ∧
    (∀ g : State, g.sys.inReset = false → isOwn g k.dest = true →
      (k.typ = 1 → Answers (.wrReqRx k) g (fun t => t = requestIn g k) ∧ (0x40008000 ≤ a → a < 0x40010000 → Answers (.tblBufWrite k) g (fun t => t = requestIn g k))) ∧
      (k.typ = 2 → Answers (.rdReqRx k) g (fun t => t = requestIn g k)) ∧
      (reqBad g k = none → k.typ = 1 → let u := busWrites (.fabric k.src) (k.payload.drop 1) g a
        requestIn g k = if u.sys.inReset then u else reply u k 3 []) ∧
      (reqBad g k = none → k.typ = 2 → let r := busReads true (k.payload.getD 1 0).toNat g a
        requestIn g k = reply r.1 k 4 r.2) ∧ (∀ b, reqBad g k = some b → requestIn g k = reply (accessFault g b) k 5 [1])) ∧
    (∀ e ∈ ([(.wrReqRx k, 1, v), (.rdReqRx k, 2, 1)] : List (Instr × Nat × Word)), k.typ.toNat = e.2.1 → k.payload = [BitVec.ofNat 32 a, e.2.2] → a < 0x10000000 →
      Answers e.1 s (fun t => Queued s t q (cpl 5 [1]) ∧ Reports s t 31 .access a ∧ (t.mem, t.regs) = (s.mem, s.regs))) ∧
    (isCell s = true → modeOf s = .boot → reachable s a = true → k.typ = 1 → k.payload = [BitVec.ofNat 32 a, v] → 0x40008000 ≤ a → a < 0x40010000 → a % 4 = 0 →
      Answers (.tblBufWrite k) s (fun t => reg t a = v ∧ (∀ x, x ≠ a → reg t x = reg s x) ∧ Queued s t q (cpl 3 []) ∧ t.mem = s.mem))

/-- Outside reset: WR_CPL, RD_CPL and ERR_CPL to endpoint 0 whose SEQ a tracked request of a core bears take that request off the list and enter the receive queue of the core SEQ[7:6], with EVFLAGS.RXQ where it runs; a TICK_REPORT enters the queue of the core that ZCC_RXMAP names; a request of a core, the host or the walk tracked for TRR_CPL_TIMEOUT is answered with ERR_CPL status 3. Only that core’s queue changes. A completion of the host’s request answers its command; one of the walk’s only takes the request off. Readings and choices of the model that it rests on: log entries 50, 87. (R136, R293, 04_trellis_fabric.md Table 4-10.) -/
def Obligations.CompletionsReachTheirCore : Prop :=
  ∀ (k : Packet) (seq : BitVec 8) (s : State), s.sys.inReset = false →
    let got (t : State) (n : Nat) (m : Packet) : Prop := (coreOf t n).rxq = (coreOf s n).rxq ++ [m] ∧ (coreRuns (coreOf s n) = true → (coreOf t n).ev.getLsbD 9 = true) ∧
      (∀ i, i ≠ n → coreOf t i = coreOf s i) ∧ { t with cores := s.cores, trr := s.trr } = s
    (∀ r, packetOk k = true → isOwn s k.dest = true → epOf k.dest = 0 → s.trr.reqs = [r] → r.ep = 0 → r.seq = k.seq → (coreOf s (k.seq.toNat / 64)).rxq.length < 32 →
      ∀ e ∈ ([(3, .wrCplRx k), (4, .rdCplRx k), (5, .errCplRx k)] : List (Nat × Instr)), k.typ.toNat = e.1 →
      Answers e.2 s (fun t => got t (k.seq.toNat / 64) k ∧ t.trr.reqs = [])) ∧
    (packetOk k = true → isOwn s k.dest = true → k.typ = 0x18 → isUpper s = true →
      let n := (reg s (zccR 0x804)).toNat / 65536 % 4
      (coreOf s n).rxq.length < 32 → Answers (.tickReportRx k) s (fun t => got t n k ∧ t.trr = s.trr)) ∧
    (∀ r, packetOk k = true → isOwn s k.dest = true → epOf k.dest = 2 → s.trr.reqs = [r] → r.ep = 2 → r.seq = k.seq →
      ∀ e ∈ ([(3, .wrCplRx k), (4, .rdCplRx k), (5, .errCplRx k)] : List (Nat × Instr)), k.typ.toNat = e.1 →
      Answers e.2 s (fun t => t.trr.reqs = [] ∧ { t with trr := s.trr } = s)) ∧
    (∀ r c, packetOk k = true → isOwn s k.dest = true → epOf k.dest = 1 → s.trr.reqs = [r] → r.ep = 1 → r.seq = k.seq → s.stp.xfly = [(k.seq, c)] →
      let u := modStp (modTrr s fun t => { t with reqs := [] }) fun t => { t with xfly := [] }
      (k.typ = 3 → Answers (.wrCplRx k) s (fun t => t = xhpReply u c 0 k.payload)) ∧ (k.typ = 4 → Answers (.rdCplRx k) s (fun t => t = xhpReply u c 0 k.payload)) ∧
      (k.typ = 5 → Answers (.errCplRx k) s (fun t => t = xhpReply u c (fld (k.payload.getD 0 0) 15 0) []))) ∧
    (∀ ep r, (s.trr.reqs.find? fun r => r.ep == ep && r.seq == seq) = some r → r.sent + cplTimeout s ≤ now s →
      Answers (.cplTimeout ep seq) s (fun t => t = complIn s (ownErr s r 3))) ∧
    (∀ r, s.trr.reqs = [r] → r.ep = 0 → r.seq = seq → r.sent + cplTimeout s ≤ now s → (coreOf s (seq.toNat / 64)).rxq.length < 32 →
      Answers (.cplTimeout 0 seq) s (fun t => t.trr.reqs = [] ∧
        got t (seq.toNat / 64) ⟨BitVec.ofNat 20 ((nodeId s).toNat * 64), r.dest, 5, r.cls, seq, [3]⟩))

/-- Outside reset with no injection: a launch of scope arm from an ARM part with a live DOWN port sends it there with HOPS 0, keeps the hold, records LOCAL and the scope, reports CAYENNE_RX and enters SAFE with cause 17; one received at a cell on its live P0 is applied: recorded with the port, every gate command low, SAFE, mask bit 98; while a hold of its scope runs it is applied but not forwarded. An expired hold goes; 1 to SEEN clears the record where hardware does not set it in the same cycle. Readings and choices of the model that it rests on: log entries 30, 54, 119. (R137, R138, R139, R140, R142, 04_trellis_fabric.md Table 4-8.) -/
def Obligations.CayennesAreLaunchedAndFlooded : Prop :=
  ∀ (o : Origin) (val : Word) (h : BitVec 6) (s : State), s.sys.inReset = false → notInjecting s = true →
    (roleOf s = .arm → s.sys.barred = false → fld val 9 8 = 0 → rb s (trrR 0x024) 31 = false → reachable s (trrR 0x020) = true → Answers (.cayLaunchWrite o val) s (fun t =>
      modeOf t = .safe ∧ t.sys.cause.getLsbD 1 = true ∧ rb t (trrR 0x024) 31 = true ∧ rb t (trrR 0x024) 30 = true ∧ rf t (trrR 0x024) 17 16 = 0 ∧
      (∀ p : Port, dirOf s p = 3 → isLive s p = true → ∃ e, Sent.cayenne p 0 0 e ∈ t.sent) ∧ (∀ p : Port, dirOf s p ≠ 3 → dirOf s p ≠ 4 → ∀ c d e, Sent.cayenne p c d e ∈ t.sent → Sent.cayenne p c d e ∈ s.sent) ∧
      (now s, faultMsg 98 .cayenneRx (trrR 0x024) false) ∈ t.flt.bus ∧ (kget none t.trr.hold 0).isSome = true)) ∧
    (∀ at_, isCell s = true → s.sys.barred = false → TurnOffLow s → isLive s 0 = true → rb s (trrR 0x024) 31 = false → Answers (.cayenneRx 1 0 h at_) s (fun t =>
      modeOf t = .safe ∧ t.swg.gcmd = 0 ∧ rb t (trrR 0x024) 31 = true ∧ rb t (trrR 0x024) 30 = false ∧ rf t (trrR 0x024) 13 8 = h.toNat ∧ rf t (trrR 0x024) 5 0 = 1 ∧
      rb t (sysR 0x20C) 2 = true ∧ t.sys.cause.getLsbD 1 = true ∧ Reports s t 98 .cayenneRx (trrR 0x024) ∧
      (∀ e, kget none s.trr.hold 0 = some e → now s < e → t.sent = s.sent) ∧
      (s.trr.hold = [] → ∀ p : Port, p ≠ 0 → isLive s p = true → ∃ e, Sent.cayenne p 0 (if h = 63 then 63 else h + 1) e ∈ t.sent))) ∧
    (Answers .cayHoldExpiry s (fun t => (∀ e ∈ s.trr.hold, (∃ d, e.2 = some d ∧ now s < d) ↔ e ∈ t.trr.hold) ∧ { t with trr := { t.trr with hold := s.trr.hold } } = s)) ∧
    (bitOf val 31 = true → (∀ e ∈ s.hwSet, e.1 ≠ trrR 0x024) → Answers (.cayStatClear o val) s (fun t => reg t (trrR 0x024) = 0 ∧ reg t (trrR 0x028) = 0 ∧
      (∀ a, a ≠ trrR 0x024 → a ≠ trrR 0x028 → reg t a = reg s a) ∧ { t with regs := s.regs } = s))

/-- Outside reset with no injection: START at a STATION part in BOOT takes ID 0 and probes its one ACTIVE DOWN port; elsewhere it is an access fault and clears. An ACTIVE port answers PROBE with IDENT; PROBE_VIA probes the named port for its sender; a probe without IDENT for 10 µs is repeated up to 3 attempts, then the port is recorded SILENT and reported. ASSIGN gives the node its ID and, with QUAR, QUARANTINE. DELEGATE starts an arm’s walk of its block; the last return ends the STATION walk as DONE with the cells counted. Readings and choices of the model that it rests on: log entries 44, 50, 56, 119. (R114, R128, R129, 04_trellis_fabric.md Table 4-5.) -/
def Obligations.DiscoveryWalkIsDriven : Prop :=
  ∀ (o : Origin) (val : Word) (p : Port) (k : Packet) (src : BitVec 20) (n : BitVec 14) (s : State), s.sys.inReset = false → notInjecting s = true →
    let w := s.trr.walk
    let unset : Prop := ∀ e ∈ s.swSet, e.1 ≠ trrR 0x004
    let probe : Packet := ⟨0, BitVec.ofNat 20 ((nodeId s).toNat * 64), 0x08, 2, 0, []⟩
    (roleOf s = .station → modeOf s = .boot → w.running = false → ((List.range 6).filter (isActive s)) = [p.val] →
      dirOf s p = 3 → Answers (.discStart o val) s (fun t => t.trr.nodeId = some 0 ∧ t.trr.walk.running = true ∧ t.trr.walk.cur = some (0, p.val) ∧
        t.trr.walk.tries = 1 ∧ t.trr.walk.count = 1 ∧ Queued s t p { probe with src := 0 } ∧ t.flt = s.flt)) ∧
    ((roleOf s ≠ .station ∨ modeOf s ≠ .boot) → Answers (.discStart o val) s (fun t => Reports s t 127 .access (trrR 0x004) ∧ rb t (trrR 0x004) 31 = false ∧ t.trr = s.trr)) ∧
    (isActive s p = true → Answers (.probeRx p) s (fun t => Queued (creditC2 s p) t p { probe with typ := 0x09, payload := identPayload s } ∧ (∀ q, q ≠ p.val → portOf t q = portOf s q) ∧
      { t with ports := s.ports } = s)) ∧
    (isOwn s k.dest = true → epOf k.dest = 0 → packetOk k = true → k.typ = 0x0B → k.len = 1 → fld (k.payload.getD 0 0) 2 0 = p.val → isActive s p = true → Answers (.probeViaRx k) s (fun t => t.trr.via = s.trr.via ++ [(p.val, k.src, k.seq)] ∧
      Queued s t p probe ∧ { t with ports := s.ports, trr := s.trr } = s)) ∧
    (w.running = true → w.cur = some (nodeId s, p.val) → w.askedAt + us 10 ≤ now s → w.tries < 3 → Answers .probeTimeout s (fun t =>
      t.trr.walk = { w with tries := w.tries + 1, askedAt := now s } ∧ Queued s t p probe ∧ t.flt = s.flt)) ∧
    (w.running = true → w.cur = some (nodeId s, p.val) → w.askedAt + us 10 ≤ now s → w.tries = 3 → unset → Answers .probeTimeout s (fun t =>
      t.trr.walk.silent = w.silent ++ [(nodeId s, p.val)] ∧ (now s, faultMsg 97 .discSilent (trrR 0x008) false) ∈ t.flt.bus)) ∧
    (isActive s p = true → k.typ = 0x0A → packetOk k = true → Answers (.assignRx p k) s (fun t => t.trr.nodeId = some ((k.payload.getD 0 0).setWidth 14) ∧
      (∀ q, q ≠ p.val → portOf t q = portOf s q) ∧
      (bitOf (k.payload.getD 0 0) 18 = true → quarHeld t = true ∧ rb t (sysR 0x030) 2 = true) ∧ (bitOf (k.payload.getD 0 0) 18 = false → t.regs = s.regs))) ∧
    (roleOf s = .arm → isOwn s k.dest = true → epOf k.dest = 0 → packetOk k = true → k.typ = 0x0C → k.len = 2 → activeDowns s = [p.val] → (portsOf s 4).filter (isActive s) = [] → Answers (.delegateRx k) s (fun t =>
      (t.trr.walk.running, t.trr.walk.arm, t.trr.walk.size, t.trr.walk.client, t.trr.walk.cur) = (true, true, (k.payload.getD 1 0).toNat, k.src, some (nodeId s, p.val)) ∧
      t.trr.walk.base = (k.payload.getD 0 0).setWidth 14 ∧ Queued s t p probe)) ∧
    (w.deleg = [src] → w.running = true → w.cur = none → w.todo = [] → w.arm = false → unset → Answers (.delegateReturnRx src n) s (fun t =>
      (t.trr.walk.running, t.trr.walk.done, t.trr.walk.deleg, t.trr.walk.count) = (false, true, [], w.count + n.toNat) ∧ rb t (trrR 0x004) 31 = false))

/-- Outside reset with no injection, at a STATION walker with ID 0 whose own port is in hand: the IDENT of an unknown POLE part on an UP link takes the next ID, an ASSIGN goes out on the port, the first range entry of the port holds the ID, and the node is known and counted; of another role than expected, the ASSIGN carries QUAR and ROLE_MISMATCH is reported. A NEW_LINK of a known primary peer is probed and gives it its former ID again. At an active ARM part the loss of a cell writes, for a child whose secondary parent is a cell below the part, a repair entry with ALT toward that cell. Readings and choices of the model that it rests on: log entries 52, 53. (R114, R126, R129, R131, 04_trellis_fabric.md Table 4-7.) -/
def Obligations.WalkNumbersAndRepairs : Prop :=
  ∀ (p : Port) (k : Packet) (s : State), s.sys.inReset = false → notInjecting s = true →
    let w := s.trr.walk
    let i := identParse k.payload
    let id := w.next
    let atWalker (role : Nat) : Prop := s.trr.nodeId = some 0 ∧ w.cur = some (0, p.val) ∧ w.arm = false ∧ (∃ n, recOf w 0 = some n ∧ n.role = 3) ∧ i.role = role ∧
      peerDir (reg s (trlR (0x110 + 0x40 * p.val))) = 1 ∧ recUid w i.uid = none ∧ 0 < id ∧ id < upperSize s ∧ expectOf s p = 2 ∧ w.ents = [] ∧ rb s (trrR (0x400 + 0x40 * p.val)) 31 = false ∧
      k.typ = 9 ∧ packetOk k = true ∧ (∀ e ∈ s.swSet, e.1 ≠ trrR 0x004)
    (atWalker 2 → Answers (.identRx k) s (fun t => Waits2 t p 0x0A [wd (id + 2 * 2 ^ 16)] ∧ t.trr.walk.next = id + 1 ∧ t.trr.walk.count = w.count + 1 ∧
      (∃ r ∈ t.trr.walk.known, (r.uid, r.node, r.role, r.parent, r.port) = (i.uid, BitVec.ofNat 14 id, 2, 0, p.val)) ∧
      reg t (trrR (0x400 + 0x40 * p.val)) = wd (2 ^ 31 + id * 2 ^ 16 + id))) ∧
    (atWalker 0 → Answers (.identRx k) s (fun t => Waits2 t p 0x0A [wd (id + 2 * 2 ^ 16 + 2 ^ 18)] ∧ (now s, faultMsg 97 .roleMismatch (trrR 0x008) false) ∈ t.flt.bus)) ∧
    (∀ n r ex, w.done = true → s.trr.nodeId = some 0 → recOf w 0 = some n → n.role = 3 → i.role = 2 → expectOf s p = 2 → recUid w i.uid = some r → r.alt = false → w.ents = [] →
      Answers (.newLinkHandle 0 p ex k) s (fun t => Queued (probeSend s (0, p.val)) t p ⟨0, 0, 0x0A, 2, 0, [wd (r.node.toNat + 2 * 2 ^ 16)]⟩ ∧ (∀ q, q ≠ p.val → portOf t q = portOf s q) ∧
        t.trr.walk.known = w.known ∧ t.regs = s.regs)) ∧
    (∀ lost c e pt sp, roleOf s = .arm → s.sys.pair.active = true → w.done = true → (w.known.filter fun x => x.parent == lost && x.node != lost && !x.alt) = [c] →
      w.ents = [] → c.second = some (e, pt) → recOf w e = some sp → sp.parent = nodeId s → e ≠ nodeId s → sp.port < 6 → rb s (trrR (0x400 + 0x40 * sp.port)) 31 = false →
      Answers (.routeRepair lost) s (fun t =>
        reg t (trrR (0x400 + 0x40 * sp.port)) = wd (2 ^ 31 + 2 ^ 30 + c.last.toNat * 2 ^ 16 + c.node.toNat) ∧
        t.trr.walk.ents = [⟨nodeId s, sp.port, 0, c.node, c.last, true, true⟩] ∧ (∀ a, a ≠ trrR (0x400 + 0x40 * sp.port) → reg t a = reg s a) ∧
        (t.ports, t.mem, t.flt) = (s.ports, s.mem, s.flt)))

/-- For every merged histogram, level count N and fraction: with P = abs(N) - HELD, one more for a fraction that the cells of classes 0, 1 and 2R can still serve, limited to these cells, the cells ranked before the boundary and Q together are exactly P, Q is at least 1 and at most the count at the boundary, and with P = 0 the boundary is NONE. FRAC, SHORT and the HELD excess are as R155 gives. A split of a quota gives every participant at most its count, in order, in all the quota or every count, and one FRAC, where the quota runs out. Readings and choices of the model that it rests on: log entry 60. (R155, R160, R162, 05_riddle_balancing.md Table 5-6.) -/
def Obligations.SelectionAndSplitAreExact : Prop :=
  (∀ (s : State) (h : Hist) (ipos : Bool) (n : Int) (f : Nat),
    let r := selectQuota s h ipos n f
    let q := r.1
    let cs := orderCounts q.dir h
    let p0 := n.natAbs - h.held
    let p := Nat.min cs.sum (if q.frac then p0 + 1 else p0)
    (q.dir, q.neg, q.plane) = (ipos == decide (n < 0), decide (n < 0), armPlane s) ∧ q.frac = decide (0 < f ∧ p0 + 1 ≤ cs.sum) ∧
    r.2.1 = decide (cs.sum < p0) ∧ r.2.2 = decide (n.natAbs < h.held) ∧ (p = 0 → q.cb = 3) ∧
    (0 < p → ∃ pos, orderPos q.dir q.cb q.bin = some pos ∧ (cs.take pos).sum + q.q = p ∧ 0 < q.q ∧ q.q ≤ cs.getD pos 0)) ∧
  (∀ (l : List (Nat × Nat)) (q : Nat) (fr : Bool),
    let r := splitQ l q fr
    let total := (l.map (·.2)).sum
    r.map (·.1) = l.map (·.1) ∧ (r.map (·.2.1)).sum = Nat.min q total ∧ (∀ x ∈ List.zip l r, x.2.2.1 ≤ x.1.2) ∧
    (r.filter (·.2.2)).length = (if fr = true ∧ 0 < q ∧ q ≤ total then 1 else 0) ∧
    (∀ i g l', r = l' ++ [(i, g, true)] → (l'.map (·.2.1)).sum + g = q))

/-- Outside reset: a whole RAKE of this tick on an ACTIVE DOWN port is kept for its plane while the plane’s output has not begun; one that fails its CRC has begun and is missing; another leaves all as it was. A cell whose expected inputs are in sends its own report and theirs on the plane’s port; before RAKE_WAIT it waits for one that has not begun; from RAKE_WAIT on, or once it has failed its CRC, it counts as held with its stored count, 0 after HOLD_LIMIT ticks. At an ARM part the own plane’s histogram goes to RDL_HISTn and RDL_CNT; a held port is reported RAKE_HOLD, at HOLD_LIMIT also RAKE_LOST. Readings and choices of the model that it rests on: log entries 59, 62. (R149, R151, R152, R166, R167, R170, 05_riddle_balancing.md Table 5-3.) -/
def Obligations.RakeIsMergedAndHeld : Prop :=
  ∀ (p : Port) (k : Packet) (arr : Arrival) (b : Bool) (s : State), s.sys.inReset = false → notInjecting s = true →
    let kb := bitOf (k.payload.getD 0 0) 31
    let ins := (downPorts s).filterMap fun q => kget none s.rdl.inp (ppKey b q)
    let missing : List Nat := (rakeExpected s b).filter fun q => (kget none s.rdl.inp (ppKey b q)).isNone
    let mine : Prop := k.typ = 0x10 ∧ packetOk k = true ∧ dirOf s p = 3 ∧ isActive s p = true ∧ k.seq.toNat = tt8 s ∧ rakeSent s kb = false
    (arr = .good → mine →
      Answers (.rakeRx p k arr) s (fun t => { t with rdl := s.rdl } = s ∧ kget none t.rdl.inp (ppKey kb p) = some (histOf k.payload) ∧
        (∀ x, x ≠ ppKey kb p → kget none t.rdl.inp x = kget none s.rdl.inp x) ∧ { t.rdl with inp := s.rdl.inp } = s.rdl)) ∧
    (arr ≠ .good → mine → Answers (.rakeRx p k arr) s (fun t => t.rdl.bad = s.rdl.bad ++ [ppKey kb p] ∧ { t.rdl with bad := s.rdl.bad } = s.rdl ∧
      { t with rdl := s.rdl } = s)) ∧
    (¬ mine → Answers (.rakeRx p k arr) s (· = s)) ∧
    (∀ q, isCell s = true → rakeSent s b = false → rakePort s b = some q → (b = true → rakePort s false ≠ some q) → missing = [] →
      Answers (.rakeOutputStart b) s (fun t => Queued s t q (hopPacket s 0x10 (tt8 s) (histWords b (ins.foldl histAdd (ownHist s)))) ∧
        (rakeSent t b, rakeSent t !b) = (true, rakeSent s !b) ∧ (∀ r, r ≠ q → portOf t r = portOf s r) ∧ { t with ports := s.ports, rdl := s.rdl } = s)) ∧
    (isCell s = true → b = false → (∃ d ∈ missing, ppKey b d ∉ s.rdl.bad) → phaseOf s < rf s (rdlR 0x028) 14 0 → Answers (.rakeOutputStart b) s (· = s)) ∧
    (∀ q d, isCell s = true → b = false → rakeSent s b = false → rakePort s b = some q → rakeExpected s b = [d] → missing = [d] → ins = [] →
      (rf s (rdlR 0x028) 14 0 ≤ phaseOf s ∨ ppKey b d ∈ s.rdl.bad) → Answers (.rakeOutputStart b) s (fun t =>
        Queued s t q (hopPacket s 0x10 (tt8 s) (histWords b { ownHist s with
          held := if holdLimit s ≤ kget 0 s.rdl.quiet (ppKey b d) then 0 else kget 0 s.rdl.heldCnt (ppKey b d) })) ∧
        kget 0 t.rdl.heldRun (ppKey b d) = Nat.min 255 (kget 0 s.rdl.heldRun (ppKey b d) + 1) ∧ ppKey b d ∈ t.rdl.heldNow ∧
        rb t (rdlR 0x004) 5 = true ∧ t.flt = s.flt)) ∧
    (roleOf s = .arm → b = armPlane s → rakeSent s b = false → missing = [] → Answers (.rakeOutputStart b) s (fun t =>
      let h := ins.foldl histAdd default
      t.rdl.hist = some h ∧ (∀ n, n < 64 → reg t (rdlR (0x100 + 4 * n)) = wd (kget 0 h.cnt n % 4096)) ∧
      reg t (rdlR 0x030) = wd (h.c2r % 4096 * 4096 + h.c2x % 4096) ∧ (t.ports, t.mem, t.flt) = (s.ports, s.mem, s.flt))) ∧
    (∀ d, roleOf s = .arm → b = armPlane s → rakeSent s b = false → rakeExpected s b = [d] → missing = [d] → (rf s (rdlR 0x028) 14 0 ≤ phaseOf s ∨ ppKey b d ∈ s.rdl.bad) →
      Answers (.rakeOutputStart b) s (fun t => (now s, faultMsg 128 .rakeHold (rdlR 0x004) false) ∈ t.flt.bus ∧
        (kget 0 s.rdl.heldRun (ppKey b d) + 1 = holdLimit s → (now s, faultMsg 128 .rakeLost (rdlR 0x004) false) ∈ t.flt.bus ∧ rb t (rdlR 0x004) 6 = true)))

/-- At an ARM part outside reset: 1 to ENABLE starts the Riddle; a write of RDL_LEVEL stores N and FDUTY and sets GO. With a histogram and GO the selection runs on N and FDUTY, clears GO and gives RDL_QUOTA; without GO at phase LEVEL_DL LEVEL_LATE is reported and it runs with those of the previous tick, at once or when the histogram is complete. A standby part sends nothing; the active part sends BINS of the next tick on its DOWN port, in RUN or DEGRADED after a DESCENT with that port’s share, whose count it stores. Readings and choices of the model that it rests on: log entries 60, 61, 120. (R146, R147, R153, R154, R157, R158, R161, 05_riddle_balancing.md Table 5-12.) -/
def Obligations.SelectionRuns : Prop :=
  ∀ (o : Origin) (v : Word) (p : Nat) (g h : Hist) (s : State), s.sys.inReset = false → roleOf s = .arm → notInjecting s = true →
    let gated := rb s (rdlR 0x01C) 31
    let pos := iDir s s.rdl.iArm
    let ready : Prop := s.rdl.selDone = false ∧ s.rdl.hist = some h
    let q (n : Int) (f : Nat) : Quota := (selectQuota s h pos n f).1
    let word (n : Int) (f : Nat) : Word := wd ((q n f).cb * 2 ^ 30 + b2n (q n f).dir * 2 ^ 29 + b2n (q n f).neg * 2 ^ 28 + b2n (q n f).frac * 2 ^ 27 +
      b2n (selectQuota s h pos n f).2.1 * 2 ^ 26 + (q n f).bin * 2 ^ 21 + (q n f).q % 4096)
    let ran (n : Int) (f : Nat) (t : State) : Prop := t.rdl.selDone = true ∧ t.rdl.quota = q n f ∧ (t.rdl.lastN, t.rdl.lastF) = (n, f) ∧ reg t (rdlR 0x020) = word n f ∧
      rb t (rdlR 0x024) 0 = pos ∧ (t.swg, t.mem, t.sys) = (s.swg, s.mem, s.sys)
    let x := q (levelN s) (levelF s)
    let own := match orderPos x.dir x.cb x.bin with | some n => if x.cb = 3 then 0 else Nat.min x.q ((orderCounts x.dir g).getD n 0) | none => 0
    let bins : Packet := hopPacket s 0x11 ((tt8 s + 1) % 256) [reg s (rdlR 0x014), wd (Nat.max 1 (rf s (rdlR 0x02C) 3 0) * 2 ^ 28)]
    let fr := x.frac && decide (0 < own) && own == x.q
    let desc : Packet := hopPacket s 0x12 (tt8 s) (quotaWords { x with hold := false, q := own, frac := fr })
    (reachable s (rdlR 0) = true → bitOf v 0 = true → Answers (.rdlEnableWrite o v) s (fun t =>
      t.rdl = { s.rdl with first := true } ∧ reg t (rdlR 0) = (reg s (rdlR 0) &&& ~~~5#32) ||| (v &&& 5#32) ∧ { t with rdl := s.rdl, regs := s.regs } = s)) ∧
    (reachable s (rdlR 0x01C) = true → bitOf v 31 = true → phaseOf s ≤ rf s (rdlR 0x028) 30 16 → Answers (.levelGoWrite o v) s (fun t => rb t (rdlR 0x01C) 31 = true ∧
      (levelN t, levelF t) = (sext 13 (fld v 28 16), fld v 15 0) ∧ (∀ a, a ≠ rdlR 0x01C → reg t a = reg s a) ∧ { t with regs := s.regs, swSet := s.swSet } = s)) ∧
    (ready → gated = true → s.rdl.late = false → (0 ≤ levelN s ∨ fullBridge s = true) → s.swSet = [] → Answers .selectionRun s (fun t => ran (levelN s) (levelF s) t ∧
      rb t (rdlR 0x01C) 31 = false ∧ (s.sys.pair.active = false → s.sys.pair.gap = false → t.ports = s.ports) ∧
      (s.sys.pair.active = true → s.rdl.first = false → downPorts s = [p] → isActive s p = true → partnerPort s = none → running s = false → (portOf t p).q1 = (portOf s p).q1 ++ [bins]) ∧
      (s.sys.pair.active = true → s.rdl.first = false → downPorts s = [p] → isActive s p = true → partnerPort s = none → s.rdl.heldNow = [] →
        kget none s.rdl.inp (ppKey (armPlane s) p) = some g → running s = true → (portOf t p).q1 = (portOf s p).q1 ++ [desc, bins]))) ∧
    (ready → s.rdl.late = true → (0 ≤ s.rdl.lastN ∨ fullBridge s = true) → Answers .selectionRun s (ran s.rdl.lastN s.rdl.lastF)) ∧
    ((s.rdl.hist = none ∨ s.rdl.selDone = true ∨ (gated = false ∧ s.rdl.late = false)) → Answers .selectionRun s (· = s)) ∧
    (s.rdl.selDone = false → s.rdl.late = false → s.rdl.hist = none → gated = false → rf s (rdlR 0x028) 30 16 ≤ phaseOf s → Answers .levelDeadline s (fun t =>
      t.rdl = { s.rdl with late := true } ∧ rb t (rdlR 0x004) 2 = true ∧ Reports s t 128 .levelLate (rdlR 0x004) ∧ (t.ports, t.sys) = (s.ports, s.sys))) ∧
    ((s.rdl.selDone = true ∨ s.rdl.late = true ∨ gated = true ∨ phaseOf s < rf s (rdlR 0x028) 30 16) → Answers .levelDeadline s (· = s)) ∧
    (ready → s.rdl.late = false → gated = false → rf s (rdlR 0x028) 30 16 ≤ phaseOf s → (0 ≤ s.rdl.lastN ∨ fullBridge s = true) →
      Answers .levelDeadline s (fun t => ran s.rdl.lastN s.rdl.lastF t ∧ rb t (rdlR 0x004) 2 = true ∧
        (now s, faultMsg 128 .levelLate (rdlR 0x004) false) ∈ t.flt.bus))

/-- In a cell outside reset: BINS of the next tick from an ACTIVE UP port are kept and go on to the DOWN port. The DESCENT of this tick, up to the first edge phase and the first one, gives a leaf in RUN or DEGRADED its state: full before the boundary or with a share in it, the fraction where its share is the last unit with FRAC, else 0; -1 only with FULLBRIDGE. HOLD keeps the previous state, 0 for the fractional cell or past HOLD_LIMIT, and counts HOLD_RUN; so does a missing DESCENT, which is reported. In READY a DESCENT deblocks when the ledger admits it. Readings and choices of the model that it rests on: log entries 57, 59. (R146, R159, R162, R165, R167, R180, R502, 17_supply_start_and_modes.md Table 17-5.) -/
def Obligations.CellTakesBinsAndShare : Prop :=
  ∀ (p : Port) (k : Packet) (s : State), s.sys.inReset = false → isCell s = true → notInjecting s = true →
    let q := quotaOf k.payload
    let m := orderPos q.dir s.rdl.cls s.rdl.bin
    let b := if q.cb = 3 then none else orderPos q.dir q.cb q.bin
    let full := if q.neg then (if fullBridge s then Cell.minus else .zero) else .plus
    let took : Decision := match m, b with
      | some m, some b => if m < b then ⟨full, false, 0⟩
          else if m = b ∧ 0 < q.q then (if q.frac = true ∧ q.q = 1 ∧ full ≠ .zero then ⟨full, true, tOn s q.fduty⟩ else ⟨full, false, 0⟩) else ⟨.zero, false, 0⟩
      | _, _ => ⟨.zero, false, 0⟩
    let mine : Prop := k.typ = 0x12 ∧ packetOk k = true ∧ isActive s p = true ∧ (dirOf s p = 1 ∨ dirOf s p = 2) ∧ k.seq.toNat = tt8 s ∧ s.rdl.gotDesc = false ∧ phaseOf s ≤ firstEdge s
    (∀ d, k.typ = 0x11 → packetOk k = true → isActive s p = true → (dirOf s p = 1 ∨ dirOf s p = 2) → k.seq.toNat = (tt8 s + 1) % 256 → downPorts s = [d] → isActive s d = true → Answers (.binsRx p k) s (fun t =>
      t.rdl = { s.rdl with binsNew := some ⟨fld (k.payload.getD 0 0) 31 16, fld (k.payload.getD 0 0) 15 0, fld (k.payload.getD 1 0) 31 28⟩ } ∧
      Queued s t d (hopPacket s 0x11 k.seq.toNat k.payload) ∧ (∀ r, r ≠ d → portOf t r = portOf s r) ∧ { t with ports := s.ports, rdl := s.rdl } = s)) ∧
    (mine → downPorts s = [] → running s = true → q.hold = false → s.rdl.state ≠ .bypassed → s.rdl.cls ≤ 3 → s.rdl.bin < 32 → Answers (.descentRx p k) s (fun t =>
      t.rdl.dec = some took ∧ (t.rdl.gotDesc, t.rdl.holdRun, t.rdl.state) = (true, 0, s.rdl.state) ∧ (t.swg, t.ports, t.mem, t.sys) = (s.swg, s.ports, s.mem, s.sys) ∧
      ((q.neg = false ∨ fullBridge s = true) → (t.regs, t.flt) = (s.regs, s.flt)))) ∧
    (mine → downPorts s = [] → q.hold = true → Answers (.descentRx p k) s (fun t => t.rdl.dec = (if running s then holdState s else none) ∧ t.rdl.gotDesc = true ∧
      t.rdl.holdRun = Nat.min 15 (s.rdl.holdRun + 1) ∧ { t with rdl := s.rdl } = s)) ∧
    (¬ mine → Answers (.descentRx p k) s (· = s)) ∧
    (mine → q.hold = false → modeOf s = .ready → quarHeld s = false → deblockAdmit s (enChans s) = true → Answers (.descentRx p k) s (fun t => modeOf t = .run)) ∧
    (mine → q.hold = false → modeOf s = .ready → quarHeld s = false → deblockAdmit s (enChans s) = false → Answers (.descentRx p k) s (fun t => modeOf t = .ready ∧
      rb t (supR 0x128) 2 = true ∧ (now s, faultMsg 387 .ledgerRefuse (supR 0x128) false) ∈ t.flt.bus)) ∧
    (s.tmk.ticked = true → s.rdl.gotDesc = false → firstEdge s ≤ phaseOf s → Answers .descentDeadline s (fun t => Reports s t 129 .descentMissing (rdlR 0x004) ∧
      rb t (rdlR 0x004) 8 = true ∧ t.rdl.dec = (if running s then holdState s else none) ∧ t.rdl.gotDesc = true ∧ t.rdl.holdRun = Nat.min 15 (s.rdl.holdRun + 1) ∧ (t.swg, t.ports, t.mem, t.sys) = (s.swg, s.ports, s.mem, s.sys))) ∧
    ((s.tmk.ticked = false ∨ s.rdl.gotDesc = true ∨ phaseOf s < firstEdge s) → Answers .descentDeadline s (· = s))

/-- In a cell outside reset: from its edge instant on, in RUN or DEGRADED, the decision of the tick is taken once: the state, and the switches it asks of leg A; a switch no longer asked for is low; one asked for rises at once where R194 lets it. A fraction gets a pulse of its T_on limited by MIN_OFF and moved out of the edge windows, or none below MIN_ON. Leg B follows LEG_GAP later; the off edge of the pulse takes 0 and writes T_ON_LAST, PULSE and DEFER. An INSERT for this node’s index 0 forces a state only in READY with INSERT_EN, a LEN and the ledger’s admission; the state holds for LEN edge instants, then B. For every cell, edge phase and asked length there is no pulse below MIN_ON; else the pulse is the asked length, limited to the period less MIN_OFF and then marked PULSE, and where its off edge would fall in an edge window of the cells it is moved to that window’s end and marked DEFER; where it is not moved it is in no window. Readings and choices of the model that it rests on: log entries 63, 64. (R177, R178, R180, R181, R187, R188, R189, 06_insertion_and_modulation.md Table 6-1, R182, 06_insertion_and_modulation.md.) -/
def Obligations.EdgesOfACell : Prop :=
  (∀ (k : Packet) (s : State), s.sys.inReset = false → isCell s = true → notInjecting s = true →
    let te := edgePhase s
    let mine : Prop := isOwn s k.dest = true ∧ k.typ = 0x13 ∧ packetOk k = true ∧ epOf k.dest = 0
    let others (t : State) : Prop := (t.mem, t.ports, t.sys, t.flt, t.saf) = (s.mem, s.ports, s.sys, s.flt, s.saf)
    (∀ st, s.rdl.edgeDone = false → te ≤ phaseOf s → running s = true → s.rdl.gotDesc = true → s.rdl.dec = some ⟨st, false, 0⟩ → (st = .zero ∨ st = .plus) → Answers .edgeInstant s (fun t =>
      (t.rdl.state, t.rdl.fracNow, t.rdl.dec, t.rdl.edgeDone, t.rdl.pulse) = (st, false, none, true, none) ∧ legWant t 0 = (st == .plus, st == .zero) ∧ t.regs = s.regs ∧ others t ∧
      (has8 t.swg.gcmd 0 = true → st = .plus) ∧ (has8 t.swg.gcmd 1 = true → st = .zero) ∧ (s.swg.gcmd = 0 → has8 s.swg.waitOn 1 = false → st = .plus → mayRiseCh s 0 = true → has8 t.swg.gcmd 0 = true))) ∧
    (∀ ton, s.rdl.edgeDone = false → te ≤ phaseOf s → running s = true → s.rdl.gotDesc = true → s.rdl.dec = some ⟨.plus, true, ton⟩ →
      (ton < minOn s → Answers .edgeInstant s (fun t => (t.rdl.state, t.rdl.fracNow, t.rdl.pulse) = (.zero, false, none) ∧ rb t (rdlR 0x058) 1 = true ∧ others t)) ∧
      (∀ len clip dfr, pulseShape s te ton = some (len, clip, dfr) → Answers .edgeInstant s (fun t => (t.rdl.state, t.rdl.fracNow) = (.plus, true) ∧
        t.rdl.pulse = some ⟨now s - phaseOf s + te + len, len, clip, dfr⟩ ∧ legWant t 0 = (true, false) ∧ t.regs = s.regs ∧ others t))) ∧
    ((s.rdl.edgeDone = true ∨ phaseOf s < te) → Answers .edgeInstant s (· = s)) ∧
    (s.rdl.edgeDone = false → te ≤ phaseOf s → s.tmk.ticked = true → s.rdl.gotDesc = false → Answers .edgeInstant s (fun t =>
      (now s, faultMsg 129 .descentMissing (rdlR 0x004) false) ∈ t.flt.bus ∧ rb t (rdlR 0x004) 8 = true ∧ (t.rdl.edgeDone, t.rdl.gotDesc) = (true, true))) ∧
    (∀ f, s.rdl.edgeDone = false → te ≤ phaseOf s → modeOf s = .ready → s.rdl.gotDesc = true → s.rdl.forceNow = some f → Answers .edgeInstant s (fun t => t.rdl.state = f.st ∧
      t.rdl.forced = some ⟨f.st, f.left - 1⟩ ∧ t.rdl.forceNow = none ∧ t.regs = s.regs ∧ others t)) ∧
    (∀ f, s.rdl.edgeDone = false → te ≤ phaseOf s → modeOf s = .ready → s.rdl.gotDesc = true → s.rdl.forceNow = none → s.rdl.forced = some f → f.left ≠ 0 → Answers .edgeInstant s (fun t =>
      t.rdl.state = f.st ∧ t.rdl.forced = some ⟨f.st, f.left - 1⟩ ∧ t.regs = s.regs ∧ others t)) ∧
    (∀ f, s.rdl.edgeDone = false → te ≤ phaseOf s → modeOf s = .ready → s.rdl.gotDesc = true → s.rdl.forceNow = none → s.rdl.forced = some f → f.left = 0 → Answers .edgeInstant s (fun t =>
      t.rdl.state = .blocked ∧ t.rdl.forced = none ∧ legWant t 0 = (false, false) ∧ has8 t.swg.gcmd 0 = false ∧ has8 t.swg.gcmd 1 = false ∧ others t)) ∧
    (∀ c, s.rdl.legB = some c → te + legGap s ≤ phaseOf s → Answers .legBEdge s (fun t => t.rdl = { s.rdl with legB := none } ∧ legWant t 1 = legB (fullBridge s) c ∧
      legWant t 0 = legWant s 0 ∧ (∀ m, m < 2 → has8 t.swg.gcmd m = has8 s.swg.gcmd m) ∧ t.regs = s.regs ∧ others t)) ∧
    ((s.rdl.legB = none ∨ phaseOf s < te + legGap s) → Answers .legBEdge s (· = s)) ∧
    (∀ p, s.rdl.pulse = some p → p.offAt ≤ now s → Answers .fracOffEdge s (fun t => (t.rdl.state, t.rdl.fracNow, t.rdl.pulse) = (.zero, false, none) ∧ legWant t 0 = (false, true) ∧
      has8 t.swg.gcmd 0 = false ∧ rf t (rdlR 0x058) 31 16 = p.ton % 65536 ∧ (p.clip = true → rb t (rdlR 0x058) 1 = true) ∧ (p.defer = true → rb t (rdlR 0x058) 2 = true) ∧ others t)) ∧
    ((∀ p, s.rdl.pulse = some p → now s < p.offAt) → Answers .fracOffEdge s (· = s)) ∧
    (∀ c, mine → insertCell (fld (k.payload.getD 0 0) 31 29) = some c → modeOf s = .ready → rb s (rdlR 0x054) 0 = true → fld (k.payload.getD 0 0) 15 8 ≠ 0 → (c ≠ .minus ∨ fullBridge s = true) →
      deblockAdmit s ((stateChans (fullBridge s) c).filter (chOn s)) = true → Answers (.insertRx k) s (fun t =>
        t.rdl = { s.rdl with forceNew := some ⟨c, fld (k.payload.getD 0 0) 15 8⟩ } ∧ { t with rdl := s.rdl } = s)) ∧
    (∀ c, mine → insertCell (fld (k.payload.getD 0 0) 31 29) = some c → modeOf s = .ready → rb s (rdlR 0x054) 0 = true → fld (k.payload.getD 0 0) 15 8 ≠ 0 → (c ≠ .minus ∨ fullBridge s = true) →
      deblockAdmit s ((stateChans (fullBridge s) c).filter (chOn s)) = false → Answers (.insertRx k) s (fun t => t.rdl = s.rdl ∧ t.swg = s.swg ∧ rb t (rdlR 0x058) 0 = true ∧
        t.flt.bus = s.flt.bus ++ [(now s, faultMsg 387 .ledgerRefuse (supR 0x128) false), (now s, faultMsg 130 .insertRefused (rdlR 0x058) false)])) ∧
    (¬ mine → Answers (.insertRx k) s (· = s)) ∧
    (mine → (modeOf s ≠ .ready ∨ rb s (rdlR 0x054) 0 = false ∨ fld (k.payload.getD 0 0) 15 8 = 0 ∨ insertCell (fld (k.payload.getD 0 0) 31 29) = none ∨
        (insertCell (fld (k.payload.getD 0 0) 31 29) = some .minus ∧ fullBridge s = false)) → Answers (.insertRx k) s (fun t =>
      Reports s t 130 .insertRefused (rdlR 0x058) ∧ rb t (rdlR 0x058) 0 = true ∧ t.rdl = s.rdl ∧ t.swg = s.swg))) ∧
  (∀ (s : State) (te ton : Nat),
    let per := periodLt s
    let len := edgeSpan s + 20
    let t1 := Nat.min ton (per - minOff s)
    let into (w : Nat) (x : Nat) : Nat := (te + x + per * 4 - w) % per
    let starts (w : Nat) : Prop := ∃ k g, k < nSlot s ∧ (g = 0 ∨ g = legGap s) ∧ w = firstEdge s + k * stagger s + g + per - 10
    (ton < minOn s ↔ pulseShape s te ton = none) ∧
    (∀ x clip dfr, pulseShape s te ton = some (x, clip, dfr) → clip = decide (per - minOff s < ton) ∧
      (dfr = false → x = t1 ∧ ∀ w, starts w → len < into w t1) ∧ (dfr = true → ∃ w, starts w ∧ into w t1 ≤ len ∧ x = t1 + (len - into w t1))))

/-- In a cell outside reset with no turn-off running: a turn-on that waits rises once R194 lets it; feedback is read and judged FB_TMO after an edge, or at once while GCMD is steady; the comparators become active BLANK after the rise and at the first on-reading, and watch while GCMD is high and 4 ns more. A wrong feedback, an active desaturation or hard-short comparator sets its flag, is reported, makes every GCMD low with SOFTOFF, takes the part to SAFE and requests Safe Bypass if E_RES is covered. Under-voltage of an ARMED channel does so in RUN with a Cayenne; otherwise the channel alone goes low with UV_WARN. Readings and choices of the model that it rests on: log entries 65, 67. (R194, R196, R197, R198, R201, R203, R204, R205, R206, R209, 07_switch_guard_and_energy_ledger.md Table 7-2.) -/
def Obligations.GuardDetectsAndTurnsOff : Prop :=
  ∀ (m : Fin 8) (pin : Bool) (s : State), s.sys.inReset = false → isCell s = true → notInjecting s = true → s.swg.seqAt = none → s.sys.barred = false →
    let v := gfbOf s m pin
    let watched : Prop := chOn s m = true ∧ (has8 s.swg.gcmd m = true ∨ now s ≤ kget 0 s.swg.offLt m + 2)
    let seen (g : Swg) : Swg := { g with gfb := set8 g.gfb m v, hs := if v && has8 g.gcmd m then set8 g.hs m true else g.hs }
    let only (f : Swg → Swg) (t : State) : Prop := t = { s with swg := f s.swg }
    let down (t : State) (bit : Nat) (k : Kind) : Prop := rb t (swgR (0x108 + 0x10 * m)) bit = true ∧ (now s, faultMsg (160 + m) k (swgR (0x108 + 0x10 * m)) false) ∈ t.flt.bus ∧
      (t.swg.gcmd, t.swg.want, t.swg.softoff, t.swg.tripped, t.swg.seqAt) = (0, 0, true, true, some (now s)) ∧ modeOf t = .safe ∧ t.sys.cause.getLsbD 0 = true ∧ t.mem = s.mem
    let trips (t : State) (bit : Nat) (k : Kind) : Prop := down t bit k ∧ (if eRes s ≤ s.sup.eAvail then t.saf.demand.getLsbD 2 = true else rb t (supR 0x128) 3 = true)
    (has8 s.swg.waitOn m = true → has8 s.swg.want m = true → mayRiseCh s m = true → has8 s.swg.gcmd m = false → Answers (.deadtimeTurnOn m) s (fun t =>
      t.swg.gcmd = set8 s.swg.gcmd m true ∧ kget 0 t.swg.onLt m = now s ∧ kget none t.swg.fbDue m = some (now s + fbTmo s) ∧ has8 t.swg.waitOn m = false ∧
      { t with swg := s.swg } = s)) ∧
    ((has8 s.swg.waitOn m = false ∨ has8 s.swg.want m = false ∨ mayRiseCh s m = false) → Answers (.deadtimeTurnOn m) s (· = s)) ∧
    (∀ d, chOn s m = true → kget none s.swg.fbDue m = some d → d ≤ now s →
      (v = has8 s.swg.gcmd m → Answers (.fbCheck m pin) s (only fun g => { seen g with fbDue := kput none g.fbDue m none })) ∧
      (v ≠ has8 s.swg.gcmd m → Answers (.fbCheck m pin) s (trips · 3 .fbFault))) ∧
    (chOn s m = true → (∀ d, kget none s.swg.fbDue m = some d → now s < d) → Answers (.fbCheck m pin) s (only seen)) ∧
    (chOn s m = false → Answers (.fbCheck m pin) s (· = s) ∧ Answers (.gfbChange m pin) s (· = s)) ∧
    (v = has8 s.swg.gfb m → Answers (.gfbChange m pin) s (· = s)) ∧
    (chOn s m = true → v ≠ has8 s.swg.gfb m →
      (((kget none s.swg.fbDue m).isSome = true ∨ has8 s.swg.mute m = true ∨ rb s (swgR (0x108 + 0x10 * m)) 5 = true) → Answers (.gfbChange m pin) s (only seen)) ∧
      ((kget none s.swg.fbDue m).isSome = false → has8 s.swg.mute m = false → rb s (swgR (0x108 + 0x10 * m)) 5 = false → Answers (.gfbChange m pin) s (trips · 3 .fbFault))) ∧
    (has8 s.swg.gcmd m = true → kget 0 s.swg.onLt m + blank s m ≤ now s → Answers (.desatBlankEnd m) s (only fun g => { g with desat := set8 g.desat m true })) ∧
    ((has8 s.swg.gcmd m = false ∨ now s < kget 0 s.swg.onLt m + blank s m) → Answers (.desatBlankEnd m) s (· = s)) ∧
    (watched → has8 s.swg.desat m = true → Answers (.desatDetect m) s (trips · 0 .desat)) ∧ ((¬ watched ∨ has8 s.swg.desat m = false) → Answers (.desatDetect m) s (· = s)) ∧
    (watched → has8 s.swg.hs m = true → Answers (.hardShortDetect m) s (trips · 1 .hardShort)) ∧ ((¬ watched ∨ has8 s.swg.hs m = false) → Answers (.hardShortDetect m) s (· = s)) ∧
    (chOn s m = true → s.sup.stage.getLsbD 3 = true → Answers (.uvArm m) s (only fun g => { g with armed := set8 g.armed m true })) ∧
    ((chOn s m = false ∨ s.sup.stage.getLsbD 3 = false) → Answers (.uvArm m) s (· = s)) ∧ (has8 s.swg.armed m = false → Answers (.uvTrip m) s (· = s)) ∧
    (has8 s.swg.armed m = true → running s = true → Answers (.uvTrip m) s (fun t => down t 2 .uvTrip ∧ has8 t.swg.armed m = false ∧
      (∀ p : Port, isLive s p = true → ∃ e, Sent.cayenne p 0 0 e ∈ t.sent))) ∧
    (has8 s.swg.armed m = true → running s = false → Answers (.uvTrip m) s (fun t => Reports s t (160 + m) .uvWarn (swgR (0x108 + 0x10 * m)) ∧ has8 t.swg.gcmd m = false ∧
      (∀ n, n ≠ m.val → has8 t.swg.gcmd n = has8 s.swg.gcmd n) ∧ has8 t.swg.armed m = false ∧ { t with swg := s.swg, flt := s.flt } = s))

/-- In a cell outside reset whose turn-off began at t, with every gate command low (TurnOffLow): SOFT_HOLD later SOFTOFF is released; FB_TMO after that every enabled gate feedback is read; with all off the check is done and the sequence over, GCMD and mode unchanged; a gate that reads on sets OFF_FAIL and is reported, and Safe Bypass is requested if it was not yet and E_RES is covered. Before those instants nothing changes, and no switch rises while the sequence runs; what a comparator detects until the drop, or within 4 ns of it, still sets its flag and is reported. Readings and choices of the model that it rests on: log entry 67. (R200, R206, R208, R209, 07_switch_guard_and_energy_ledger.md Table 7-2.) -/
def Obligations.TurnOffEnds : Prop :=
  ∀ (t0 : Nat) (pins : BitVec 8) (m : Fin 8) (s : State), s.sys.inReset = false → isCell s = true → notInjecting s = true → s.swg.seqAt = some t0 → TurnOffLow s →
    let read : State → Prop := fun t => ∀ k : Fin 8, has8 t.swg.gfb k = if chOn s k then gfbOf s k (has8 pins k) else has8 s.swg.gfb k
    (t0 + softHold s ≤ now s → Answers .softoffRelease s (fun t => t.swg = { s.swg with softoff := false, seqAt := if s.swg.offChk then some t0 else none } ∧ { t with swg := s.swg } = s)) ∧
    (now s < t0 + softHold s → Answers .softoffRelease s (· = s)) ∧
    (s.swg.offChk = true → t0 + softHold s + fbTmo s ≤ now s → (∀ k : Fin 8, chOn s k = true → gfbOf s k (has8 pins k) = false) → Answers (.offCheck pins) s (fun t =>
      t.swg.offChk = false ∧ t.swg.seqAt = (if s.swg.softoff then some t0 else none) ∧ read t ∧ (t.swg.gcmd, t.swg.softoff) = (s.swg.gcmd, s.swg.softoff) ∧ { t with swg := s.swg } = s)) ∧
    (s.swg.offChk = true → t0 + softHold s + fbTmo s ≤ now s → chOn s m = true → gfbOf s m (has8 pins m) = true → Answers (.offCheck pins) s (fun t =>
      rb t (swgR (0x108 + 0x10 * m)) 5 = true ∧ (now s, faultMsg (160 + m) .offFail (swgR (0x108 + 0x10 * m)) false) ∈ t.flt.bus ∧ t.swg.offChk = false ∧ read t ∧
      (s.swg.asked = false → eRes s ≤ s.sup.eAvail → t.saf.demand.getLsbD 2 = true))) ∧
    ((s.swg.offChk = false ∨ now s < t0 + softHold s + fbTmo s) → Answers (.offCheck pins) s (· = s)) ∧
    Answers (.deadtimeTurnOn m) s (· = s) ∧
    (chOn s m = true → now s ≤ kget 0 s.swg.offLt m + 2 →
      (has8 s.swg.desat m = true → Answers (.desatDetect m) s (fun t => rb t (swgR (0x108 + 0x10 * m)) 0 = true ∧ (now s, faultMsg (160 + m) .desat (swgR (0x108 + 0x10 * m)) false) ∈ t.flt.bus)) ∧
      (has8 s.swg.hs m = true → Answers (.hardShortDetect m) s (fun t => rb t (swgR (0x108 + 0x10 * m)) 1 = true ∧ (now s, faultMsg (160 + m) .hardShort (swgR (0x108 + 0x10 * m)) false) ∈ t.flt.bus)))

/-- Outside reset with no injection: TG_LEAD before the expected tick the group starts, once for a tick; a conversion of its current entry at the end of its slot, or of the next scan channel, stores the code, with dither made from the sequence of R226, and its scaled VALUE, in the group also for the tick. 256 dithered samples below S_MIN freeze the channel as ADC_STUCK, others thaw it. The bits of a sigma-delta frame pass the sinc3 filter; the delay-corrected result is stored, valid from the third, and the limit checker on it reports FILT results above TH; 64 clocks without a transition are a loss, in which RESULT stays until the third frame with transitions. The pulse input takes a level stable for FILT; it counts, decodes quadrature or measures the period, which NO_PULSE makes 0. Readings and choices of the model that it rests on: log entries 68, 69, 70, 121, 122. (R219, R223, R224, R226, R227, R230, R232, R235, R236, R237, R385, 08_sense_front_end.md Table 8-2.) -/
def Obligations.SenseFrontEnd : Prop :=
  ∀ (c : Fin 17) (n : Fin 8) (raw : BitVec 15) (bits : BitVec 256) (a b : Bool) (s : State), s.sys.inReset = false → notInjecting s = true →
    let r := s.sns
    let only (f : Sns → Sns) (t : State) : Prop := t = { s with sns := f s.sns }
    let di := rb s (snsR (0x100 + 0x10 * c)) 30
    let code := if di then Nat.min 16383 (if r.prbs.getLsbD 0 then raw.toNat / 2 else (raw.toNat + 2) / 2) else raw.toNat % 16384
    let v : Nat := if 8 ≤ c.val ∧ c.val ≤ 15 then code * 1800 / 16384 else
      let y := (((code : Int) - sext 16 (rf s (snsR (0x100 + 0x10 * c)) 15 0)) * (rf s (snsR (0x104 + 0x10 * c)) 15 0 : Nat) + 2048).fdiv 4096
      if rb s (snsR (0x100 + 0x10 * c)) 31 then (clampI (-32768) 32767 y % 65536).toNat else (clampI 0 65535 y).toNat
    let enabled := rb s (snsR 0) 0
    (enabled = true → tgEntries s ≠ [] → r.begun = false → expectedLt s ≤ now s + rf s (snsR 0x010) 14 0 →
      Answers .tickGroupStart s (only fun q => { q with running := true, begun := true, groupAt := now s, entry := 0, done := [], doneLt := [] })) ∧
    ((enabled = false ∨ tgEntries s = [] ∨ r.begun = true ∨ now s + rf s (snsR 0x010) 14 0 < expectedLt s) → Answers .tickGroupStart s (· = s)) ∧
    let sampled (t : State) : Prop := di = true → t.sns.prbs = Config.ditherNext r.prbs ∧ kget 0 t.sns.dCnt c = kget 0 r.dCnt c + 1
    (enabled = true → (di = true → kget 0 r.dCnt c < 256) →
      (∀ k, r.running = true → r.groupAt + 100 * (r.entry + 1) ≤ now s → (tgEntries s)[r.entry]? = some (k, c.val) → Answers (.sarConversionDone c raw) s (fun t => sampled t ∧
        reg t (snsR (0x108 + 0x10 * c)) = wd (code * 65536 + v) ∧ kget none t.sns.done c = some (wd v) ∧ kget 0 t.sns.doneLt c = now s ∧
        (t.sns.entry, t.sns.running) = (r.entry + 1, decide (r.entry + 1 < (tgEntries s).length)) ∧
        (∀ d, d ≠ snsR (0x108 + 0x10 * c) → reg t d = reg s d) ∧ { t with regs := s.regs, sns := s.sns } = s)) ∧
      (groupFits s c = false → rb s (snsR 0) 1 = true → scanFits s = true → nextScan s r.scan = some c.val → Answers (.sarConversionDone c raw) s (fun t => sampled t ∧
        reg t (snsR (0x108 + 0x10 * c)) = wd (code * 65536 + v) ∧ (t.sns.scan, t.sns.convAt, t.sns.entry) = ((c.val + 1) % 17, now s, r.entry) ∧
        (∀ d, d ≠ snsR (0x108 + 0x10 * c) → reg t d = reg s d) ∧ { t with regs := s.regs, sns := s.sns } = s))) ∧
    ((enabled = false ∨ (groupFits s c = false ∧ (rb s (snsR 0) 1 = false ∨ scanFits s = false ∨ nextScan s r.scan ≠ some c.val))) → Answers (.sarConversionDone c raw) s (· = s)) ∧
    (kget 0 r.dCnt c < 256 → Answers (.ditherBlockEnd c) s (· = s)) ∧
    (256 ≤ kget 0 r.dCnt c → Answers (.ditherBlockEnd c) s (fun t => kget 0 t.sns.dSum c = 0 ∧ kget 0 t.sns.dCnt c = 0 ∧
      (if kget 0 r.dSum c < (rf s (snsR 0x014) 15 0 : Int) then t.sns.frozen.getLsbD c = true ∧ rb t (snsR 0x008) c = true ∧ Reports s t (192 + c) .adcStuck (snsR 0x008)
       else t.sns.frozen.getLsbD c = false ∧ { t with sns := s.sns } = s))) ∧
    (rb s (snsR (0x400 + 0x10 * n)) 31 = true → rb s (snsR (0x300 + 4 * rf s (snsR (0x400 + 0x10 * n)) 27 26)) 31 = true →
      let cfg := reg s (snsR (0x400 + 0x10 * n))
      let bs := frameBits (sdOsr cfg) bits
      let f := sincFrame (kget default r.sinc n) bs
      let y := sdFrame (sdOsr cfg) f.2
      let y1 := if kget 0 r.sdFrm n = 0 then y else kget 0 r.sdRaw n
      let res := rdivUp (y * sdTout s cfg + (y1 - y) * fld cfg 23 16) (sdTout s cfg)
      (has8 r.sdLost n = true → kget 0 r.sdFrm n < 2 → Answers (.sdResult n bits) s (fun t => kget default t.sns.sinc n = f.1 ∧ kget 0 t.sns.sdRaw n = y ∧
        kget 0 t.sns.sdFrm n = kget 0 r.sdFrm n + b2n (moves (kget false r.sdBit n) bs) ∧ t.sns.sdValid = r.sdValid ∧ { t with sns := s.sns } = s)) ∧
      (has8 r.sdLost n = false → Answers (.sdResult n bits) s (fun t => reg t (snsR (0x404 + 0x10 * n)) = wdI res ∧ kget 0 t.sns.sdAt n = now s ∧ kget 0 t.sns.sdRaw n = y ∧ kget default t.sns.sinc n = f.1 ∧
        has8 t.sns.sdValid n = (has8 r.sdValid n || decide (2 ≤ kget 0 r.sdFrm n)) ∧ (∀ d, d ≠ snsR (0x404 + 0x10 * n) → reg t d = reg s d) ∧
        (∀ k : Fin 8, (∀ q, q < 16 → rb s (qcR q 0) 31 = false) → (∀ m : Fin 8, rb s (fltR (0x300 + 8 * m)) 31 = decide (m = k)) → rf s (fltR (0x300 + 8 * k)) 26 24 = n.val → rb s (fltR (0x300 + 8 * k)) 30 = false →
          if sext 24 (rf s (fltR (0x304 + 8 * k)) 23 0) < res ∧ kget false r.limUp k = false ∧ Nat.max 1 (rf s (fltR (0x300 + 8 * k)) 23 20) ≤ kget 0 r.limRun k + 1
          then Reports s t (322 + k) .limit (fltR (0x300 + 8 * k)) ∧ kget false t.sns.limUp k = true else t.flt = s.flt)))) ∧
    (sdRuns s n = false → Answers (.sdResult n bits) s (· = s) ∧ Answers (.sdLoss n) s (· = s)) ∧
    (has8 r.sdLost n = true → kget 0 r.sdFrm n = 0 → Answers (.sdLoss n) s (· = s)) ∧
    (rb s (snsR (0x400 + 0x10 * n)) 31 = true → rb s (snsR (0x300 + 4 * rf s (snsR (0x400 + 0x10 * n)) 27 26)) 31 = true → (has8 r.sdLost n = false ∨ kget 0 r.sdFrm n ≠ 0) → Answers (.sdLoss n) s (fun t =>
      has8 t.sns.sdValid n = false ∧ has8 t.sns.sdLost n = true ∧ kget 0 t.sns.sdFrm n = 0 ∧ rb t (snsR 0x380) n = true ∧
      Reports s t (209 + n) .sdLoss (snsR 0x380) ∧ (∀ d, d ≠ snsR 0x380 → reg t d = reg s d))) ∧
    (rb s (snsR 0x500) 31 = true →
      let filt := rf s (snsR 0x500) 7 0
      let acc (e : Nat) : Prop := (r.rawA = r.pa ∧ r.rawB = r.pb ∧ filt = 0 ∧ e = now s) ∨ (r.rawA = a ∧ a ≠ r.pa ∧ r.rawB = r.pb ∧ b = r.pb ∧ e = r.rawAAt + filt ∧ e ≤ now s)
      (r.rawA = r.pa → r.rawB = r.pb → 0 < filt → Answers (.pulseEdge a b) s (fun t => (t.sns.rawA, t.sns.rawB, t.sns.pa, t.sns.pb) = (a, b, r.pa, r.pb) ∧
        t.sns.rawAAt = (if a = r.pa then r.rawAAt else now s) ∧ { t with sns := s.sns } = s)) ∧
      (∀ z, acc z → (rf s (snsR 0x500) 25 24 = 0 ∨ rf s (snsR 0x500) 25 24 = 3) → a = true → r.pa = false → Answers (.pulseEdge a b) s (fun t => reg t (snsR 0x504) = (if b then reg s (snsR 0x504) - 1 else reg s (snsR 0x504) + 1) ∧
        (t.sns.pa, t.sns.pb) = (a, b) ∧ (∀ d, d ≠ snsR 0x504 → reg t d = reg s d) ∧ { t with regs := s.regs, sns := s.sns } = s)) ∧
      (∀ z, acc z → rf s (snsR 0x500) 25 24 = 2 → a ≠ r.pa → b = r.pb → Answers (.pulseEdge a b) s (fun t => (t.sns.pa, t.sns.pb) = (a, b) ∧
        reg t (snsR 0x504) = (if (quadPlace r.pa r.pb + 1) % 4 = quadPlace a b then reg s (snsR 0x504) + 1 else reg s (snsR 0x504) - 1) ∧ { t with regs := s.regs, sns := s.sns } = s)) ∧
      (∀ z, acc z → rf s (snsR 0x500) 25 24 = 2 → a ≠ r.pa → b ≠ r.pb → Answers (.pulseEdge a b) s (fun t => Reports s t 217 .quadErr (snsR 0x510) ∧ rb t (snsR 0x510) 0 = true ∧ reg t (snsR 0x504) = reg s (snsR 0x504))) ∧
      (∀ z e, acc z → rf s (snsR 0x500) 25 24 = 1 → a = true → r.pa = false → r.edgeLt = some e → Answers (.pulseEdge a b) s (fun t =>
        reg t (snsR 0x508) = wd (Nat.min 0xFFFFFFFF (z - e)) ∧ (t.sns.edgeLt, t.sns.pFrom, t.sns.noPulse) = (some z, z, false) ∧ { t with regs := s.regs, sns := s.sns } = s)) ∧
      (rf s (snsR 0x500) 25 24 = 1 → r.pFrom + ms (Nat.max 1 (rf s (snsR 0x500) 23 16)) ≤ now s → Answers .noPulse s (fun t => reg t (snsR 0x508) = 0 ∧ t.sns.noPulse = true ∧
        t = setReg { s with sns := { r with noPulse := true, edgeLt := none, pFrom := now s } } (snsR 0x508) 0)))

/-- Outside reset with no injection and no tick yet, at a multiple of 10 µs of LT: every tick-group channel converted before that cycle, with SAR_EN 1, gets its VALUE as snapshot; one that was not keeps its old one, or takes a value of the previous tick’s own cycle, and is reported SNS_STALE. In a cell E_AVAIL is the energy of capacitor and hold-up above their limits, F the consumption over HORIZON, H = E_AVAIL - F - E_RES in its range; below 0 for the first time it is reported, and in RUN takes the part to SAFE with every gate command low. Otherwise nothing happens. Readings and choices of the model that it rests on: log entries 6, 66. (R210, R211, R212, R217, R221, R222, R504, 07_switch_guard_and_energy_ledger.md Table 7-4.) -/
def Obligations.SnapshotsAndLedger : Prop :=
  ∀ (c : Fin 17) (s : State), s.sys.inReset = false → notInjecting s = true → s.sys.barred = false →
    ((s.tmk.ticked = true ∨ now s % 5000 ≠ 0) → Answers .preTickSnapshot s (· = s)) ∧
    (s.tmk.ticked = false → now s % 5000 = 0 → inTg s c = true →
      (∀ v, rb s (snsR 0) 0 = true → kget none s.sns.done c = some v → kget 0 s.sns.doneLt c < now s → Answers .preTickSnapshot s (fun t => reg t (snsR (0x10C + 0x10 * c)) = v)) ∧
      ((rb s (snsR 0) 0 = false ∨ kget none s.sns.done c = none ∨ now s ≤ kget 0 s.sns.doneLt c) → Answers .preTickSnapshot s (fun t =>
        reg t (snsR (0x10C + 0x10 * c)) = (kget none s.sns.late c).getD (reg s (snsR (0x10C + 0x10 * c))) ∧
        rb t (snsR 0x004) c = true ∧ (now s, faultMsg (192 + c) .snsStale (snsR 0x004) false) ∈ t.flt.bus))) ∧
    (s.tmk.ticked = false → now s % 5000 = 0 → isCell s = true → Answers .preTickSnapshot s (fun t =>
      let vc := snapOf t 0
      let va := snapOf t 16
      let psu := rf s (supR 0x104) 15 0
      let hmin := rf s (supR 0x108) 15 0
      let eCap := if psu < vc ∧ rf s (supR 0x10C) 31 16 ≤ va then Nat.min 4294967295 (clampN 50 100 (rf s (supR 0x10C) 7 0) * rf s (supR 0x104) 31 16 * (vc * vc - psu * psu) / 2000) else 0
      let eHold := if va ≤ hmin then 0 else Nat.min 4294967295 (rf s (supR 0x108) 31 16 * (va * va - hmin * hmin) / 20)
      t.sup.eAvail = Nat.min 4294967295 (eCap + eHold) ∧ reg t (supR 0x118) = wd t.sup.eAvail ∧
      (s.sup.pow = [] → rf t (supR 0x124) 15 0 = rf s (supR 0x100) 11 0 ∧ reg t (supR 0x11C) = wd (Nat.min 4294967295 (rf s (supR 0x100) 11 0 * horizon s + eGate s))) ∧
      t.sup.head = clampI (-2147483647) 2147483647 ((t.sup.eAvail : Int) - (reg t (supR 0x11C)).toNat - (reg s (supR 0x110)).toNat) ∧ reg t (supR 0x120) = wdI t.sup.head ∧
      (t.sup.head < 0 → s.sup.resRun = false → (now s, faultMsg 387 .ledgerReserve (supR 0x128) false) ∈ t.flt.bus ∧ rb t (supR 0x128) 1 = true ∧
        (running s = true → modeOf t = .safe ∧ (s.swg.seqAt = none → t.swg.gcmd = 0))) ∧
      (0 ≤ t.sup.head → t.sup.resRun = false ∧ t.swg = s.swg ∧ modeOf t = modeOf s)))

/-- Outside reset with no injection, for an instance whose check holds, in RUN or DEGRADED with its job due: with every measurement valid NORMAL stays and U, the observer and integrator states take the job’s values; a NaN or infinity leaves all of them and is reported LPE_NAN; an invalid measurement leads from NORMAL to COAST, or to HOLD with COAST_N 0; COAST returns when all are valid; HOLD keeps U, and past its limit the part goes to SAFE with FB_LOST. A limited value lies within its limits. ENABLE is checked and enters SETTLE with zero states, its job of this tick due while START is to come; SWAP is kept for the tick. Readings and choices of the model that it rests on: log entries 71, 72, 73. (R244, R245, R246, R247, R252, R253, R254, R255, R256, 09_loop_engine.md Table 9-1.) -/
def Obligations.ClassSJobRuns : Prop :=
  (∀ lo hi v : Word, fpBad lo = false → fpBad hi = false → fpCmp lo hi ≤ 0 → fpIsNan v = false → fpCmp lo (clampW lo hi v) ≤ 0 ∧ fpCmp (clampW lo hi v) hi ≤ 0) ∧
  (∀ (i : Fin 4) (o : Origin) (w : Word) (s : State), s.sys.inReset = false → notInjecting s = true → s.sys.barred = false →
    let x := instOf s i
    let z := sizesOf s i
    let input (a : Word) : Word × Bool :=
      (srcRaw s none (fld a 15 12) (fld a 11 0), srcValid s none (lpeByte s 0x010 i) (fld a 15 12) (fld a 11 0) (srcRaw s none (fld a 15 12) (fld a 11 0)))
    let ys := (List.range z.p).map fun j => input (reg s (lpeR (0x120 + 0x80 * i + 4 * j)))
    let rs := (List.range z.nr).map fun j => input (kget 0 x.rsrc j)
    let y0 := (List.range z.p).map fun j => mulW (coef s i (888 + j)) (subW (ys.getD j (0, false)).1 (coef s i (896 + j)))
    let ok := ys.all (·.2)
    let due : Prop := running s = true ∧ x.ran = false ∧ rf s (lpeR (0x10C + 0x80 * i)) 14 0 ≤ phaseOf s ∧ lpeCheck s i (rf s (siCtrl i) 23 16) = true
    let job := jobRun s i .normal z y0 (ys.map (·.2)) rs false
    let bad := (job.u ++ job.x ++ job.z).any fpBad
    let others (t : State) : Prop := (∀ k : Fin 4, k ≠ i → instOf t k = instOf s k) ∧ (t.mem, t.swg, t.ports, t.sns) = (s.mem, s.swg, s.ports, s.sns)
    let alone (t : State) : Prop := (instOf t i).ran = true ∧ others t ∧ t.sys = s.sys ∧ t.saf = s.saf
    (due → x.st = .normal → ok = true → bad = false → Answers (.classSJob i) s (fun t => (instOf t i).st = .normal ∧ alone t ∧
      (∀ m, m < z.m → reg t (siU i m) = job.u.getD m 0) ∧ (∀ k, k < z.no + z.nz → reg t (lpeMem i k) = (job.x ++ job.z).getD k 0))) ∧
    (due → x.st = .normal → ok = true → bad = true → Answers (.classSJob i) s (fun t => (now s, faultMsg (224 + i) .lpeNan (siStat i) false) ∈ t.flt.bus ∧ alone t ∧
      (instOf t i).st = (if lpeByte s 0x004 i = 0 then .hold else .coast) ∧ (∀ m, m < 8 → reg t (siU i m) = reg s (siU i m)) ∧ (∀ k, k < 64 → reg t (lpeMem i k) = reg s (lpeMem i k)))) ∧
    (due → x.st = .normal → ok = false → Answers (.classSJob i) s (fun t => (instOf t i).st = (if lpeByte s 0x004 i = 0 then .hold else .coast) ∧ (instOf t i).runCnt = 1 ∧ alone t)) ∧
    (due → x.st = .coast → ok = true → bad = false → Answers (.classSJob i) s (fun t => (instOf t i).st = .normal ∧ (instOf t i).runCnt = 0 ∧ alone t)) ∧
    (due → x.st = .hold → ok = false → Answers (.classSJob i) s (fun t => (∀ m, m < z.m → reg t (siU i m) = reg s (siU i m)) ∧ t.mem = s.mem ∧
      (if lpeByte s 0x004 i + Nat.max 1 (lpeByte s 0x008 i) + 1 ≤ Nat.min 511 (x.runCnt + 1)
       then modeOf t = .safe ∧ (now s, faultMsg (224 + i) .fbLost (siStat i) false) ∈ t.flt.bus ∧ rb t (siStat i) 1 = true else (instOf t i).st = .hold ∧ alone t))) ∧
    ((x.st = .off ∨ x.st = .stopped ∨ x.ran = true ∨ modeOf s = .boot ∨ modeOf s = .safe ∨ phaseOf s < rf s (lpeR (0x10C + 0x80 * i)) 14 0) → Answers (.classSJob i) s (· = s)) ∧
    (bitOf w 0 = true → rb s (siCtrl i) 0 = false →
      (lpeCheck s i (fld w 23 16) = true → Answers (.lpeEnableWrite o i w) s (fun t => (instOf t i).st = .settle ∧ (instOf t i).runCnt = 0 ∧ (∀ k, k < 16 → reg t (lpeMem i k) = 0) ∧
        (instOf t i).ran = (!s.tmk.ticked || decide (rf s (lpeR (0x10C + 0x80 * i)) 14 0 ≤ phaseOf s)) ∧ rb t (siCtrl i) 0 = true ∧ others t ∧ t.sys = s.sys ∧ t.saf = s.saf)) ∧
      (lpeCheck s i (fld w 23 16) = false → Answers (.lpeEnableWrite o i w) s (fun t => Reports s t 245 .lpeCfg (siCtrl i) ∧ rb t (siCtrl i) 0 = false ∧ t.lpe = s.lpe))) ∧
    (bitOf w 0 = false → rb s (siCtrl i) 0 = true → Answers (.lpeEnableWrite o i w) s (fun t => (instOf t i).st = .off ∧ rb t (siCtrl i) 0 = false ∧ (∀ k : Fin 4, k ≠ i → instOf t k = instOf s k))) ∧
    (bitOf w 0 = rb s (siCtrl i) 0 → Answers (.lpeEnableWrite o i w) s (· = genWrite s o (siCtrl i) w)) ∧
    Answers (.swapRequest o i) s (fun t => reg t (siCtrl i) = setBit (reg s (siCtrl i)) 31 true ∧ (∀ a, a ≠ siCtrl i → reg t a = reg s a) ∧ { t with regs := s.regs, swSet := s.swSet } = s))

/-- Outside reset with no injection: a triggered cascade of one section on a valid source starts a run that filters it and completes 48 ns later; then the output limited to its LIMIT and the section’s two states are stored. A trigger during a run is LPE_OVERRUN. An invalid source leaves all of it, and on the first one INVALID is set and Q_INPUT reported; a cascade that adds into an instance in HOLD, SETTLE or STOPPED is frozen; one that is not triggered does nothing. EN is taken where the conditions of R262 and the load hold, else refused as LPE_CFG; without EN waiting triggers and runs end. A REFERENCE for index 32 of the present tick is kept for the next, counting one it replaces; another is counted and reported REF_STALE. Readings and choices of the model that it rests on: log entries 74, 75, 76. (R260, R261, R262, R263, R264, R301, R302, 09_loop_engine.md Table 9-6.) -/
def Obligations.CascadesAndReferences : Prop :=
  ∀ (c : Fin 16) (o : Origin) (v : Word) (k : Packet) (q : QTrig) (r : QRun) (s : State), s.sys.inReset = false → notInjecting s = true →
    let ctl := reg s (lpeR (0x400 + 0x20 * c))
    let a := lpeR (0x400 + 0x20 * c)
    let src := reg s (lpeR (0x404 + 0x20 * c))
    let raw := srcRaw s q.hit (fld src 15 12) (fld src 11 0)
    let valid := srcValid s q.hit 0 (fld src 15 12) (fld src 11 0) raw
    let p := fld ctl 22 16
    let w (j : Nat) : Word := reg s (secR p j)
    let x := mulW (reg s (lpeR (0x410 + 0x20 * c))) raw
    let y := addW (mulW (w 0) x) (w 5)
    let lim := reg s (lpeR (0x418 + 0x20 * c))
    let out := mulW (reg s (lpeR (0x414 + 0x20 * c))) y
    let alone : Prop := (∀ q : Fin 16, rb s (qcR q 0) 31 = true → rf s (qcR q 0) 30 28 = 3 → rf s (qcR q 0) 27 24 ≠ c.val)
    let rest := s.lpe.pend.filter (·.c != c.val)
    let due : Prop := bitOf ctl 31 = true ∧ s.lpe.pend.find? (·.c == c.val) = some q ∧ alone
    let idle : Prop := ∀ r ∈ s.lpe.runs, r.c ≠ c.val
    (due → idle → valid = true → qFrozen s c = false → fld ctl 13 8 = 1 → Answers (.cascadeRun c) s (fun t =>
      t.lpe = { s.lpe with pend := rest, runs := s.lpe.runs ++ [⟨c, q.hit, now s + 24, clampW (fpNeg lim) lim out,
        decide (fpCmp lim out < 0) || decide (fpCmp out (fpNeg lim) < 0), p, [(addW (subW (mulW (w 1) x) (mulW (w 3) y)) (w 6), subW (mulW (w 2) x) (mulW (w 4) y))]⟩] } ∧
      reg t a = setBit ctl 0 false ∧ (∀ b, b ≠ a → reg t b = reg s b) ∧ { t with regs := s.regs, lpe := s.lpe } = s)) ∧
    (due → idle → valid = true → qFrozen s c = true → Answers (.cascadeRun c) s (fun t => t.lpe = { s.lpe with pend := rest } ∧ reg t a = setBit ctl 0 false ∧ t.flt = s.flt)) ∧
    (due → idle → valid = false → Answers (.cascadeRun c) s (fun t => t.lpe = { s.lpe with pend := rest } ∧ reg t a = setBit ctl 0 true ∧ (∀ b, b ≠ a → reg t b = reg s b) ∧
      (if bitOf ctl 0 then t.flt = s.flt else Reports s t (228 + c) .qInput a))) ∧
    (due → ¬ idle → Answers (.cascadeRun c) s (fun t => (now s, faultMsg (228 + c) .lpeOverrun a false) ∈ t.flt.bus)) ∧
    (s.lpe.pend.find? (·.c == c.val) = none → Answers (.cascadeRun c) s (· = s)) ∧
    (bitOf ctl 31 = false → Answers (.cascadeRun c) s (fun t => t = { s with lpe := { s.lpe with pend := rest } })) ∧
    (∀ e, alone → s.lpe.runs = [r] → r.c = c.val → r.secs = [e] → r.till ≤ now s → s.tmk.ticked = false →
      let t := lpeClock s
      (reg t (lpeR (0x41C + 0x20 * c)), reg t (secR r.first 5), reg t (secR r.first 6)) = (r.out, e.1, e.2) ∧ rb t a 1 = (r.sat || rb s a 1) ∧ t.lpe = { s.lpe with runs := [] } ∧
      (∀ b, b ∉ [a, lpeR (0x41C + 0x20 * c), secR r.first 5, secR r.first 6] → reg t b = reg s b)) ∧
    (bitOf v 31 = false → Answers (.cascadeEnWrite o c v) s (fun t => rb t a 31 = false ∧ t.lpe = { s.lpe with pend := rest, runs := s.lpe.runs.filter (·.c != c.val) } ∧ t.flt = s.flt)) ∧
    (bitOf v 31 = true → bitOf ctl 31 = true → qOk (fun q => if q = c.val then v else reg s (lpeR (0x400 + 0x20 * q))) s s.tmk.period = false → Answers (.cascadeEnWrite o c v) s (fun t =>
      Reports s t 245 .lpeCfg a ∧ (∀ b, reg t b = reg s b) ∧ t.lpe = s.lpe)) ∧
    (bitOf v 31 = true → qOk (fun q => if q = c.val then v else reg s (lpeR (0x400 + 0x20 * q))) s s.tmk.period = true → Answers (.cascadeEnWrite o c v) s (fun t =>
      rb t a 31 = true ∧ (rf t a 30 28, rf t a 27 24, rf t a 22 16, rf t a 13 8) = (fld v 30 28, fld v 27 24, fld v 22 16, fld v 13 8) ∧ t.flt = s.flt ∧
      (∀ b, b ≠ a → b ≠ lpeR 0x014 → reg t b = reg s b))) ∧
    (bitOf v 31 = true → bitOf ctl 31 = false → qOk (fun q => if q = c.val then v else reg s (lpeR (0x400 + 0x20 * q))) s s.tmk.period = false → Answers (.cascadeEnWrite o c v) s (fun t =>
      Reports s t 245 .lpeCfg a ∧ rb t a 31 = false)) ∧
    let here : Prop := isOwn s k.dest = true ∧ k.typ = 0x19 ∧ packetOk k = true ∧ epOf k.dest = 32
    (here → k.seq.toNat = s.tmk.tick.toNat % 256 → s.lpe.ref = none → Answers (.referenceRx k) s (fun t => t = { s with lpe := { s.lpe with ref := some (k.seq, k.payload) } })) ∧
    (¬ here → Answers (.referenceRx k) s (· = s)) ∧
    (here → k.seq.toNat = s.tmk.tick.toNat % 256 → s.lpe.ref ≠ none → rf s (lpeR 0x018) 7 4 < 15 → Answers (.referenceRx k) s (fun t => t.lpe.ref = some (k.seq, k.payload) ∧
      rf t (lpeR 0x018) 7 4 = rf s (lpeR 0x018) 7 4 + 1 ∧ t.flt = s.flt)) ∧
    (here → k.seq.toNat ≠ s.tmk.tick.toNat % 256 → Answers (.referenceRx k) s (fun t => Reports s t 244 .refStale (lpeR 0x018) ∧ t.lpe = s.lpe ∧
      rf t (lpeR 0x018) 15 8 = Nat.min 255 (rf s (lpeR 0x018) 15 8 + 1)))

/-- Outside reset with no injection: COMMIT in a cell in BOOT with no load running starts one, else it is an access fault. At its end a set with a wrong header, CRC, form or value is rejected with RESULT and RECORD, leaving the registers; a set whose records all write and whose load checks hold is loaded with its SETID; else it is rejected with RESULT 6 or 7, and the registers it wrote are at reset, all else as before. PROGRAM and ERASE start on an aligned address outside the booted slot, else QSPI_REFUSED; a part without a valid slot refuses access; when done the page is written or the 64 KiB sector erased. At BUDGET a tick core not in TWAIT is TP_LATE, once. Readings and choices of the model that it rests on: log entries 34, 90, 91, 92. (R299, R306, R307, R312, R447, 11_tick_programs_tables_images.md Table 11-2.) -/
def Obligations.TablesFlashAndBudget : Prop :=
  ∀ (o : Origin) (s : State), s.sys.inReset = false → notInjecting s = true →
    let tbl := s.sys.tbl
    let a := sysR 0x040
    let off := rf s (sysR 0x104) 25 0
    let booted := s.sys.bootOk && decide (0x2000000 ≤ off) == rb s (sysR 0x034) 4
    let same (t : State) : Prop := (t.mem, t.swg, t.ports, t.cores, t.nv, t.saf) = (s.mem, s.swg, s.ports, s.cores, s.nv, s.saf)
    let rejected (t : State) (r n : Nat) : Prop := (t.sys.tbl.result, t.sys.tbl.record, t.sys.tbl.busyTil) = (r, n, none) ∧
      (now s, faultMsg 4 .tblReject (sysR 0x044) false) ∈ t.flt.bus ∧ modeOf t = modeOf s
    let started (op : Nat) (t : State) : Prop := t.sys.qspi = some (op, off) ∧ rb t (sysR 0x100) 0 = true ∧ t.mem = s.mem ∧ t.flt = s.flt
    let refused (t : State) : Prop := t.sys.qspi = none ∧ rb t (sysR 0x100) 0 = false ∧ Reports s t 7 .qspiRefused (sysR 0x108) ∧ t.mem = s.mem
    (isCell s = true → modeOf s = .boot → tbl.busyTil = none → Answers (.tableCommit o) s (fun t => t.sys.tbl.busyTil.isSome = true ∧ (t.sys.tbl.result, t.sys.tbl.loaded, t.sys.tbl.touched) = (1, false, []) ∧
      (tbl.touched = [] → t.sys.tbl.busyTil = some (now s + 10000 + divUp (fld (reg s (sysR 0x8004)) 15 0 * 25) 2) ∧ (∀ b, b ≠ a → reg t b = reg s b) ∧ same t))) ∧
    ((isCell s = false ∨ modeOf s ≠ .boot ∨ tbl.busyTil ≠ none) → Answers (.tableCommit o) s (fun t => Reports s t 31 .access a ∧ t.regs = s.regs ∧ t.sys = s.sys)) ∧
    (tbl.busyTil = none → Answers .tableLoadDone s (· = s)) ∧
    (tbl.busyTil ≠ none → ∀ r n, (headerOk s = false ∧ (r, n) = (3, 0)) ∨ (headerOk s = true ∧ tblCrcOk (tblWords s) = false ∧ (r, n) = (4, 0)) ∨ pass1 s = .error (r, n) →
      Answers .tableLoadDone s (fun t => rejected t r n ∧ (∀ b, b ≠ a → reg t b = reg s b) ∧ same t)) ∧
    (∀ l u w, tbl.busyTil ≠ none → pass1 s = .ok l → pass2 l s = (u, w, none) → u.sys.inReset = false → tableChecks u = (true, true, true, true) → Answers .tableLoadDone s (fun t =>
      (t.sys.tbl.result, t.sys.tbl.busyTil, t.sys.tbl.setId, t.sys.tbl.loaded) = (2, none, reg s (sysR 0x8018), true) ∧
      (isCell u = true → modeOf u = .boot → modeOf t = if u.tmk.held then .precharge else .boot))) ∧
    (∀ l u w, tbl.busyTil ≠ none → pass1 s = .ok l → pass2 l s = (u, w, none) → u.sys.inReset = false → tableChecks u ≠ (true, true, true, true) → Answers .tableLoadDone s (fun t =>
      rejected t 7 0 ∧ (∀ b, b ≠ a → b ≠ rdlR 0x058 → reg t b = if b ∈ w then resetWord s b else reg s b) ∧ same t)) ∧
    (∀ l u w n, tbl.busyTil ≠ none → pass1 s = .ok l → pass2 l s = (u, w, some n) → u.sys.inReset = false → Answers .tableLoadDone s (fun t =>
      rejected t 6 n ∧ (∀ b, b ≠ a → reg t b = if b ∈ w then resetWord s b else reg s b) ∧ same t)) ∧
    (s.sys.stopped = true → Answers (.qspiProgram o) s (Reports s · 31 .access (sysR 0x100)) ∧ Answers (.qspiErase o) s (Reports s · 31 .access (sysR 0x100))) ∧
    (s.sys.stopped = false → s.sys.qspi ≠ none → Answers (.qspiProgram o) s (· = s) ∧ Answers (.qspiErase o) s (· = s)) ∧ (s.sys.qspi = none → Answers .qspiOpDone s (· = s)) ∧
    (s.sys.stopped = false → s.sys.qspi = none → booted = false →
      (off % 256 = 0 → Answers (.qspiProgram o) s (started 1)) ∧ (off % 65536 = 0 → Answers (.qspiErase o) s (started 2)) ∧ (off % 256 ≠ 0 → Answers (.qspiProgram o) s refused) ∧ (off % 65536 ≠ 0 → Answers (.qspiErase o) s refused)) ∧
    (s.sys.stopped = false → s.sys.qspi = none → booted = true → Answers (.qspiProgram o) s refused ∧ Answers (.qspiErase o) s refused) ∧
    (∀ d, s.sys.qspi = some (1, d) → Answers .qspiOpDone s (fun t => t.sys.qspi = none ∧ rb t (sysR 0x100) 0 = false ∧ (∀ k, k < 256 → memByte t (0x60000000 + d + k) = (qspiPage s).getD k 0) ∧
      (∀ b, (b < 0x60000000 + d ∨ 0x60000000 + d + 256 ≤ b) → memByte t b = memByte s b))) ∧
    (∀ d, s.sys.qspi = some (2, d) → Answers .qspiOpDone s (fun t => t.sys.qspi = none ∧ rb t (sysR 0x100) 0 = false ∧
      (∀ b, memByte t b = if 0x60000000 + d ≤ b ∧ b < 0x60000000 + d + 65536 then memDefault b else memByte s b))) ∧
    (s.tmk.ticked = true → phaseOf s = Nat.min (rf s (sysR 0x020) 14 0) (periodLt s - 50) → anyTickRuns s = true → s.sys.lateTold = false → Answers .tpBudgetCheck s (fun t =>
      Reports s t 6 .tpLate (sysR 0x024) ∧ rb t (sysR 0x024) 1 = true ∧ Answers .tpBudgetCheck t (· = t) ∧ same t)) ∧
    ((s.tmk.ticked = false ∨ phaseOf s ≠ Nat.min (rf s (sysR 0x020) 14 0) (periodLt s - 50) ∨ anyTickRuns s = false ∨ s.sys.lateTold = true) → Answers .tpBudgetCheck s (· = s))

/-- Outside reset with no injection: an enabled port takes its link, and its loss is reported. A free port sends the first waiting frame of the lowest group, the response of XHP with the current EPOCH, a Sync of its own with its departure time; a frame that firmware queues waits there. A received frame with a bad length or check is counted; in PRP a duplicate within 400 ms is counted; in HSR a frame not addressed to the part goes on once. Another that no function consumes goes to the receive ring, a PTP event message with its stamps, or is counted when the ring is full; an ARP or echo request is answered. A sampled-value frame of the configured form of a matching stream is kept with its time and triggers cascades, else SV_LEN; TMO after the last one the stream is late and SV_TIMEOUT reported; a publication leaves once a sample instant with its count and values. Readings and choices of the model that it rests on: log entries 97, 98, 99, 125. (R77, R317, R318, R319, R320, R321, R325, R326, R328, R329, 12_station_port.md Table 12-2.) -/
def Obligations.EthernetAndSampledValues : Prop :=
  (∀ (l : List EthTx) (f : EthTx), ethPick l = some f → f ∈ l ∧ ∀ g ∈ l, g.group ≤ 5 → f.group ≤ g.group) ∧
  (∀ (e : Fin 2) (f : EthFrame) (n : Fin 65) (k : Fin 16) (v : SvFrame) (m : Fin 4) (s : State), s.sys.inReset = false → notInjecting s = true →
    let u : State := { s with stp := { s.stp with ring := s.stp.ring.drop n } }
    let counted (t : State) (o : Nat) : Prop := rf t (stpR o) 31 0 = Nat.min 4294967295 (rf s (stpR o) 31 0 + 1) ∧ (∀ a, a ≠ stpR o → reg t a = reg s a) ∧ { t with regs := s.regs } = u
    let whole : Prop := ethUp s e = true ∧ f.len ≤ 1528 ∧ f.fcsOk = true
    let plain : Prop := whole ∧ redMode s = 0
    let cfg := reg s (stpSub k 0)
    let form : Prop := v.rateOk = true ∧ v.nasdu = fld cfg 19 16 ∧ v.values.length = Nat.max 1 (fld cfg 28 24)
    let noQ : Prop := ∀ q, q < 16 → rb s (qcR q 0) 31 = false
    let free : Prop := ethUp s e = true ∧ redMode s = 0 ∧ kget 0 s.stp.busyTil e ≤ now s ∧ lchBlocks s e = false
    let sends (t : State) (g : EthTx) (l : List EthTx) : Prop := t.sent = s.sent ++ [.eth e g] ∧ kget [] t.stp.txq e = l ∧ kget 0 t.stp.busyTil e = now s + (g.len + 20) * 4 ∧
      { t with stp := s.stp, sent := s.sent } = s
    (ethOn s e = true → Answers (.ethLinkUp e) s (· = { s with stp := { s.stp with link := s.stp.link ||| BitVec.ofNat 2 (2 ^ e.val) } })) ∧ (ethOn s e = false → Answers (.ethLinkUp e) s (· = s)) ∧
    (ethUp s e = true → Answers (.ethLinkDown e) s (fun t => t.stp = { s.stp with link := s.stp.link &&& ~~~ BitVec.ofNat 2 (2 ^ e.val) } ∧ ethUp t e = false ∧
      Reports s t (256 + e) .ethLink (stpR 0x004) ∧ t.regs = s.regs)) ∧ (ethUp s e = false → Answers (.ethLinkDown e) s (· = s)) ∧
    (∀ g, free → ethPick (kget [] s.stp.txq e) = some g → Answers (.ethFrameTx e none) s (fun t =>
      sends t (if ethRaw g then ptpOut s e (now s) (ptpInst s e g) g else epochNow s g) ((kget [] s.stp.txq e).erase g))) ∧
    (∀ d, free → kget [] s.stp.txq e = [] → ptpAt (Config.txFrame d.toNat s.mem) = none → ethLen (Config.txFrame d.toNat s.mem) ≤ 1518 → Answers (.ethFrameTx e (some d)) s (fun t =>
      sends t ⟨5, ethLen (Config.txFrame d.toNat s.mem), none, Config.txFrame d.toNat s.mem, none⟩ [])) ∧
    (∀ g o q, ptpAt g.what = some o → o + 44 ≤ g.what.length → g.rx = none → ptpType g.what o = 0 → let w := (ptpOut s e (now s) (some q) g).what
      beAt w (o + 34) 6 = ptSec (ptAt s q 0) % 2 ^ 48 ∧ beAt w (o + 40) 4 = ptNs (ptAt s q 0)) ∧
    ((ethUp s e = false ∨ (redMode s = 0 ∧ (now s < kget 0 s.stp.busyTil e ∨ lchBlocks s e = true ∨ ethPick (kget [] s.stp.txq e) = none))) → Answers (.ethFrameTx e none) s (· = s)) ∧
    (ethUp s e = false → Answers (.ethFrameRx e f n) s (· = u)) ∧
    (ethUp s e = true → (1528 < f.len ∨ f.fcsOk = false) → Answers (.ethFrameRx e f n) s (counted · 0x030)) ∧
    (∀ q, whole → redMode s = 1 → ptpEvent f.bytes = none → ethSeq s f.bytes = some q → (∃ d ∈ s.stp.dup, d.1 = ethSource f.bytes ∧ d.2.1 = q ∧ now s < d.2.2 + 200000000) →
      Answers (.ethFrameRx e f n) s (counted · 0x038)) ∧
    (∀ q, whole → redMode s = 2 → ethUp s (1 - e.val) = true → f.bytes.take 6 ≠ ownMac s → ethSource f.bytes ≠ BitVec.ofNat 48 (beAt (ownMac s) 0 6) → ptpAt f.bytes = none → ethSeq s f.bytes = some q →
      Answers (.ethFrameRx e f n) s (fun t => if s.stp.fwdSeen.contains (e.val, ethSource f.bytes, q) then t.stp.fwdSeen = s.stp.fwdSeen
        else (∃ l, kget [] t.stp.txq (1 - e.val) = kget [] s.stp.txq (1 - e.val) ++ ⟨5, f.len, none, f.bytes, none⟩ :: l) ∧ (e.val, ethSource f.bytes, q) ∈ t.stp.fwdSeen)) ∧
    (plain → arpReply s f.bytes = none → echoReply s f.bytes = none → ethConsumed s f.bytes = false →
      (u.stp.ring.length < 64 → Answers (.ethFrameRx e f n) s (fun t => t.regs = s.regs ∧ { t with stp := s.stp } = s ∧
        (ptpEvent f.bytes = none → t.stp = { s.stp with ring := u.stp.ring ++ [⟨f.bytes, none⟩] }) ∧
        (∀ o, ptpEvent f.bytes = some o → t.stp.ring = u.stp.ring ++ [⟨f.bytes, some (ptpStamp s e (now s - 4 * f.len) f.bytes o)⟩]))) ∧
      (ptpEvent f.bytes = none → 64 ≤ u.stp.ring.length → Answers (.ethFrameRx e f n) s (counted · 0x034))) ∧
    (∀ b, plain → ptpEvent f.bytes = none → (arpReply s f.bytes = some b ∨ (arpReply s f.bytes = none ∧ echoReply s f.bytes = some b)) → Answers (.ethFrameRx e f n) s (fun t =>
      kget [] t.stp.txq e = kget [] s.stp.txq e ++ (if ethLen b ≤ 1518 then [⟨5, ethLen b, none, b, none⟩] else []) ∧ t.stp.ring = u.stp.ring ∧ { t with stp := s.stp } = s)) ∧
    (plain → ptpEvent f.bytes = none → svMatch s k f.bytes = true → bitOf cfg 31 = true → form → Answers (.svFrameRx e f k v) s (fun t => kget default t.stp.svNow k = ⟨v.values, v.smpCnt, v.synch⟩ ∧
      kget default t.stp.svPrev k = kget default s.stp.svNow k ∧ kget 0 t.stp.svAt k = now s ∧ (kget false t.stp.svSeen k, kget false t.stp.svLate k) = (true, false) ∧
      (∀ q, q < 16 → rb s (qcR q 0) 31 = true → rf s (qcR q 0) 30 28 = 2 → rf s (qcR q 0) 27 24 = k.val → ⟨q, none⟩ ∈ t.lpe.pend) ∧
      (noQ → (2 ≤ v.synch.toNat ∨ bitOf cfg 29 = false → { t with stp := s.stp } = s) ∧
      (v.synch.toNat < 2 → bitOf cfg 29 = true → Reports s t 258 .svSync (stpSub k 4) ∧ rb t (stpSub k 4) 5 = true)))) ∧
    (plain → ptpEvent f.bytes = none → svMatch s k f.bytes = true → bitOf cfg 31 = true → ¬ form → Answers (.svFrameRx e f k v) s (fun t => Reports s t 258 .svLen (stpSub k 4) ∧
      rb t (stpSub k 4) 3 = true ∧ t.stp = s.stp)) ∧
    (plain → ptpEvent f.bytes = none → (svMatch s k f.bytes = false ∨ bitOf cfg 31 = false) → Answers (.svFrameRx e f k v) s (· = s)) ∧
    (bitOf cfg 31 = true → kget false s.stp.svSeen k = true → kget false s.stp.svLate k = false → kget 0 s.stp.svAt k + us (rf s (stpSub k 8) 15 0) < now s → Answers (.svTimeout k) s (fun t =>
      Reports s t 258 .svTimeout (stpSub k 4) ∧ kget false t.stp.svLate k = true ∧ t.regs = s.regs)) ∧
    ((bitOf cfg 31 = false ∨ kget false s.stp.svSeen k = false ∨ kget false s.stp.svLate k = true ∨ now s ≤ kget 0 s.stp.svAt k + us (rf s (stpSub k 8) 15 0)) → Answers (.svTimeout k) s (· = s)) ∧
    (let p := reg s (stpPub m 0)
     let rate := [4000, 4800, 12800, 14400, 96000].getD (fld p 22 20) 4800
     let n := ptNs (ptOf s 0) * rate / 1000000000
     let key := ptSec (ptOf s 0) * rate + n + 1
     (bitOf p 31 = true → stpOn s = true → fld p 28 24 = 1 → kget 0 s.stp.pubNo m ≠ key → Answers (.svPublish m) s (fun t =>
      kget 0 t.stp.pubNo m = key ∧ { t with stp := s.stp } = s ∧
      (∀ q, kget [] t.stp.txq q = kget [] s.stp.txq q ++ if q ∈ ethPorts s then [⟨2, 72 + tagLen s, none, [BitVec.ofNat 8 m.val, BitVec.ofNat 8 (n / 256), BitVec.ofNat 8 n,
        if rb s (tmkR 0) 1 then 2 else 0] ++ wordBytes (pubValue s (rf s (stpPub m 16) 15 0)), none⟩] else []))) ∧
     ((bitOf p 31 = false ∨ stpOn s = false ∨ kget 0 s.stp.pubNo m = key) → Answers (.svPublish m) s (· = s))))

/-- Outside reset with no injection: CHANGE sends with the next stNum and sqNum 0, a repetition with the next sqNum after a doubled interval up to the maximum; a newer frame that matches a subscription is stored with its numbers and its time to live, whose expiry sets TTL_EXP and reports. A well-formed command of an allowed host is queued, at 16 answered BUSY, a malformed one FORMAT, another host ignored. The oldest is answered to its sender with TAG, EPOCH and status: ECHO its data, READ a word of SRAM, WRITE after storing it; FREAD and FWRITE become fabric requests of endpoint 1. Waiting log entries leave as one NOTIFY at 16 or 1 ms after the oldest. Readings and choices of the model that it rests on: log entries 18, 35, 97, 100, 101, 125. (R330, R331, R332, R333, R334, R363, R37, 12_station_port.md Table 12-6.) -/
def Obligations.GooseAndHostCommands : Prop :=
  ∀ (o : Origin) (e : Fin 2) (raw : EthFrame) (g : Fin 32) (h : Fin 64) (f : GooseFrame) (ip : Word) (port : BitVec 16) (b : List Byte) (c : XCmd) (r : List XCmd) (s : State), s.sys.inReset = false → notInjecting s = true →
    let queued (t : State) (x : EthTx) : Prop := ∀ q, kget [] t.stp.txq q = kget [] s.stp.txq q ++
      (if q ∈ ethPorts s ∧ x.len + tagLen s ≤ 1518 then [{ x with len := x.len + tagLen s }] else [])
    let came : Prop := ethUp s e = true ∧ raw.len ≤ 1528 ∧ raw.fcsOk = true ∧ redMode s = 0 ∧ ptpEvent raw.bytes = none
    let gram : Prop := came ∧ xhpGram s raw.bytes = some (ip.toNat, port.toNat, b)
    let dgram (dst : Word × BitVec 16) (op : Nat) (tag : Word) (status : Nat) (d : List Word) : EthTx :=
      let y : List Byte := [0x58, 0x48, 1, BitVec.ofNat 8 op] ++ wordBytes tag ++ wordBytes (reg s (sysR 0x010)) ++
        [BitVec.ofNat 8 (status / 256), BitVec.ofNat 8 status, BitVec.ofNat 8 (d.length / 256), BitVec.ofNat 8 d.length] ++ d.flatMap wordBytes
      ⟨5, Nat.max 64 (y.length + 46), some dst, y, none⟩
    let gap (n : Nat) : Nat := Nat.min (Nat.max 1 (rf s (stpGp g 2) 15 0)) (Nat.max 1 (rf s (stpGp g 1) 15 0) * 2 ^ Nat.min 16 n)
    let data := ((List.range 128).flatMap fun w => (wordBytes (reg s (stpR (0x4000 + 0x200 * g + 4 * w)))).reverse).take (Nat.min 512 (rf s (stpGp g 0) 9 0))
    let goose (st sq n : Nat) : EthTx := ⟨3, 128 + Nat.min 512 (rf s (stpGp g 0) 9 0), none, [BitVec.ofNat 8 g.val] ++ wordBytes (wd st) ++ wordBytes (wd sq) ++ wordBytes (wd (2 * gap n)) ++ data, none⟩
    let from_ : Word × BitVec 16 := (c.ip, c.port)
    let answered (t : State) (op : Nat) (d : List Word) : Prop := t.stp.xq = r ∧ queued t (dgram from_ (op + 128) c.tag 0 d)
    let far : BitVec 20 := BitVec.ofNat 20 (fld (c.data.getD 0 0) 19 0)
    let allowed : Prop := xhpOn s = true ∧ ip ≠ 0 ∧ ∃ a, a < 4 ∧ reg s (stpR (0x018 + 4 * a)) = ip
    let form : Prop := 16 ≤ b.length ∧ beAt b 0 2 = 0x5848 ∧ byteAt b 2 = 1 ∧ b.length = 16 + 4 * beAt b 14 2 ∧ xhpFormOk (byteAt b 3) (bytesWords (b.drop 16)) = true
    let cmd : XCmd := ⟨ip, port, byteAt b 3, wd (beAt b 4 4), bytesWords (b.drop 16)⟩
    (reachable s (stpGp g 0) = true → rb s (stpGp g 0) 31 = false → Answers (.gooseChange o g) s (fun t => kget 0 t.stp.gSt g = (kget 0 s.stp.gSt g + 1) % 4294967296 ∧
      (kget 0 t.stp.gSq g, kget 0 t.stp.gStep g) = (0, 0) ∧ kget none t.stp.gDue g = some (now s + ms (gap 0)) ∧ queued t (goose ((kget 0 s.stp.gSt g + 1) % 4294967296) 0 0))) ∧
    (∀ d, kget none s.stp.gDue g = some d → d ≤ now s → Answers (.gooseRepeat g) s (fun t => kget 0 t.stp.gSt g = kget 0 s.stp.gSt g ∧ kget 0 t.stp.gSq g = (kget 0 s.stp.gSq g + 1) % 4294967296 ∧
      kget none t.stp.gDue g = some (now s + ms (gap (kget 0 s.stp.gStep g + 1))) ∧ queued t (goose (kget 0 s.stp.gSt g) ((kget 0 s.stp.gSq g + 1) % 4294967296) (kget 0 s.stp.gStep g + 1)) ∧
      { t with stp := s.stp } = s)) ∧
    ((∀ d, kget none s.stp.gDue g = some d → now s < d) → Answers (.gooseRepeat g) s (· = s)) ∧
    (came → (gooseMatch s h raw.bytes = false ∨ rb s (stpGs h 0) 31 = false ∨ (f.sim = true ∧ rb s (stpGs h 0) 30 = false) ∨ f.nds = true) → Answers (.gooseFrameRx e raw h f) s (· = s)) ∧
    (came → gooseMatch s h raw.bytes = true → rb s (stpGs h 0) 31 = true → (f.sim = true → rb s (stpGs h 0) 30 = true) → f.nds = false →
      ((kget false s.stp.gsSeen h = false ∨ reg s (stpGs h 1) ≠ f.stNum ∨ reg s (stpGs h 2) < f.sqNum) → Answers (.gooseFrameRx e raw h f) s (fun t =>
        (reg t (stpGs h 1), reg t (stpGs h 2), reg t (stpGs h 3)) = (f.stNum, f.sqNum, wd (Nat.min 512 f.data.length)) ∧ kget false t.stp.gsSeen h = true ∧
        kget none t.stp.gsDue h = some (now s + ms f.ttlMs.toNat) ∧ (∀ w, w < 128 → reg t (stpR (0x8000 + 0x200 * h + 4 * w)) = wd (leNat (((f.data.take 512).drop (4 * w)).take 4))) ∧ t.flt = s.flt)) ∧
      (kget false s.stp.gsSeen h = true → reg s (stpGs h 1) = f.stNum → f.sqNum.toNat ≤ (reg s (stpGs h 2)).toNat → Answers (.gooseFrameRx e raw h f) s (· = s))) ∧
    (∀ d, kget none s.stp.gsDue h = some d → d ≤ now s → Answers (.gooseTtl h) s (fun t => rb t (stpGs h 0) 0 = true ∧ kget none t.stp.gsDue h = none ∧ Reports s t 259 .gooseTtl (stpGs h 0))) ∧
    ((∀ d, kget none s.stp.gsDue h = some d → now s < d) → Answers (.gooseTtl h) s (· = s)) ∧
    (gram → allowed → form → s.stp.xq.length < 16 → Answers (.xhpCommandRx e raw ip port b) s (fun t => t = { s with stp := { s.stp with xq := s.stp.xq ++ [cmd] } })) ∧
    (gram → allowed → form → 16 ≤ s.stp.xq.length → Answers (.xhpCommandRx e raw ip port b) s (fun t => t.stp.xq = s.stp.xq ∧ queued t (dgram (ip, port) (byteAt b 3 + 128) cmd.tag 4 []))) ∧
    (gram → allowed → ¬ form → Answers (.xhpCommandRx e raw ip port b) s (fun t => t.stp.xq = s.stp.xq ∧ queued t (dgram (ip, port) (byteAt b 3 % 128 + 128) cmd.tag 5 []))) ∧
    (came → (xhpGram s raw.bytes ≠ some (ip.toNat, port.toNat, b) ∨ ¬ allowed) → Answers (.xhpCommandRx e raw ip port b) s (· = s)) ∧
    (∀ x ∈ ([(1, .xhpRead), (2, .xhpWrite), (3, .xhpFread), (4, .xhpFwrite), (7, .xhpEcho)] : List (Nat × Instr)), (s.stp.xq = [] ∨ (s.stp.xq = c :: r ∧ c.op ≠ x.1)) →
      Answers x.2 s (· = s)) ∧
    (s.stp.xq = c :: r → c.op = 7 → Answers .xhpEcho s (fun t => answered t 7 c.data ∧ { t with stp := s.stp } = s)) ∧
    (∀ a, s.stp.xq = c :: r → c.op = 1 → c.data = [a, 1] → inSram a.toNat = true → a.toNat % 4 = 0 → kget 0 s.flt.ecc (eccKey 0 a.toNat) = 0 → Answers .xhpRead s (fun t =>
      answered t 1 [wd (bytesGet s.mem a.toNat 4)] ∧ { t with stp := s.stp } = s)) ∧
    (∀ a w, s.stp.xq = c :: r → c.op = 2 → c.data = [a, w] → inSram a.toNat = true → a.toNat % 4 = 0 → Answers .xhpWrite s (fun t => answered t 2 [] ∧ bytesGet t.mem a.toNat 4 = w.toNat ∧
      (∀ x, (x < a.toNat ∨ a.toNat + 4 ≤ x) → memByte t x = memByte s x) ∧ t.regs = s.regs)) ∧
    (∀ e ∈ ([(3, 2, .xhpFread), (4, 1, .xhpFwrite)] : List (Nat × Nat × Instr)), ∀ q, s.stp.xq = c :: r → c.op = e.1 → isOwn s far = false → xMay s c = true → outPort s none (nodeOf far) = some q →
      Answers e.2.2 s (fun t => Queued s t q ⟨far, BitVec.ofNat 20 ((nodeId s).toNat * 64 + 1), BitVec.ofNat 6 e.2.1, 3, s.stp.xseq, c.data.drop 1⟩ ∧ (∀ p, p ≠ q → portOf t p = portOf s p) ∧
        t.stp = { s.stp with xq := r, xfly := s.stp.xfly ++ [(s.stp.xseq, c)], xseq := s.stp.xseq + 1 } ∧ t.trr.reqs = s.trr.reqs ++ [⟨1, 0, s.stp.xseq, 3, now s, far⟩])) ∧
    (xMay s c = false → s.stp.xq = c :: r → Answers .xhpFread s (· = s) ∧ Answers .xhpFwrite s (· = s)) ∧
    (∀ n, s.stp.notify.length = n → 0 < n → xhpOn s = true → (16 ≤ n ∨ ∃ x, s.stp.notify.head? = some x ∧ x.1 + 500000 ≤ now s) → Answers .xhpNotifySend s (fun t => t.stp.notify = s.stp.notify.drop 16 ∧
      queued t (dgram (capXhp s) 5 (wd (nodeId s).toNat) 0 ((s.stp.notify.take 16).flatMap (·.2))) ∧ { t with stp := s.stp } = s)) ∧
    ((xhpOn s = false ∨ (s.stp.notify.length < 16 ∧ ∀ x, s.stp.notify.head? = some x → now s < x.1 + 500000)) → Answers .xhpNotifySend s (· = s))

/-- A comparator of signed TYPE fires on its edge at LEVEL once armed by LEVEL less or plus HYST. Outside reset with no injection: ARM in IDLE starts a capture where the checks pass, else CAP_ERR and CAP_REFUSED; elsewhere it is an access fault, and STOP and TRIG are kept for the next row, which falls due at its phase. A due row writes its channels before the trigger in turn in the PRE places, from the trigger row on after them; the last one writes the descriptor with VALID; STOP before a trigger ends in IDLE. A stream row joins its block, whose blocks leave as STREAM packets or datagrams; a STREAM received for index 48 to 55 is relayed to the host or counted. 1 to VALID frees a slot. Readings and choices of the model that it rests on: log entries 102, 103, 104, 105. (R337, R338, R339, R341, R343, R344, R345, R348, R351, R352, 13_capture_engine.md Table 13-5.) -/
def Obligations.CaptureRecordsAndStreams : Prop :=
  (∀ (cfg l h v : Word) (up dn : Bool), fld cfg 7 6 = 0 →
    let r := capCmpRow cfg l h v up dn
    let f1 := up && decide (l.toInt ≤ v.toInt)
    let f2 := dn && decide (v.toInt ≤ l.toInt)
    (fld cfg 5 4 = 0 → r = (f1, (up && !f1) || decide (v.toInt ≤ l.toInt - h.toInt), dn)) ∧ (fld cfg 5 4 = 1 → r = (f2, up, (dn && !f2) || decide (l.toInt + h.toInt ≤ v.toInt))) ∧
    (fld cfg 5 4 = 2 → r = (f1 || f2, (up && !f1) || decide (v.toInt ≤ l.toInt - h.toInt), (dn && !f2) || decide (l.toInt + h.toInt ≤ v.toInt)))) ∧
  (∀ (o : Origin) (v : Word) (r : Fin 8) (k : Packet) (s : State), s.sys.inReset = false → notInjecting s = true →
    let c := s.cap
    let ctl := capR 0
    let u := genWrite s o ctl (setBit v 31 true)
    let nch := (capChans s).length
    let due : Prop := s.tmk.ticked = true ∧ (if rb s ctl 4 then phaseOf s % capPer s = 0 ∧ c.rowN * capPer s ≤ phaseOf s ∧ phaseOf s < periodLt s else phaseOf s = 0 ∧ c.rowN = 0)
    let quiet : Prop := rf s (capR 0x018) 7 0 = 0 ∧ c.rearm = false
    let row := (capChans s).map (capValue s)
    let at_ (t : State) (place : Nat) : Prop := (∀ i, i < nch → bytesGet t.mem (0x30000000 + 4 * (c.slot * capRecw s + place * nch + i)) 4 = (row.getD i 0).toNat) ∧
      (∀ a, (a < 0x30000000 + 4 * (c.slot * capRecw s + place * nch) ∨ 0x30000000 + 4 * (c.slot * capRecw s + place * nch + nch) ≤ a) → memByte t a = memByte s a)
    let rest (t : State) : Prop := (t.swg, t.ports, t.sys, t.saf, t.lpe) = (s.swg, s.ports, s.sys, s.saf, s.lpe)
    (c.st = .idle → reachable s ctl = true → capErr u = 0 → Answers (.capArm o v) s (fun t => t.cap.st = (if capStreams u then .stream else if (capFree u).isSome then .pre else .full) ∧
      (capStreams u = false → ∀ n, capFree u = some n → t.cap.slot = n) ∧ t.cap.err = 0 ∧ (t.cap.preCnt, t.cap.postCnt, t.cap.stop) = (0, 0, bitOf v 30) ∧ t.mem = s.mem ∧ rest t ∧ t.flt = s.flt)) ∧
    (c.st = .idle → reachable s ctl = true → capErr u ≠ 0 → Answers (.capArm o v) s (fun t => t.cap = { c with err := capErr u } ∧ rb t ctl 31 = false ∧
      (now s, faultMsg 288 .capRefused ctl false) ∈ t.flt.bus ∧ (capErr u = 6 → rb t (supR 0x128) 2 = true) ∧ t.mem = s.mem ∧ rest t)) ∧
    (c.st ≠ .idle → reachable s ctl = true → bitOf v 30 = false → bitOf v 29 = false → Answers (.capArm o v) s (fun t => Reports s t 319 .access ctl ∧ t.cap = c ∧ t.regs = s.regs)) ∧
    (c.st ≠ .idle → reachable s ctl = true → bitOf v 29 = false → Answers (.capStop o v) s (fun t => { t with swSet := s.swSet } = { s with cap := { c with stop := true } })) ∧
    (c.st = .idle → reachable s ctl = true → bitOf v 31 = false → Answers (.capStop o v) s (· = genWrite s o ctl (setBit v 30 true)) ∧ Answers (.capTrigWrite o v) s (· = genWrite s o ctl (setBit v 29 true))) ∧
    (c.st ≠ .idle → reachable s ctl = true → bitOf v 30 = false → Answers (.capTrigWrite o v) s (fun t =>
      { t with swSet := s.swSet } = { s with cap := { c with trig := if rb s (capR 0x018) 9 then c.trig ||| 0x200 else c.trig } })) ∧
    (¬ due ∨ c.st = .idle → Answers .capRow s (· = s)) ∧
    (due → quiet → c.st = .pre → c.trig.toNat / 256 = 0 → c.stop = false → 0 < capPre s → Answers .capRow s (fun t => at_ t (c.preCnt % capPre s) ∧ t.cap.preCnt = c.preCnt + 1 ∧
      (t.cap.st, t.cap.rowN) = (.pre, if rb s ctl 4 then phaseOf s / capPer s + 1 else 1) ∧ t.regs = s.regs ∧ rest t)) ∧
    (due → quiet → c.st = .pre → c.trig.toNat / 256 ≠ 0 → c.stop = false → 1 < capPost s → Answers .capRow s (fun t => at_ t (capPre s) ∧ (t.cap.st, t.cap.postCnt) = (.post, 1) ∧
      t.cap.src.toNat = c.trig.toNat / 256 * 256 ∧ t.cap.trig = 0 ∧ t.regs = s.regs ∧ rest t)) ∧
    (due → quiet → c.st = .post → c.trig = 0 → c.stop = false → c.postCnt + 1 < capPost s → Answers .capRow s (fun t => at_ t (capPre s + c.postCnt) ∧ (t.cap.st, t.cap.postCnt) = (.post, c.postCnt + 1) ∧ t.regs = s.regs)) ∧
    (due → quiet → c.st = .post → c.trig = 0 → c.stop = false → c.postCnt + 1 = capPost s → rb s ctl 11 = false → c.slot < 8 → s.swSet = [] → Answers .capRow s (fun t => at_ t (capPre s + c.postCnt) ∧ t.cap.st = .idle ∧
      rb t ctl 31 = false ∧ rb t (capRec c.slot 0) 31 = true ∧ rf t (capRec c.slot 0) 26 16 = c.src.toNat ∧ rf t (capRec c.slot 0) 15 0 = c.rseq.toNat ∧
      reg t (capRec c.slot 1) = wd (Nat.min (capPre s) c.preCnt) ∧ reg t (capRec c.slot 7) = wd (capPost s) ∧ t.cap.rseq = c.rseq + 1 ∧ rest t)) ∧
    (due → quiet → c.st = .pre → c.trig.toNat / 256 = 0 → c.stop = true → s.swSet = [] → Answers .capRow s (fun t => t.cap.st = .idle ∧ rb t ctl 31 = false ∧ t.mem = s.mem ∧ rest t)) ∧
    (due → quiet → c.st = .stream → c.trig.toNat / 256 = 0 → c.stop = false → c.gap = 0 → capHeld c + nch + 18 ≤ 524288 → c.rows.length + 1 < capBlkRows s → Answers .capRow s (fun t =>
      t.cap.rows = c.rows ++ [row] ∧ t.cap.fifo = c.fifo ∧ t.mem = s.mem ∧ t.regs = s.regs ∧ rest t)) ∧
    (reachable s (capRec r 0) = true → s.hwSet = [] → Answers (.capSlotFree o r) s (fun t => reg t (capRec r 0) = setBit (reg s (capRec r 0)) 31 false ∧
      (∀ a, a ≠ capRec r 0 → reg t a = reg s a) ∧ { t with regs := s.regs } = s)) ∧
    (∀ d b l q, c.relay = [] → c.fifo = (d, b) :: l → rb s ctl 5 = true → outPort s none (nodeOf (BitVec.ofNat 20 (rf s (capR 0x028) 19 0))) = some q → Answers .capStreamSend s (fun t =>
      Queued s t q ⟨BitVec.ofNat 20 (rf s (capR 0x028) 19 0), BitVec.ofNat 20 ((nodeId s).toNat * 64 + 48), 0x20, 3, BitVec.ofNat 8 (b.getD 0 0).toNat, b⟩ ∧ t.cap = { c with fifo := l } ∧
      (∀ p, p ≠ q → portOf t p = portOf s p))) ∧
    (∀ b l, c.relay = b :: l → xhpOn s = true → b.1.length ≤ 64 → Answers .capStreamSend s (fun t => t.cap = { c with relay := l } ∧
      (∀ q ∈ ethPorts s, (kget [] t.stp.txq q).length = (kget [] s.stp.txq q).length + 1) ∧ { t with cap := s.cap, stp := s.stp } = s)) ∧
    (∀ d b l, c.relay = [] → c.fifo = (d, b) :: l → rb s ctl 5 = false → xhpOn s = true → (5 ≤ c.fifo.length ∨ d + 50000 ≤ now s) → Answers .capStreamSend s (fun t =>
      t.cap = { c with fifo := c.fifo.drop 5 } ∧ { t with cap := s.cap, stp := s.stp } = s)) ∧
    ((c.relay = [] ∧ c.fifo = []) ∨ (xhpOn s = false ∧ (c.relay ≠ [] ∨ rb s ctl 5 = false)) → Answers .capStreamSend s (· = s)) ∧
    let here : Prop := isOwn s k.dest = true ∧ k.typ = 0x20 ∧ packetOk k = true ∧ 48 ≤ epOf k.dest ∧ epOf k.dest ≤ 55
    (¬ here ∨ relays s = false → Answers (.streamRx k) s (· = s)) ∧
    (here → relays s = true → c.relay.length < 16 → Answers (.streamRx k) s (fun t => t = { s with cap := { c with relay := c.relay ++ [(k.payload, BitVec.ofNat 14 (nodeOf k.src))] } })) ∧
    (here → relays s = true → 16 ≤ c.relay.length → Answers (.streamRx k) s (fun t => t.cap = c ∧ rf t (capR 0x034) 31 0 = Nat.min 4294967295 (rf s (capR 0x034) 31 0 + 1))))

/-- A message reads back as its source, kind and severity; with an inverted CRC as MSG_CRC of source 320. Outside reset: one captured message of forwarding off sets its PEND bit, the first time enters the log from LOG_MIN on, fills an invalid first-fault record from FIRST_MIN on; below SEV_MIN nothing else happens; severity 7 means SAFE; IRQ and DEGRADED act from SEV_MIN on. An EVENT for index 56 to 63 is logged as remote. Clearing PEND clears SAFE_MASK and ends DEGRADED with its last cause; VALID clears the record. FLT_INJ arms only unlocked in BOOT or READY, with legal fields. ALIVE toggles, kicks count for their core, a window without one is reported. Temperature, rail and oscillator limits report after their samples; a rail’s window is kept for its outputs, and without VCORE INTL_OUT is low. Readings and choices of the model that it rests on: log entries 36, 38, 39, 123. (R354, R359, R360, R362, R364, R366, R367, R368, R373, R377, R381, R382.) -/
def Obligations.HubCapturesAndReacts : Prop :=
  (∀ (src addr : Nat) (k : Kind), src < 512 → hubRead (faultMsg src k addr false) = ⟨src, k.info.1, k.info.2, faultMsg src k addr false⟩ ∧
    ((hubRead (faultMsg src k addr true)).src, (hubRead (faultMsg src k addr true)).kind, (hubRead (faultMsg src k addr true)).sev) = (320, 4, 7)) ∧
  (∀ (o : Origin) (raw : BitVec 64) (w : Word) (pk : Packet) (j : Fin 16) (i : Fin 4) (r : Fin 7) (v : BitVec 16) (c0 c1 c2 c3 : BitVec 16) (s : State), s.sys.inReset = false →
    let m := hubRead raw
    let re := reg s (fltR (0x800 + 4 * m.src))
    let n := rf s (fltR 0x0A0) 5 0
    let e := fltR (0x400 + 0x10 * n)
    let pend (t : State) : Prop := rb t (fltR (0x100 + 4 * (m.src / 32))) (m.src % 32) = true
    let rest (t : State) : Prop := (t.mem, t.swg, t.ports, t.cores, t.saf, t.rdl) = (s.mem, s.swg, s.ports, s.cores, s.saf, s.rdl)
    let entry (t : State) (x : HubMsg) (hi : Nat) : Prop := (reg t e, reg t (e + 4), reg t (e + 8), reg t (e + 12)) = (msgHi x.raw, msgLo x.raw, wd (now s), wd hi) ∧ rf t (fltR 0x0A0) 5 0 = (n + 1) % 64
    let alone : Prop := s.flt.bus = [] ∧ rb s (fltR 0x09C) 31 = false ∧ m.src < 512
    let fresh : Prop := (m.src, m.kind) ∉ s.flt.first
    let plain : Prop := m.sev < 7 ∧ (m.sev < fld re 31 29 ∨ fld re 28 19 = 0)
    let inj := fltR 0x080
    let out := decide (railNominal r * rf s (fltR (0x240 + 4 * r)) 15 8 < 200 * (v.toNat - railNominal r + (railNominal r - v.toNat)))
    let legal : Prop := fld w 23 18 + fld w 17 12 ≤ 48 ∧ 1 ≤ fld w 17 12 ∧ fld w 17 12 ≤ 32 ∧ fld w 27 24 < 13
    let kick := Nat.max 1 (rf s (fltR 0x088) 11 4) * 50000
    (alone → plain → Answers (.faultMsgCapture [raw]) s (fun t => pend t ∧ t.sys = s.sys ∧ rest t ∧ (fresh → rf s (fltR 0x000) 28 26 ≤ m.sev → entry t m (nodeId s).toNat) ∧
      (¬ fresh → rf t (fltR 0x0A0) 5 0 = n) ∧ (rb s (fltR 0x014) 31 = false → rf s (fltR 0x000) 31 29 ≤ m.sev →
        (reg t (fltR 0x008), reg t (fltR 0x00C), reg t (fltR 0x010)) = (msgHi m.raw, msgLo m.raw, wd (now s)) ∧ (rb t (fltR 0x014) 31, rf t (fltR 0x014) 30 28, rf t (fltR 0x014) 7 4) = (true, (modeOf s).code, 1)) ∧
      (rb s (fltR 0x014) 31 = true → (reg t (fltR 0x008), reg t (fltR 0x014)) = (reg s (fltR 0x008), reg s (fltR 0x014))))) ∧
    (alone → m.sev = 7 → s.sys.barred = false → Answers (.faultMsgCapture [raw]) s (fun t => fld re 28 19 = 0 → pend t ∧ modeOf t = .safe ∧ t.sys.cause.getLsbD 0 = true ∧ rb t (sysR (0x200 + 4 * (m.src / 32))) (m.src % 32) = true)) ∧
    (alone → m.sev < 7 → fld re 31 29 ≤ m.sev → fld re 28 19 = 1 → Answers (.faultMsgCapture [raw]) s (fun t => pend t ∧ t.sys = s.sys ∧ rest t ∧
      rb t (fltR 0x004) 31 = (rb s (fltR 0x004) 31 || decide (rf s (fltR 0x000) 19 17 ≤ m.sev)))) ∧
    (alone → m.sev < 7 → fld re 31 29 ≤ m.sev → fld re 28 19 = 256 → modeOf s = .run → rb s (sysR 0x050) 29 = false → Answers (.faultMsgCapture [raw]) s (fun t => pend t ∧ modeOf t = .degraded ∧
      t.flt.degTil = some (now s + Nat.max 1 (fld re 15 0) * 50000000) ∧ t.flt.degSrc = [m.src] ∧ rest t)) ∧
    (let x : HubMsg := ⟨0, 0, 0, BitVec.ofNat 64 ((pk.payload.getD 0 0).toNat * 2 ^ 32 + (pk.payload.getD 1 0).toNat)⟩
     let here : Prop := isOwn s pk.dest = true ∧ pk.typ = 0x21 ∧ packetOk pk = true ∧ 56 ≤ epOf pk.dest
     (¬ here → Answers (.eventRx pk) s (· = s)) ∧ (here → Answers (.eventRx pk) s (fun t => entry t x (2 ^ 31 + (BitVec.ofNat 14 (pk.src.toNat / 64)).toNat) ∧ (∀ k, k < 16 → reg t (fltR (0x100 + 4 * k)) = reg s (fltR (0x100 + 4 * k))) ∧ t.sys = s.sys ∧ rest t))) ∧
    (s.hwSet = [] → Answers (.pendClear o j w) s (fun t => reg t (fltR (0x100 + 4 * j)) = reg s (fltR (0x100 + 4 * j)) &&& ~~~ w ∧
      reg t (sysR (0x200 + 4 * j)) = reg s (sysR (0x200 + 4 * j)) &&& ~~~ (reg s (fltR (0x100 + 4 * j)) &&& w) ∧ rest t ∧
      (modeOf s = .degraded → reg s (fltR 0x090) = 0 → s.saf.chFault = 0 → (∀ q ∈ s.flt.degSrc, q / 32 = j.val ∧ bitOf (reg s (fltR (0x100 + 4 * j)) &&& w) (q % 32) = true) → modeOf t = .run ∧ t.flt.degTil = none) ∧
      (modeOf s ≠ .degraded → t.sys = s.sys))) ∧
    (bitOf w 31 = true → s.flt.capLt ≠ some (now s) → Answers (.firstFaultClear o w) s (fun t => (reg t (fltR 0x008), reg t (fltR 0x00C), reg t (fltR 0x010), reg t (fltR 0x014)) = (0, 0, 0, 0) ∧
      (∀ k, k < 16 → reg t (fltR (0x040 + 4 * k)) = 0) ∧ (∀ k, k < 16 → reg t (fltR (0x100 + 4 * k)) = reg s (fltR (0x100 + 4 * k))) ∧ { t with regs := s.regs } = s)) ∧
    ((modeOf s = .boot ∨ modeOf s = .ready) → rwlOpen s = true → logIsFull s = false → legal → ¬ (fld w 27 24 = 12 ∧ fld w 8 0 = 357) → Answers (.injectArm o w) s (fun t =>
      rb t inj 31 = true ∧ rf t inj 27 0 = fld w 27 0 ∧ t.nv.logSeq = s.nv.logSeq + 1 ∧ t.mem = s.mem)) ∧
    (rwlOpen s = true → logIsFull s = false → notInjecting s = true → ((modeOf s ≠ .boot ∧ modeOf s ≠ .ready) ∨ ¬ legal) → Answers (.injectArm o w) s (fun t =>
      rb t inj 31 = false ∧ (now s, faultMsg 351 .access inj false) ∈ t.flt.bus)) ∧
    (rwlOpen s = false → notInjecting s = true → Answers (.injectArm o w) s (fun t => Reports s t 351 .access inj ∧ t.regs = s.regs ∧ rest t)) ∧
    (s.flt.running = true → s.flt.stopped = false → now s % 50000 = 0 → s.flt.lastEdge < now s → Answers .aliveEdge s (fun t => t = { s with flt := { s.flt with alive := !s.flt.alive, lastEdge := now s } })) ∧
    ((s.flt.running = false ∨ s.flt.stopped = true ∨ now s % 50000 ≠ 0 ∨ now s ≤ s.flt.lastEdge) → Answers .aliveEdge s (· = s)) ∧
    Answers (.aliveKickWrite (.core i) w) s (fun t => t = { s with flt := { s.flt with kicked := s.flt.kicked ||| BitVec.ofNat 4 (2 ^ i.val) } }) ∧ ((∀ n, o ≠ .core n) → Answers (.aliveKickWrite o w) s (· = s)) ∧
    (notInjecting s = true → rf s (fltR 0x088) 3 0 = 2 ^ i.val → kget 0 s.flt.kickBeg i + kick ≤ now s → Answers .kickWindowExpiry s (fun t => kget 0 t.flt.kickBeg i = kget 0 s.flt.kickBeg i + kick ∧
      t.flt.kicked.getLsbD i = false ∧ (if s.flt.kicked.getLsbD i then t.flt.bus = s.flt.bus else Reports s t 321 .aliveKick (fltR 0x088)) ∧ t.regs = s.regs)) ∧
    (notInjecting s = true → Answers (.tempSample i v) s (fun t => reg t (fltR (0x200 + 4 * i)) = wd v.toNat ∧
      (sext 16 (rf s (fltR 0x210) 31 16) ≤ v.toInt → 1 ≤ kget 0 s.flt.tCnt (4 + i) → kget false s.flt.tUp (4 + i) = false → (now s, faultMsg (480 + i) .tempTrip (fltR (0x200 + 4 * i)) false) ∈ t.flt.bus) ∧
      (v.toInt < sext 16 (rf s (fltR 0x210) 15 0) → v.toInt < sext 16 (rf s (fltR 0x210) 31 16) → t.flt.bus = s.flt.bus) ∧ rest t)) ∧
    (notInjecting s = true → Answers (.railSample r v) s (fun t => reg t (fltR (0x220 + 4 * r)) = wd v.toNat ∧
      kget none t.sup.rails r = some (!out) ∧ (r.val = 0 → out = true → t.sys.pair.intlOut = false) ∧
      (out = true → 3 ≤ kget 0 s.flt.vCnt (7 + r) → kget false s.flt.vUp (7 + r) = false →
        (now s, faultMsg (484 + r) .voltTrip (fltR (0x220 + 4 * r)) false) ∈ t.flt.bus) ∧ (v.toNat = railNominal r → t.flt.bus = s.flt.bus) ∧ (r.val ≠ 0 ∨ out = false → rest t))) ∧
    (notInjecting s = true → Answers (.roMeasure c0 c1 c2 c3) s (fun t => (reg t (fltR 0x260), reg t (fltR 0x264), reg t (fltR 0x268), reg t (fltR 0x26C)) = (wd c0.toNat, wd c1.toNat, wd c2.toNat, wd c3.toNat) ∧
      (if ∀ c ∈ [c0, c1, c2, c3], rf s (fltR 0x270) 15 0 ≤ c.toNat ∧ c.toNat ≤ rf s (fltR 0x270) 31 16 then t.flt = s.flt else Reports s t 491 .procDrift (fltR 0x260)))))

/-- With no injection. A first demand sets its cause, is reported, takes the part to SAFE and, after the self-test, drives the outputs: high for ACT_TIME in a cell, low above. An input that has been low for IN_FILT demands while IN_EN is 1, else is ignored; their release ends it in an upper role that has left SAFE. Inputs that differ for more than 10 ms and feedbacks that differ for more than FB_DLY set their flags and are reported. The actuation is checked and ends BYPASSED. A bypass request needs a cell, the host, the key and the energy. Island causes latch and demand; silence of ALIVE demands. Tests start when due or asked for in their modes, pulse A, then B, then in a cell both, are judged step by step, fail on current, and are reported overdue. Readings and choices of the model that it rests on: log entries 30, 31, 124. (R389, R391, R392, R394, R395, R397, R398, R399, R400, R402, R404, 15_saffron_safety_island.md Table 15-3.) -/
def Obligations.SaffronDemandsAndTests : Prop :=
  ∀ (ch : Fin 2) (lowFor span : BitVec 24) (o : Origin) (w : Word) (lc : LatchCause) (a b lvl : Bool) (tst : BitVec 8) (s : State), notInjecting s = true →
    let f := s.saf
    let none_ : Prop := f.demand = 0 ∧ f.act = none ∧ s.sys.barred = false ∧ ∀ u, s.sys.undo = some u → u.at_lt ≠ now s
    let low := if ch = 0 then f.lowA else f.lowB
    let since := low.getD (now s - lowFor.toNat)
    let filt := Nat.max 1 (rf s (safR 0x010) 31 24) * 500
    let key : Prop := isCell s = true ∧ byHost o = true ∧ w = wd (0xB75A0000 + (nodeId s).toNat)
    let only (g : Saf → Saf) (t : State) : Prop := t = { s with saf := g s.saf }
    let stat := safR 0x008
    let told (t : State) (src : Nat) (k : Kind) (x : Nat) : Prop := (now s, faultMsg src k x false) ∈ t.flt.bus
    let demanded (t : State) (bit : Nat) : Prop := t.saf.demand.getLsbD bit = true ∧ modeOf t = .safe ∧ told t 356 .demand (safR 0x00C) ∧ t.saf.test = none ∧ t.saf.leftSafe = false ∧ t.mem = s.mem ∧
      (f.testRun = true → isCell s = true → (t.saf.outA, t.saf.outB, t.saf.act) = (true, true, some (now s + ms (clampN 1 1000 (rf s (safR 0x010) 15 0)))) ∧ t.saf.actChk = some (now s + us (Nat.max 1 (rf s (safR 0x010) 23 16)))) ∧
      (f.testRun = true → isCell s = false → (t.saf.outA, t.saf.outB) = (false, false))
    let idle : Prop := f.test = none ∧ f.act = none ∧ f.demand = 0
    let begins (x : State) (t : State) : Prop := t = { x with saf := { x.saf with test := some (1, false, now s + tpWidth s), due := some (now s + tpInt s), outA := isCell s, outB := !isCell s, outAt := now s } }
    let ended (t : State) (pass : Bool) : Prop := t.saf.test = none ∧ (t.saf.outA, t.saf.outB) = (!isCell s, !isCell s) ∧ t.saf.last = (if pass then 1 else 2) ∧ t.saf.okAt = now s ∧ (pass = true → t.saf.chFault = 0)
    (∀ pass, f.testRun = true → Answers (.selfTestDone pass) s (· = s)) ∧
    (f.testRun = false → f.demand = 0 → Answers (.selfTestDone true) s (only fun g => { g with testRun := true, tested := true })) ∧
    (f.testRun = false → none_ → Answers (.selfTestDone false) s (fun t => t.saf.latched = true ∧ t.saf.tested = false ∧ t.saf.demand.getLsbD 7 = true ∧ modeOf t = .safe ∧ told t 352 .safSelftest stat)) ∧
    (rb s (safR 0x004) 1 = true → since + filt ≤ now s → none_ → Answers (.demandInput ch lowFor) s (fun t => demanded t ch ∧ (if ch = 0 then t.saf.inA else t.saf.inB) = true)) ∧
    ((rb s (safR 0x004) 1 = false ∨ now s < since + filt) → Answers (.demandInput ch lowFor) s (fun t => (if ch = 0 then t.saf.lowA else t.saf.lowB) = some since ∧
      (t.saf.demand, t.saf.inA, t.saf.inB, t.saf.outA, t.saf.outB) = (f.demand, f.inA, f.inB, f.outA, f.outB) ∧ { t with saf := s.saf } = s)) ∧
    (f.demand = 0 → Answers (.demandInputRelease ch) s (only fun g =>
      let g := { g with inChg := if low.isSome then now s else g.inChg }
      if ch = 0 then { g with inA := false, lowA := none } else { g with inB := false, lowB := none })) ∧
    (isUpper s = true → f.demand ≠ 0 → f.leftSafe = true → modeOf s ≠ .safe → f.latched = false → (rb s (safR 0x004) 1 = false ∨ (if ch = 0 then f.lowB else f.lowA) = none) → Answers (.demandInputRelease ch) s (fun t =>
      (t.saf.demand, t.saf.outA, t.saf.outB, if ch = 0 then t.saf.inA else t.saf.inB) = (0, f.risen, f.risen, false) ∧ { t with saf := s.saf } = s)) ∧
    (rb s (safR 0x004) 1 = true → f.lowA.isSome ≠ f.lowB.isSome → f.inChg + 5000000 < now s → Answers .inDiscrep s (fun t => Reports s t 355 .inDiscrep stat ∧ rb t stat 5 = true ∧ t.saf = f)) ∧ ((rb s (safR 0x004) 1 = false ∨ f.lowA.isSome = f.lowB.isSome ∨ now s ≤ f.inChg + 5000000) → Answers .inDiscrep s (· = s)) ∧
    (f.test = none → f.act = none → lvl ≠ (if ch = 0 then f.outA else f.outB) → f.outAt + us (fbDly s) < now s → now s - span.toNat + us (fbDly s) < now s → Answers (.fbDiscrep ch lvl span) s (fun t =>
      Reports s t (353 + ch) .fbDiscrep stat ∧ rb t stat (3 + ch) = true ∧ (if ch = 0 then t.saf.fbA else t.saf.fbB) = lvl)) ∧
    ((f.test ≠ none ∨ f.act ≠ none ∨ lvl = (if ch = 0 then f.outA else f.outB) ∨ now s ≤ f.outAt + us (fbDly s) ∨ now s ≤ now s - span.toNat + us (fbDly s)) → Answers (.fbDiscrep ch lvl span) s
      (only fun g => if ch = 0 then { g with fbA := lvl } else { g with fbB := lvl })) ∧
    ((∀ d, f.actChk = some d → now s < d) → Answers (.actFbCheck a b) s (· = s)) ∧
    (∀ d, f.actChk = some d → d ≤ now s → Answers (.actFbCheck a b) s (fun t => (t.saf.fbA, t.saf.fbB, t.saf.actChk) = (a, b, none) ∧
      (if a && b then t.flt = s.flt ∧ t.saf.actErr = f.actErr else Reports s t 356 .actFail stat ∧ t.saf.actErr = true ∧ rb t stat 6 = true))) ∧
    (∀ d, f.act = some d → d ≤ now s → Answers .actTimeEnd s (fun t => (t.saf.outA, t.saf.outB, t.saf.act) = (false, false, none) ∧ t.nv.bypassed = true ∧ t.nv.actFailed = (s.nv.actFailed || f.actErr) ∧ t.saf.closed = some f.actErr ∧
      t.rdl.state = (if f.actErr then .blocked else .bypassed) ∧ (t.regs, t.mem, t.swg, t.sys) = (s.regs, s.mem, s.swg, s.sys))) ∧
    ((∀ d, f.act = some d → now s < d) → Answers .actTimeEnd s (· = s)) ∧
    (s.sys.inReset = false → key →
      (eRes s ≤ s.sup.eAvail → none_ → Answers (.bypassRequest o w) s (demanded · 4)) ∧ (s.sup.eAvail < eRes s → Answers (.bypassRequest o w) s (fun t => rb t stat 11 = true ∧ t.saf = f ∧ t.sys = s.sys))) ∧
    (s.sys.inReset = false → ¬ key → Answers (.bypassRequest o w) s (fun t => Reports s t 383 .access (safR 0x050) ∧ t.saf = f ∧ t.sys = s.sys)) ∧
    (none_ → Answers (.islandLatch lc) s (fun t => t.saf.latched = true ∧ demanded t 7 ∧ told t 352 (match lc with | .lockstep => .safLockstep | .clock => .safClock | .watchdog => .safWdog | .memory => .safMem) stat)) ∧
    (isUpper s = true → s.flt.running = true → s.flt.lastEdge + 150000 ≤ now s → none_ → Answers .aliveSilent s (demanded · 6)) ∧ ((isUpper s = false ∨ s.flt.running = false ∨ now s < s.flt.lastEdge + 150000) → Answers .aliveSilent s (· = s)) ∧
    (s.sys.inReset = false →
      (∀ d, f.due = some d → d ≤ now s → rb s (safR 0x004) 0 = true → testMode s = true → idle → (isCell s = false ∨ (s.sup.low = false ∧ rb s (supR 0x128) 1 = false)) → Answers .testStart s (begins s)) ∧
      (∀ d, f.due = some d → d ≤ now s → rb s (safR 0x004) 0 = true → testMode s = true → idle → isCell s = true → s.sup.low = true → Answers .testStart s (only fun g => { g with due := some (now s + 500000000) })) ∧
      (rwlOpen s = false → f.lowA = none → f.lowB = none → rb s (safR 0x004) 0 = true → testMode s = true → idle → fld w 3 0 = fld (reg s (safR 0x004)) 3 0 → Answers (.testNow o w) s (fun t => t.saf.test = some (1, false, now s + tpWidth s) ∧
        (t.saf.outA, t.saf.outB) = (isCell s, !isCell s) ∧ t.saf.due = some (now s + tpInt s) ∧ rb t (safR 0x004) 31 = false)) ∧
      (((∀ d, f.due = some d → now s < d) ∨ rb s (safR 0x004) 0 = false ∨ testMode s = false ∨ ¬ idle) → Answers .testStart s (· = s)) ∧
      ((∀ n d, f.test = some (n, false, d) → now s < d) → Answers (.testStepEnd a b tst) s (· = s)) ∧ ((∀ n d, f.test = some (n, true, d) → now s < d) → Answers .testGapEnd s (· = s)) ∧
      ((∀ n d, f.test ≠ some (n, false, d)) → Answers (.testCurrentFail a b tst) s (· = s)) ∧
      (∀ n d, f.test = some (n, false, d) → d ≤ now s → 1 ≤ n → n ≤ 3 →
        (stepPass s n a b tst.toNat = false → Answers (.testStepEnd a b tst) s (fun t => ended t false ∧ t.saf.chFault = f.chFault ||| BitVec.ofNat 2 n ∧ ∀ c : Fin 2, n = 3 ∨ n = c.val + 1 → told t (353 + c) .testFail stat)) ∧
        (stepPass s n a b tst.toNat = true → (n = 3 ∨ (n = 2 ∧ isCell s = false)) → Answers (.testStepEnd a b tst) s (ended · true)) ∧
        (stepPass s n a b tst.toNat = true → (n = 1 ∨ (n = 2 ∧ isCell s = true)) → Answers (.testStepEnd a b tst) s (fun t => t.saf.test = some (n, true, now s + 50000) ∧ (t.saf.outA, t.saf.outB) = (!isCell s, !isCell s) ∧ t.flt = s.flt))) ∧
      (∀ n d, f.test = some (n, true, d) → d ≤ now s → (n = 1 ∨ n = 2) → Answers .testGapEnd s (fun t => t.saf.test = some (n + 1, false, now s + tpWidth s) ∧
        (t.saf.outA, t.saf.outB) = (if n = 2 then (true, true) else (!isCell s, isCell s)) ∧ { t with saf := s.saf } = s)) ∧
      (∀ n d, f.test = some (n, false, d) → ((n = 3 ∧ rf s (safR 0x01C) 15 8 < tst.toNat) ∨ ((n = 1 ∨ n = 2) ∧ isCell s = true ∧ rf s (safR 0x01C) 7 0 ≤ tst.toNat)) → Answers (.testCurrentFail a b tst) s (ended · false)) ∧
      (testMode s = true → f.okAt + 2 * tpInt s ≤ now s → rb s stat 2 = false → Answers .testOverdue s (fun t => Reports s t 353 .testOverdue stat ∧ rb t stat 2 = true ∧ t.saf = f)) ∧
      ((testMode s = false ∨ now s < f.okAt + 2 * tpInt s ∨ rb s stat 2 = true) → Answers .testOverdue s (· = s)))

/-- Outside reset with no injection: in BOOT, PRECHARGE, READY and SAFE, with room in the log and no lockout, the right password unlocks for 600 s and is logged; a wrong one counts, starts the lockout, is logged and reported; during a lockout it is refused uncompared; elsewhere it is an access fault. LOCK and the timeout lock and log; SET takes a new password only while unlocked and not 0. A service code of an unlocked cell in SAFE is logged and clears BYPASSED and ACT_FAILED. Acknowledgement up to a SEQ leaves the newer entries. Readings and choices of the model that it rests on: log entries 15, 28, 34, 113. (R406, R407, R408, R409, R411, R412, R413, 15_saffron_safety_island.md Table 15-5.) -/
def Obligations.SaffronLockAndLog : Prop :=
  ∀ (o : Origin) (lo w : Word) (s : State), s.sys.inReset = false → notInjecting s = true →
    let f := s.saf
    let open_ : Prop := modeOf s = .boot ∨ modeOf s = .precharge ∨ modeOf s = .ready ∨ modeOf s = .safe
    let room : Prop := s.nv.unack < 248
    let right : Prop := sha256 (pwBytes f.pwHi lo) = s.nv.digest
    let logged (t : State) (typ : Nat) (n : BitVec 14) : Prop := t.nv.logSeq = s.nv.logSeq + 1 ∧ t.nv.logNext = (s.nv.logNext + 1) % 256 ∧ t.nv.unack = Nat.min 256 (s.nv.unack + 1) ∧
      (s.nv.logNext < 256 → kget 0 t.nv.log (8 * s.nv.logNext) = s.nv.logSeq + 1 ∧ kget 0 t.nv.log (8 * s.nv.logNext + 1) = wd (typ * 2 ^ 24 + (modeOf s).code * 2 ^ 20 + n.toNat) ∧
        kget 0 t.nv.log (8 * s.nv.logNext + 5) = s.nv.pwrCnt ∧ kget 0 t.nv.log (8 * s.nv.logNext + 6) = wd (now s)) ∧ t.nv.uid = s.nv.uid
    let rest (t : State) : Prop := (t.regs, t.mem, t.sys, t.swg) = (s.regs, s.mem, s.sys, s.swg)
    let access (t : State) (x : Nat) : Prop := Reports s t 383 .access x ∧ t.saf = f ∧ t.nv = s.nv ∧ rest t
    (open_ → room → f.lockTil ≤ now s → right → Answers (.unlockAttempt o lo) s (fun t => t.saf = { f with unlocked := true, lockAt := now s + 300000000000 } ∧ t.nv.fails = 0 ∧ t.nv.digest = s.nv.digest ∧
      logged t 2 (originNode s o) ∧ t.flt = s.flt ∧ rest t)) ∧
    (open_ → room → f.lockTil ≤ now s → ¬ right → Answers (.unlockAttempt o lo) s (fun t => t.saf = { f with lockTil := now s + sec (lockoutS (Nat.min 127 (s.nv.fails + 1))) } ∧ t.nv.fails = Nat.min 127 (s.nv.fails + 1) ∧
      logged t 3 (originNode s o) ∧ Reports s t 357 .pwFail (safR 0x038) ∧ rest t)) ∧
    (open_ → room → now s < f.lockTil → Answers (.unlockAttempt o lo) s (fun t => t = { s with saf := { f with refused := Nat.min 15 (f.refused + 1) } })) ∧
    (¬ open_ → Answers (.unlockAttempt o lo) s (access · (safR 0x034))) ∧
    (f.lockTil ≤ now s → Answers .lockoutEnd s (fun t => t = { s with saf := { f with lockTil := 0 } })) ∧ (now s < f.lockTil → Answers .lockoutEnd s (· = s)) ∧
    (f.unlocked = true → bitOf w 30 = false → Answers (.safLockCmd o w) s (fun t => t.saf.unlocked = false ∧ logged t 4 (originNode s o) ∧ rest t)) ∧
    (f.unlocked = true → f.lockAt ≤ now s → Answers .unlockTimeout s (fun t => t.saf.unlocked = false ∧ logged t 4 (nodeId s) ∧ rest t)) ∧
    ((f.unlocked = false ∨ now s < f.lockAt) → Answers .unlockTimeout s (· = s)) ∧
    (f.unlocked = true → room → bitOf w 31 = false → ¬ (f.newHi = 0 ∧ f.newLo = 0) → Answers (.passwordSet o w) s (fun t => t.nv.digest = sha256 (pwBytes f.newHi f.newLo) ∧ t.nv.default = false ∧
      logged t 5 (originNode s o) ∧ t.saf = f ∧ rest t)) ∧
    ((f.unlocked = false ∨ (room ∧ f.newHi = 0 ∧ f.newLo = 0)) → bitOf w 31 = false → Answers (.passwordSet o w) s (access · (safR 0x038))) ∧
    (isCell s = true → rwlOpen s = true → modeOf s = .safe → s.nv.unack < 256 → Answers (.serviceRecord o w) s (fun t => (t.nv.bypassed, t.nv.actFailed) = (false, false) ∧ logged t 6 (originNode s o) ∧ t.saf = f ∧ rest t)) ∧
    ((isCell s = false ∨ rwlOpen s = false ∨ modeOf s ≠ .safe) → Answers (.serviceRecord o w) s (access · (safR 0x054))) ∧
    (s.nv.logSeq.toNat - w.toNat ≤ s.nv.unack → Answers (.logAck o w) s (fun t => t.nv = { s.nv with unack := s.nv.logSeq.toNat - w.toNat } ∧ rest t)) ∧
    (s.nv.unack < s.nv.logSeq.toNat - w.toNat → Answers (.logAck o w) s (fun t => t.nv = s.nv ∧ rest t))

/-- The comparison matches a list with itself, and only lists of equal length whose packets have their counterparts. Outside reset with no injection, at a paired upper part: a re-check that finds INTL_IN high makes side B inactive with CONTEND, otherwise the part has been active. A standby keeps mirrored packets, and a copy ends the wait for it. YIELD_REQ with a first fault of YIELD_SEV, and RELINQUISH, mark an active part with a synchronised peer to yield in this tick, or the next when late; at period - 200 ns it drops INTL_OUT, discards, counts EPOCH and tells its partner if it was synchronised. SYNC_REQ asks for an image, which is taken after the jobs and sent on the PARTNER port; image words are kept. Unpaired nothing happens. Readings and choices of the model that it rests on: log entries 44, 56, 106, 107, 108, 109. (R36, R416, R422, R423, R424, R427, R428, R433, R434, 16_hub_redundancy.md Table 16-6.) -/
def Obligations.PairedHubsYieldAndResync : Prop :=
  (∀ l : List Packet, mirrorsMatch l l = true) ∧ (∀ l k : List Packet, mirrorsMatch l k = true → l.length = k.length ∧ (∀ a ∈ l, ∃ b ∈ k, sameMirror a b = true) ∧ (∀ b ∈ k, ∃ a ∈ l, sameMirror a b = true)) ∧
  (∀ (o : Origin) (pk : Packet) (level last : Bool) (w : Word) (ws : List (Word × Word)) (p : Port) (s : State), s.sys.inReset = false → notInjecting s = true →
    let r := s.sys.pair
    let on : Prop := isUpper s = true ∧ rb s (sysR 0x050) 31 = true
    let only (f : Pair → Pair) (t : State) : Prop := t = { s with sys := { s.sys with pair := f r } }
    let cmd (v : Word) : Packet := ⟨0, BitVec.ofNat 20 ((nodeId s).toNat * 64), 1, 2, 0, [wd (sysR 0x058), v]⟩
    let yields (f : Pair) : Pair := { f with yieldTk := some (if phaseOf s + 100 ≤ periodLt s then s.tmk.tick else s.tmk.tick + 1) }
    let image := (imageAddrs s).map (reg s)
    (∀ d, r.recheck = some d → d + 50 ≤ now s → r.active = true →
      (level = true → rb s (sysR 0x050) 30 = true → Answers (.intlRecheck level) s (fun t => (t.sys.pair.intlOut, t.sys.pair.active, t.sys.pair.recheck, t.sys.pair.intlIn) = (false, false, none, true) ∧
        rb t (sysR 0x054) 2 = true ∧ Reports s t 8 .pairContend (sysR 0x054) ∧ modeOf t = modeOf s ∧ (t.ports, t.mem) = (s.ports, s.mem))) ∧
      ((level = false ∨ rb s (sysR 0x050) 30 = false) → Answers (.intlRecheck level) s (only fun f => { f with recheck := none, intlIn := level, wasAct := true }))) ∧
    (∀ d, r.recheck = some d → now s < d + 50 → Answers (.intlRecheck level) s (· = s)) ∧
    (packetOk pk = true → on → r.active = false → isMirror pk = true → Answers (.mirrorRx pk) s (only fun f => { f with passed := f.passed.erase pk, peer := f.peer ++ [pk] })) ∧
    (packetOk pk = true → (r.active = true ∨ isMirror pk = false ∨ ¬ on) → Answers (.mirrorRx pk) s (only fun f => { f with passed := f.passed.erase pk })) ∧ (packetOk pk = false → Answers (.mirrorRx pk) s (· = s)) ∧
    (on → r.active = true →
      (rb s (fltR 0x014) 31 = true → rf s (sysR 0x050) 26 24 ≤ rf s (fltR 0x008) 15 13 → r.peerSyn = true → r.yieldTk = none → Answers (.yieldReq o) s (only yields)) ∧
      ((rb s (fltR 0x014) 31 = false ∨ rf s (fltR 0x008) 15 13 < rf s (sysR 0x050) 26 24) → Answers (.yieldReq o) s (fun t => Reports s t 8 .pairMismatch (sysR 0x058) ∧ t.sys = s.sys ∧ t.regs = s.regs)) ∧
      (r.peerSyn = true → r.yieldTk = none → Answers (.relinquish o) s (only yields)) ∧ (r.peerSyn = false → Answers (.relinquish o) s (· = s)) ∧
      Answers (.syncReq o) s (only fun f => { f with imgReq := true })) ∧
    (on → r.active = true → (∃ y, r.yieldTk = some y ∧ (y < s.tmk.tick ∨ (y = s.tmk.tick ∧ periodLt s ≤ phaseOf s + 100))) → partnerPort s = some p.val → isActive s p = true → s.sys.discLt ≠ some (now s) →
      Answers .yieldDrop s (fun t => (t.sys.pair.intlOut, t.sys.pair.active, t.sys.pair.synced, t.sys.pair.yieldTk) = (false, false, false, none) ∧ modeOf t = modeOf s ∧
        rf t (sysR 0x010) 31 8 = (rf s (sysR 0x010) 31 8 + 1) % 2 ^ 24 ∧ rf t (sysR 0x010) 3 0 = 4 ∧ rb t (sysR 0x054) 0 = true ∧ (portOf t p).q2 = (if r.synced then [cmd 0x10000000] else []) ∧
        ((portOf t p).q1, (portOf t p).q3d, (portOf t p).q3m, t.trr.reqs, t.stp.xq) = ([], [], [], [], []) ∧ t.mem = s.mem)) ∧
    ((r.yieldTk = none ∨ r.active = false ∨ ∀ y, r.yieldTk = some y → s.tmk.tick ≤ y ∧ (y = s.tmk.tick → phaseOf s + 100 < periodLt s)) → Answers .yieldDrop s (· = s)) ∧ (r.recheck = none → Answers (.intlRecheck level) s (· = s)) ∧
    (on → r.active = false → modeOf s = .run → allNormal s = true → partnerPort s = some p.val → isActive s p = true → Answers (.syncReq o) s (fun t => Queued s t p (cmd 0x20000000) ∧
      (t.sys.pair.syncing, t.sys.pair.image, t.sys.pair.imgEnd, t.sys.pair.loaded, t.sys.pair.match_) = (true, [], false, false, 0) ∧ rb t (sysR 0x058) 29 = true ∧ (∀ q, q ≠ p.val → portOf t q = portOf s q))) ∧
    (on → Answers (.peerUpd o w) s (only fun f => { f with peerSyn := bitOf w 27 })) ∧
    (¬ on → Answers (.peerUpd o w) s (· = s) ∧ Answers (.yieldReq o) s (· = s) ∧ Answers (.relinquish o) s (· = s) ∧ Answers (.syncReq o) s (· = s) ∧ Answers (.stateImageRx ws last) s (· = s)) ∧
    (on → r.active = true → r.imgTick = true → (∀ i : Fin 4, rb s (siCtrl i) 0 = true → (instOf s i).ran = true) → partnerPort s = some p.val → isActive s p = true → image ≠ [] → image.length ≤ 63 →
      Answers .stateImageSend s (fun t => Queued s t p ⟨0, BitVec.ofNat 20 ((nodeId s).toNat * 64), 1, 2, 0, wd (sysR 0x054) :: image⟩ ∧ t.sys.pair.imgTick = false ∧ t.regs = s.regs)) ∧
    ((r.imgTick = false ∨ r.active = false) → Answers .stateImageSend s (· = s)) ∧
    (on → r.active = false → r.syncing = true → r.loaded = false → Answers (.stateImageRx ws last) s (only fun f => { f with image := f.image ++ ws, imgEnd := f.imgEnd || last })))

/-- The mailbox that attempts is a pending one of the lowest identifier rank. Outside reset with no injection: INIT clears only with rates of R460; the bus is joined 11 recessive bits later. An attempt starts after the intermission, with TDCV and the secondary sample point by the measured delay. REQ makes a mailbox pending with RESULT and RETRIES 0. A sent frame leaves with RESULT SENT and TEC one lower; a lost arbitration leaves it pending; an error adds 8 to TEC and one to RETRIES, past the limit RETRY_EXHAUSTED, at 256 bus-off; CANCEL ends a waiting request at once, one in progress after its attempt. Recovery clears TEC and RETRIES. A frame goes to the FIFO or is counted lost; a pop removes the oldest. In a STATION part keys after DEB, touch counts, baselines every 256 ms, LEDs and SVC_DET after 50 ms follow. Readings and choices of the model that it rests on: log entries 110, 111, 112. (R459, R460, R463, R464, R465, R466, R467, R468, R469, R472, R473, R474.) -/
def Obligations.ServiceBusAndPanel : Prop :=
  (∀ s : State, (∀ n, mbBest s = some n → pendOf s n = true ∧ ∀ m : Fin 8, pendOf s m = true → mbRank s n ≤ mbRank s m) ∧ (mbBest s = none → ∀ m : Fin 8, pendOf s m = false)) ∧
  (∀ (o : Origin) (w : Word) (n k : Fin 8) (b : Bool) (f : CanFrame) (e : Fin 4) (c dly : BitVec 16) (s : State), s.sys.inReset = false → notInjecting s = true →
    let v := s.svb
    let only (g : Svb → Svb) (t : State) : Prop := t = { s with svb := g v }
    let stat := svbR 0x004
    let mb := svbR (0x100 + 0x50 * n)
    let done (t : State) (res : Nat) : Prop := rf t mb 26 24 = res ∧ has8 t.svb.pend n = false ∧ has8 t.svb.cancel n = false
    let retry (t : State) : Prop := rf t mb 23 16 = Nat.min 255 (rf s mb 23 16 + 1)
    let on : Prop := v.joined = true ∧ rb s (svbR 0) 31 = false ∧ v.busOff = false
    let tr := svbR (0x810 + 4 * e)
    let d : Int := ((kget 0 v.base e : Nat) : Int) - (c.toNat : Nat)
    let th : Int := (rf s tr 15 0 : Nat)
    let gap (t : State) : Nat := now s + divUp ((if canPassive t.svb then 11 else 3) * nomQuanta s * 25) 4
    let quiet : Prop := s.swSet = []
    let station : Prop := panelOn s = true
    (reachable s (svbR 0) = true → rb s (svbR 0) 31 = true →
      (canRatesOk s (bitOf w 28) = true → Answers (.canInitClear o w) s (fun t => rb t (svbR 0) 31 = false ∧ (rf t (svbR 0) 30 28, rf t (svbR 0) 7 0) = (fld w 30 28, fld w 7 0) ∧ t.svb = v ∧ t.flt = s.flt)) ∧
      (canRatesOk s (bitOf w 28) = false → Answers (.canInitClear o w) s (fun t => rb t (svbR 0) 31 = true ∧ t.svb = v ∧ Reports s t 447 .access (svbR 0)))) ∧
    (blockOn (roleOf s) 13 = true → rb s (svbR 0) 31 = false → Answers .canBusJoin s (only fun g => { g with joined := true })) ∧
    (reachable s mb = true → has8 v.pend n = false → bitOf w 30 = false → (bitOf w 7 && bitOf w 4) = false → Answers (.canTxReq o n w) s (fun t => t.svb = { v with pend := set8 v.pend n true } ∧
      (rf t mb 26 16, rf t mb 7 0) = (0, fld w 7 0) ∧ (∀ a, a ≠ mb → reg t a = reg s a) ∧ t.flt = s.flt)) ∧
    (reachable s mb = true → has8 v.pend n = false → bitOf w 30 = false → bitOf w 7 = true → bitOf w 4 = true → Answers (.canTxReq o n w) s (fun t => Reports s t 447 .access mb ∧ t.svb = v)) ∧
    (on → v.cur = none → v.idleAt ≤ now s → (mbBest s = none → Answers (.canTxAttempt dly) s (· = s)) ∧ ∀ m, mbBest s = some m →
      ((mbFrame s m).brs = true → rb s (svbR 0) 28 = true → Answers (.canTxAttempt dly) s (fun t => t.svb = { v with cur := some m, ssp := some (dly.toNat + rf s (svbR 0x00C) 13 7) } ∧ rf t (svbR 0x00C) 6 0 = Nat.min 127 dly.toNat)) ∧
      (((mbFrame s m).brs = false ∨ rb s (svbR 0) 28 = false) → Answers (.canTxAttempt dly) s (only fun g => { g with cur := some m, ssp := none }))) ∧
    ((¬ on ∨ v.cur ≠ none ∨ now s < v.idleAt) → Answers (.canTxAttempt dly) s (· = s)) ∧
    (quiet → v.cur = some n → Answers (.canAttemptEnd .sent) s (fun t => done t 1 ∧ t.svb.idleAt = gap t ∧ t.svb.tec = v.tec - 1 ∧ t.svb.cur = none ∧ t.sent = s.sent ++ [.can n (mbFrame s n)] ∧ (∀ a, a ≠ mb → reg t a = reg s a))) ∧
    (v.cur = some n → has8 v.cancel n = false → Answers (.canAttemptEnd .lost) s (fun t => only (fun g => { g with cur := none, ssp := none, idleAt := gap t }) t)) ∧
    (quiet → v.cur = some n → has8 v.cancel n = true → Answers (.canAttemptEnd .lost) s (done · 2)) ∧ (v.cur = none → ∀ r, Answers (.canAttemptEnd r) s (· = s)) ∧
    (v.cur = some n → v.tec + 8 < 256 →
      (rf s (svbR 0) 7 0 = 0 ∨ rf s mb 23 16 + 1 ≤ rf s (svbR 0) 7 0 → has8 v.cancel n = false → Answers (.canAttemptEnd .error) s (fun t => retry t ∧ t.svb = { v with cur := none, ssp := none, tec := v.tec + 8, idleAt := gap t } ∧ t.flt = s.flt)) ∧
      (quiet → rf s (svbR 0) 7 0 ≠ 0 → rf s (svbR 0) 7 0 < rf s mb 23 16 + 1 → Answers (.canAttemptEnd .error) s (fun t => done t 4 ∧ t.svb.tec = v.tec + 8 ∧ rb t stat 1 = true ∧ Reports s t 416 .retryExhausted stat)) ∧
      (canPassive v = true → rf s (svbR 0) 7 0 = 0 → has8 v.cancel n = false → Answers (.canAttemptEnd .ack) s (fun t => t.svb.tec = v.tec ∧ retry t))) ∧
    (v.cur = some n → 256 ≤ v.tec + 8 → has8 v.cancel n = false → Answers (.canAttemptEnd .error) s (fun t => t.svb = { v with cur := none, ssp := none, tec := 256, busOff := true, idleAt := gap t } ∧ Reports s t 416 .busOff stat ∧ t.regs = s.regs)) ∧
    (reachable s mb = true → has8 v.pend n = true → (quiet → v.cur ≠ some n → Answers (.canCancel o n) s (done · (if v.busOff then 3 else 2))) ∧
      (v.cur = some n → Answers (.canCancel o n) s (only fun g => { g with cancel := set8 g.cancel n true }))) ∧
    (reachable s (svbR 0x014) = true → v.busOff = true → v.recov = false → Answers (.canRecover o w) s (fun t => t = setReg { s with svb := { v with recov := true } } (svbR 0x014) 1)) ∧
    (v.recov = true → Answers .canRecoveryDone s (fun t => t.svb = { v with busOff := false, recov := false, tec := 0, recErr := 0 } ∧ (∀ i : Fin 8, rf t (svbR (0x100 + 0x50 * i)) 23 16 = 0) ∧ reg t (svbR 0x014) = 0)) ∧
    (on → (f.fdf = false ∨ rb s (svbR 0) 30 = true) →
      (v.fifo.length < 64 → Answers (.canFrameRx (.valid f)) s (fun t => only (fun g => { g with fifo := g.fifo ++ [f], rxAt := some (now s), recErr := Nat.min 127 (g.recErr - 1), idleAt := gap t }) t)) ∧
      (64 ≤ v.fifo.length → Answers (.canFrameRx (.valid f)) s (fun t => t.svb.fifo = v.fifo ∧ rb t stat 2 = true ∧ rf t (svbR 0x018) 31 16 = Nat.min 65535 (rf s (svbR 0x018) 31 16 + 1)))) ∧
    (on → v.cur = none → Answers (.canFrameRx (.error b)) s (fun t => only (fun g => { g with recErr := Nat.min 255 (g.recErr + (if b then 9 else 1)), idleAt := gap t }) t)) ∧
    (reachable s (svbR 0x01C) = true → (v.rxAt ≠ some (now s) → (∀ l, v.rxLost = some l → l.1 ≠ now s) → Answers (.rxPop o w) s (only fun g => { g with fifo := g.fifo.drop 1 })) ∧
      (v.rxAt = some (now s) → v.fifo.length = 1 → Answers (.rxPop o w) s (· = s))) ∧
    (station → has8 v.rawKey k ≠ b → Answers (.keyAccept k b) s (only fun g => { g with rawKey := set8 g.rawKey k b, keyAt := kput 0 g.keyAt k (now s) })) ∧
    (station → has8 v.rawKey k = b → (has8 v.level k = b ∨ now s < kget 0 v.keyAt k + keyDeb s) → Answers (.keyAccept k b) s (· = s)) ∧
    (station → has8 v.rawKey k = b → has8 v.level k ≠ b → kget 0 v.keyAt k + keyDeb s ≤ now s → Answers (.keyAccept k b) s (fun t => t.svb = { v with level := set8 v.level k b } ∧ rb t (svbR 0x800) (if b then k.val else 8 + k.val) = true)) ∧
    (station → touchedOf s e = false →
      (2 ≤ kget 0 v.tcnt e → th ≤ d → Answers (.touchMeasure e c) s (fun t => touchedOf t e = true ∧ kget 0 t.svb.tLt e = now s ∧ rf t tr 31 16 = c.toNat)) ∧
      ((kget 0 v.tcnt e < 2 ∨ d < th) → Answers (.touchMeasure e c) s (fun t => t.svb = { v with tcnt := kput 0 v.tcnt e (if th ≤ d then kget 0 v.tcnt e + 1 else 0) } ∧ rf t tr 31 16 = c.toNat)) ∧
      (now s < kget 0 v.bAt e + 128000000 → Answers (.touchBaselineDrift e) s (· = s)) ∧
      (kget 0 v.bAt e + 128000000 ≤ now s → Answers (.touchBaselineDrift e) s (fun t => kget 0 t.svb.base e = (if kget 0 v.base e < rf s tr 31 16 then kget 0 v.base e + 1 else if rf s tr 31 16 < kget 0 v.base e then kget 0 v.base e - 1 else kget 0 v.base e) ∧ kget 0 t.svb.bAt e = now s ∧ { t with svb := v } = s))) ∧
    (station → touchedOf s e = true → (2 ≤ kget 0 v.tclr e → 2 * d < th → Answers (.touchMeasure e c) s (fun t => touchedOf t e = false)) ∧
      (kget 0 v.tLt e + 15000000000 ≤ now s → Answers (.touchStuck e) s (fun t => touchedOf t e = false ∧ kget 0 t.svb.base e = rf s tr 31 16 ∧ rb t (svbR 0x808) (4 + e) = true))) ∧
    (station → Answers (.ledBlink e) s (fun t => t.svb.led.getLsbD e = (match rf s (svbR (0x820 + 4 * e)) 1 0 with | 0 => false | 1 => true | 2 => now s / 250000000 % 2 == 0 | _ => now s / 62500000 % 2 == 0) ∧ { t with svb := v } = s)) ∧
    (station → v.svcRaw ≠ b → Answers (.svcDetChange b) s (only fun g => { g with svcRaw := b, svcAt := now s })) ∧
    (station → v.svcRaw = b → (v.present = b ∨ now s < v.svcAt + 25000000) → Answers (.svcDetChange b) s (· = s)) ∧
    (station → v.svcRaw = b → v.present ≠ b → v.svcAt + 25000000 ≤ now s → Answers (.svcDetChange b) s (fun t => t.svb = { v with present := b } ∧ rb t (svbR 0x830) 1 = true)) ∧
    (roleOf s ≠ .station → Answers (.keyAccept k b) s (· = s) ∧ Answers (.ledBlink e) s (· = s) ∧ Answers (.svcDetChange b) s (· = s) ∧ Answers (.touchStuck e) s (· = s)))

/-- From every state in which no leg has both gate commands high and every gate command is low while a turn-off sequence runs, the step of any command, in any state of registers, queues and modes, gives a state of which the same is true. (R193, R194, R206, 07_switch_guard_and_energy_ledger.md.) -/
def Obligations.GateInterlocksAreKept : Prop :=
  ∀ s t : State, LegsApart s → TurnOffLow s → step s = .next t → LegsApart t ∧ TurnOffLow t

/-- From every state whose shared memories list rising addresses and no byte that an unlisted address reads as, the step of any command gives a state of the same form. That reset and the state right after power-on have it is part of ResetState. The form is the model’s own, of log entry 3. Readings and choices of the model that it rests on: log entry 3. (R1, 01_architecture.md Table 1-2.) -/
def Obligations.MemoryFormIsKept : Prop :=
  ∀ s t : State, MemoryOk s → step s = .next t → MemoryOk t
end

