-- ==== Sys2Proof/Laws/Bits.lean ====
section
/-! SUPPORT. Fields and bits of words: what a field reads after a field, a bit or a mask has been written. -/

namespace Sys2Proof.Machine

open Sys2Proof

theorem bitOf_eq (w : Word) (i : Nat) : bitOf w i = w.getLsbD i := by
  simp [bitOf, BitVec.getLsbD, Nat.testBit_eq_decide_div_mod_eq, beq_eq_decide]

theorem testBit_fld (w : Word) (hi lo i : Nat) : (fld w hi lo).testBit i = (decide (i < hi + 1 - lo) && w.getLsbD (lo + i)) := by
  simp [fld, BitVec.getLsbD, Nat.testBit_mod_two_pow, Nat.testBit_div_two_pow, Nat.add_comm]

/-- A mask has the bits of its field. -/
theorem getLsbD_maskOf (hi lo i : Nat) : (maskOf hi lo).getLsbD i = (decide (i < 32) && decide (lo ≤ i) && decide (i ≤ hi)) := by
  unfold maskOf
  rw [BitVec.getLsbD_ofNat]
  by_cases h : lo ≤ hi + 1
  · have e : 2 ^ (hi + 1) - 2 ^ lo = 2 ^ (hi + 1) - ((2 ^ lo - 1) + 1) := by
      have := Nat.one_le_two_pow (n := lo); omega
    have l : 2 ^ lo - 1 < 2 ^ (hi + 1) := by
      have := Nat.pow_le_pow_right (n := 2) (by omega) h
      have := Nat.one_le_two_pow (n := lo); omega
    rw [e, Nat.testBit_two_pow_sub_succ l, Nat.testBit_two_pow_sub_one]
    rw [show decide (lo ≤ i) = !decide (i < lo) by by_cases i < lo <;> simp_all,
      show decide (i ≤ hi) = decide (i < hi + 1) by simp, Bool.and_assoc, Bool.and_comm (!decide (i < lo))]
  · have z : 2 ^ (hi + 1) - 2 ^ lo = 0 := by
      have := Nat.pow_le_pow_right (n := 2) (by omega) (show hi + 1 ≤ lo by omega); omega
    rw [z]; simp; omega

/-- A word with a field written: the field's bits are the number's, the others stand. -/
theorem getLsbD_setFld (w : Word) (hi lo v i : Nat) :
    (setFld w hi lo v).getLsbD i = if i < 32 ∧ lo ≤ i ∧ i ≤ hi then v.testBit (i - lo) else w.getLsbD i := by
  unfold setFld
  rw [BitVec.getLsbD_or, BitVec.getLsbD_and, BitVec.getLsbD_and, BitVec.getLsbD_not, getLsbD_maskOf, BitVec.getLsbD_ofNat]
  by_cases h : i < 32
  · by_cases a : lo ≤ i <;> by_cases b : i ≤ hi <;> simp [h, a, b, Nat.testBit_mul_two_pow]
  · have : w.getLsbD i = false := BitVec.getLsbD_of_ge w i (by omega)
    simp [h, this]

/-- The field written reads as the number, where it fits. -/
theorem fld_setFld_same (w : Word) (hi lo v : Nat) (h : hi < 32) (hv : v < 2 ^ (hi + 1 - lo)) : fld (setFld w hi lo v) hi lo = v := by
  apply Nat.eq_of_testBit_eq
  intro i
  rw [testBit_fld, getLsbD_setFld]
  by_cases c : i < hi + 1 - lo
  · have : lo + i < 32 ∧ lo ≤ lo + i ∧ lo + i ≤ hi := by omega
    simp [c, this]
  · have : v.testBit i = false := Nat.testBit_lt_two_pow (Nat.lt_of_lt_of_le hv (Nat.pow_le_pow_right (by omega) (by omega)))
    simp [c, this]

/-- A field apart from the one written stands. -/
theorem fld_setFld_other (w : Word) (hi lo v a b : Nat) (h : a < lo ∨ hi < b) : fld (setFld w hi lo v) a b = fld w a b := by
  apply Nat.eq_of_testBit_eq
  intro i
  rw [testBit_fld, testBit_fld, getLsbD_setFld]
  by_cases c : i < a + 1 - b
  · have : ¬ (b + i < 32 ∧ lo ≤ b + i ∧ b + i ≤ hi) := by omega
    simp [this]
  · simp [c]

theorem bitOf_setFld_other (w : Word) (hi lo v i : Nat) (h : i < lo ∨ hi < i) : bitOf (setFld w hi lo v) i = bitOf w i := by
  rw [bitOf_eq, bitOf_eq, getLsbD_setFld, if_neg (by omega)]

theorem getLsbD_pow (i j : Nat) : (BitVec.ofNat 32 (2 ^ i)).getLsbD j = (decide (j < 32) && decide (i = j)) := by
  rw [BitVec.getLsbD_ofNat, Nat.testBit_two_pow]

theorem bitOf_setBit (w : Word) (i j : Nat) (b : Bool) (h : j < 32) : bitOf (setBit w i b) j = if j = i then b else bitOf w j := by
  rw [bitOf_eq, bitOf_eq]
  unfold setBit
  cases b
  · rw [if_neg (by simp), BitVec.getLsbD_and, BitVec.getLsbD_not, getLsbD_pow]
    by_cases e : j = i
    · subst e; simp [h]
    · have e' : ¬ i = j := fun x => e x.symm
      simp only [h, e, e', decide_true, decide_false, Bool.and_false, Bool.not_false, Bool.and_true, if_false]
  · rw [if_pos rfl, BitVec.getLsbD_or, getLsbD_pow]
    by_cases e : j = i
    · subst e; simp [h]
    · have e' : ¬ i = j := fun x => e x.symm
      simp only [e, e', decide_false, Bool.and_false, Bool.or_false, if_false]

theorem fld_setBit_other (w : Word) (i : Nat) (b : Bool) (hi lo : Nat) (h : i < lo ∨ hi < i) : fld (setBit w i b) hi lo = fld w hi lo := by
  apply Nat.eq_of_testBit_eq
  intro k
  rw [testBit_fld, testBit_fld, ← bitOf_eq, ← bitOf_eq]
  by_cases c : k < hi + 1 - lo
  · by_cases l : lo + k < 32
    · rw [bitOf_setBit _ _ _ _ l, if_neg (by omega)]
    · rw [bitOf_eq, bitOf_eq, BitVec.getLsbD_of_ge _ _ (by omega), BitVec.getLsbD_of_ge _ _ (by omega)]
  · simp [c]

/-- A field of a word is below its size. -/
theorem fld_lt (w : Word) (hi lo : Nat) : fld w hi lo < 2 ^ (hi + 1 - lo) := Nat.mod_lt _ (Nat.two_pow_pos _)

end Sys2Proof.Machine
end

