-- ==== Sys2Proof/Laws/Maps.lean ====
section
/-! SUPPORT. Laws of the sparse maps: what a read gives after a write, and that every write keeps the canonical form. -/

namespace Sys2Proof.Machine

open Sys2Proof

variable {α : Type}

theorem kget_kdel_same (d : α) (m : KV α) (k : Nat) : kget d (kdel m k) k = d := by
  induction m with
  | nil => rfl
  | cons e m ih => obtain ⟨k', v⟩ := e; by_cases h : k' = k <;> simp [kdel, kget, h, ih]

theorem kget_kdel_other (d : α) (m : KV α) (k j : Nat) (h : j ≠ k) : kget d (kdel m k) j = kget d m j := by
  induction m with
  | nil => rfl
  | cons e m ih =>
    obtain ⟨k', v⟩ := e
    by_cases hk : k' = k
    · have hj : ¬ k = j := fun x => h x.symm
      simp [kdel, kget, hk, hj, ih]
    · simp [kdel, kget, hk, ih]

theorem kget_kins_same (d : α) (m : KV α) (k : Nat) (v : α) : kget d (kins m k v) k = v := by
  induction m with
  | nil => simp [kins, kget]
  | cons e m ih =>
    obtain ⟨k', v'⟩ := e
    unfold kins
    split
    · rename_i hlt
      simp [kget, Nat.ne_of_lt hlt, ih]
    · split <;> simp [kget]

theorem kget_kins_other (d : α) (m : KV α) (k j : Nat) (v : α) (h : j ≠ k) : kget d (kins m k v) j = kget d m j := by
  have hj : ¬ k = j := fun x => h x.symm
  induction m with
  | nil => simp [kins, kget, hj]
  | cons e m ih =>
    obtain ⟨k', v'⟩ := e
    unfold kins
    split
    · simp [kget, ih]
    · split
      · rename_i hk
        subst hk
        simp [kget, hj]
      · simp [kget, hj]

variable [DecidableEq α]

@[simp] theorem kget_kput_same (d : α) (m : KV α) (k : Nat) (v : α) : kget d (kput d m k v) k = v := by
  unfold kput
  split
  · rename_i h
    rw [kget_kdel_same, h]
  · exact kget_kins_same d m k v

theorem kget_kput_other (d : α) (m : KV α) (k j : Nat) (v : α) (h : j ≠ k) : kget d (kput d m k v) j = kget d m j := by
  unfold kput
  split
  · exact kget_kdel_other d m k j h
  · exact kget_kins_other d m k j v h

/-- A read after a write that may be at another key. -/
theorem kget_kput (d : α) (m : KV α) (k j : Nat) (v : α) : kget d (kput d m k v) j = if j = k then v else kget d m j := by
  split
  · rename_i h
    rw [h, kget_kput_same]
  · rename_i h
    exact kget_kput_other d m k j v h

/-- A default that depends on the key: a write reads back. -/
theorem kget_kput_at (f : Nat → α) (m : KV α) (k j : Nat) (v : α) :
    kget (f j) (kput (f k) m k v) j = if j = k then v else kget (f j) m j := by
  split
  · rename_i h
    rw [h, kget_kput_same]
  · rename_i h
    unfold kput
    split
    · exact kget_kdel_other (f j) m k j h
    · exact kget_kins_other (f j) m k j v h

omit [DecidableEq α] in
theorem kvAbove_mono {lo lo' : Nat} (m : KV α) (h : lo' ≤ lo) (w : kvAbove lo m = true) : kvAbove lo' m = true := by
  cases m with
  | nil => rfl
  | cons e m =>
    obtain ⟨k, v⟩ := e
    simp only [kvAbove, Bool.and_eq_true, decide_eq_true_eq] at w ⊢
    exact ⟨le_trans h w.1, w.2⟩

omit [DecidableEq α] in
theorem kvAbove_kdel (m : KV α) (lo k : Nat) (w : kvAbove lo m = true) : kvAbove lo (kdel m k) = true := by
  induction m generalizing lo with
  | nil => rfl
  | cons e m ih =>
    obtain ⟨k', v⟩ := e
    simp only [kvAbove, Bool.and_eq_true, decide_eq_true_eq] at w
    unfold kdel
    split
    · exact kvAbove_mono _ (Nat.le_succ_of_le w.1) (ih _ w.2)
    · simp only [kvAbove, Bool.and_eq_true, decide_eq_true_eq]
      exact ⟨w.1, ih _ w.2⟩

omit [DecidableEq α] in
theorem kvAbove_kins (m : KV α) (lo k : Nat) (v : α) (w : kvAbove lo m = true) (h : lo ≤ k) : kvAbove lo (kins m k v) = true := by
  induction m generalizing lo with
  | nil => simp [kins, kvAbove, h]
  | cons e m ih =>
    obtain ⟨k', v'⟩ := e
    simp only [kvAbove, Bool.and_eq_true, decide_eq_true_eq] at w
    unfold kins
    split
    · rename_i hlt
      simp only [kvAbove, Bool.and_eq_true, decide_eq_true_eq]
      exact ⟨w.1, ih _ w.2 hlt⟩
    · split
      · rename_i hk
        subst hk
        simp only [kvAbove, Bool.and_eq_true, decide_eq_true_eq]
        exact ⟨w.1, w.2⟩
      · rename_i h1 h2
        simp only [kvAbove, Bool.and_eq_true, decide_eq_true_eq]
        exact ⟨h, by omega, w.2⟩

omit [DecidableEq α] in
theorem mem_kdel {m : KV α} {k : Nat} {e : Nat × α} (h : e ∈ kdel m k) : e ∈ m := by
  induction m with
  | nil => exact h
  | cons a m ih =>
    obtain ⟨k', v'⟩ := a
    unfold kdel at h
    split at h
    · exact List.mem_cons_of_mem _ (ih h)
    · rcases List.mem_cons.mp h with rfl | h
      · exact List.mem_cons_self ..
      · exact List.mem_cons_of_mem _ (ih h)

omit [DecidableEq α] in
theorem mem_kins {m : KV α} {k : Nat} {v : α} {e : Nat × α} (h : e ∈ kins m k v) : e = (k, v) ∨ e ∈ m := by
  induction m with
  | nil => simpa [kins] using h
  | cons a m ih =>
    obtain ⟨k', v'⟩ := a
    unfold kins at h
    split at h
    · rcases List.mem_cons.mp h with rfl | h
      · exact Or.inr (List.mem_cons_self ..)
      · rcases ih h with h | h
        · exact Or.inl h
        · exact Or.inr (List.mem_cons_of_mem _ h)
    · split at h
      · rcases List.mem_cons.mp h with rfl | h
        · exact Or.inl rfl
        · exact Or.inr (List.mem_cons_of_mem _ h)
      · rcases List.mem_cons.mp h with rfl | h
        · exact Or.inl rfl
        · exact Or.inr h

/-- Every write keeps the canonical form. -/
theorem kvWf_kput (f : Nat → α) (m : KV α) (k : Nat) (v : α) (w : kvWf f m = true) : kvWf f (kput (f k) m k v) = true := by
  unfold kvWf at *
  simp only [Bool.and_eq_true, List.all_eq_true, decide_eq_true_eq] at w ⊢
  unfold kput
  split
  · exact ⟨kvAbove_kdel _ _ _ w.1, fun e h => w.2 e (mem_kdel h)⟩
  · rename_i hv
    refine ⟨kvAbove_kins _ _ _ _ w.1 (Nat.zero_le _), fun e h => ?_⟩
    rcases mem_kins h with rfl | h
    · exact hv
    · exact w.2 e h

theorem bytePut_wf (m : List Host.Cell) (a : Nat) (b : Byte) (w : Memory.wf m = true) : Memory.wf (bytePut m a b) = true :=
  kvWf_kput memDefault m a b w

theorem bytesPut_wf (l : List Byte) : ∀ (m : List Host.Cell) (a : Nat), Memory.wf m = true → Memory.wf (bytesPut m a l) = true := by
  induction l with
  | nil => exact fun _ _ w => w
  | cons b l ih => exact fun m a w => ih _ _ (bytePut_wf m a b w)

omit [DecidableEq α] in
theorem kvAbove_filter (p : Nat × α → Bool) (m : KV α) (lo : Nat) (w : kvAbove lo m = true) : kvAbove lo (m.filter p) = true := by
  induction m generalizing lo with
  | nil => rfl
  | cons e m ih =>
    obtain ⟨k, v⟩ := e
    simp only [kvAbove, Bool.and_eq_true, decide_eq_true_eq] at w
    rw [List.filter_cons]
    split
    · simp only [kvAbove, Bool.and_eq_true, decide_eq_true_eq]
      exact ⟨w.1, ih _ w.2⟩
    · exact kvAbove_mono _ (Nat.le_succ_of_le w.1) (ih _ w.2)

theorem kvWf_filter (f : Nat → α) (p : Nat × α → Bool) (m : KV α) (w : kvWf f m = true) : kvWf f (m.filter p) = true := by
  unfold kvWf at *
  simp only [Bool.and_eq_true, List.all_eq_true] at w ⊢
  exact ⟨kvAbove_filter p m 0 w.1, fun e h => w.2 e (List.mem_filter.mp h).1⟩

/-- The byte read after a write of one byte. -/
theorem byte_bytePut (m : List Host.Cell) (a x : Nat) (b : Byte) :
    kget (memDefault x) (bytePut m a b) x = if x = a then b else kget (memDefault x) m x :=
  kget_kput_at memDefault m a x b

/-- A write of bytes leaves every byte outside its range. -/
theorem byte_bytesPut_other (l : List Byte) :
    ∀ (m : List Host.Cell) (a x : Nat), (x < a ∨ a + l.length ≤ x) → kget (memDefault x) (bytesPut m a l) x = kget (memDefault x) m x := by
  induction l with
  | nil => exact fun _ _ _ _ => rfl
  | cons b l ih =>
    intro m a x h
    have hx : x < a + 1 ∨ a + 1 + l.length ≤ x := by
      rcases h with h | h
      · exact Or.inl (by omega)
      · exact Or.inr (by simp only [List.length_cons] at h; omega)
    have hne : x ≠ a := by
      rcases h with h | h
      · omega
      · simp only [List.length_cons] at h; omega
    rw [bytesPut, ih _ _ _ hx, byte_bytePut, if_neg hne]

end Sys2Proof.Machine
end

