-- ==== Sys2Proof/Laws/State.lean ====
section
/-! SUPPORT. What each update of a part of the state leaves: one lemma per field per update, and what the readers
of the state give after it. -/

namespace Sys2Proof.Machine

open Sys2Proof

@[simp] theorem modSys_lt (s : State) (f : Sys → Sys) : (modSys s f).lt = s.lt := rfl
@[simp] theorem modSys_regs (s : State) (f : Sys → Sys) : (modSys s f).regs = s.regs := rfl
@[simp] theorem modSys_mem (s : State) (f : Sys → Sys) : (modSys s f).mem = s.mem := rfl
@[simp] theorem modSys_ports (s : State) (f : Sys → Sys) : (modSys s f).ports = s.ports := rfl
@[simp] theorem modSys_eye (s : State) (f : Sys → Sys) : (modSys s f).eye = s.eye := rfl
@[simp] theorem modSys_cores (s : State) (f : Sys → Sys) : (modSys s f).cores = s.cores := rfl
@[simp] theorem modSys_tmk (s : State) (f : Sys → Sys) : (modSys s f).tmk = s.tmk := rfl
@[simp] theorem modSys_trr (s : State) (f : Sys → Sys) : (modSys s f).trr = s.trr := rfl
@[simp] theorem modSys_rdl (s : State) (f : Sys → Sys) : (modSys s f).rdl = s.rdl := rfl
@[simp] theorem modSys_swg (s : State) (f : Sys → Sys) : (modSys s f).swg = s.swg := rfl
@[simp] theorem modSys_sup (s : State) (f : Sys → Sys) : (modSys s f).sup = s.sup := rfl
@[simp] theorem modSys_sns (s : State) (f : Sys → Sys) : (modSys s f).sns = s.sns := rfl
@[simp] theorem modSys_lpe (s : State) (f : Sys → Sys) : (modSys s f).lpe = s.lpe := rfl
@[simp] theorem modSys_stp (s : State) (f : Sys → Sys) : (modSys s f).stp = s.stp := rfl
@[simp] theorem modSys_cap (s : State) (f : Sys → Sys) : (modSys s f).cap = s.cap := rfl
@[simp] theorem modSys_flt (s : State) (f : Sys → Sys) : (modSys s f).flt = s.flt := rfl
@[simp] theorem modSys_saf (s : State) (f : Sys → Sys) : (modSys s f).saf = s.saf := rfl
@[simp] theorem modSys_nv (s : State) (f : Sys → Sys) : (modSys s f).nv = s.nv := rfl
@[simp] theorem modSys_svb (s : State) (f : Sys → Sys) : (modSys s f).svb = s.svb := rfl
@[simp] theorem modSys_hwSet (s : State) (f : Sys → Sys) : (modSys s f).hwSet = s.hwSet := rfl
@[simp] theorem modSys_swSet (s : State) (f : Sys → Sys) : (modSys s f).swSet = s.swSet := rfl
@[simp] theorem modSys_rdata (s : State) (f : Sys → Sys) : (modSys s f).rdata = s.rdata := rfl
@[simp] theorem modSys_sent (s : State) (f : Sys → Sys) : (modSys s f).sent = s.sent := rfl
@[simp] theorem modSys_free (s : State) (f : Sys → Sys) : (modSys s f).free = s.free := rfl
@[simp] theorem modSys_pending (s : State) (f : Sys → Sys) : (modSys s f).pending = s.pending := rfl
@[simp] theorem modSys_sys (s : State) (f : Sys → Sys) : (modSys s f).sys = f s.sys := rfl

@[simp] theorem modTmk_lt (s : State) (f : Tmk → Tmk) : (modTmk s f).lt = s.lt := rfl
@[simp] theorem modTmk_regs (s : State) (f : Tmk → Tmk) : (modTmk s f).regs = s.regs := rfl
@[simp] theorem modTmk_mem (s : State) (f : Tmk → Tmk) : (modTmk s f).mem = s.mem := rfl
@[simp] theorem modTmk_ports (s : State) (f : Tmk → Tmk) : (modTmk s f).ports = s.ports := rfl
@[simp] theorem modTmk_eye (s : State) (f : Tmk → Tmk) : (modTmk s f).eye = s.eye := rfl
@[simp] theorem modTmk_cores (s : State) (f : Tmk → Tmk) : (modTmk s f).cores = s.cores := rfl
@[simp] theorem modTmk_sys (s : State) (f : Tmk → Tmk) : (modTmk s f).sys = s.sys := rfl
@[simp] theorem modTmk_trr (s : State) (f : Tmk → Tmk) : (modTmk s f).trr = s.trr := rfl
@[simp] theorem modTmk_rdl (s : State) (f : Tmk → Tmk) : (modTmk s f).rdl = s.rdl := rfl
@[simp] theorem modTmk_swg (s : State) (f : Tmk → Tmk) : (modTmk s f).swg = s.swg := rfl
@[simp] theorem modTmk_sup (s : State) (f : Tmk → Tmk) : (modTmk s f).sup = s.sup := rfl
@[simp] theorem modTmk_sns (s : State) (f : Tmk → Tmk) : (modTmk s f).sns = s.sns := rfl
@[simp] theorem modTmk_lpe (s : State) (f : Tmk → Tmk) : (modTmk s f).lpe = s.lpe := rfl
@[simp] theorem modTmk_stp (s : State) (f : Tmk → Tmk) : (modTmk s f).stp = s.stp := rfl
@[simp] theorem modTmk_cap (s : State) (f : Tmk → Tmk) : (modTmk s f).cap = s.cap := rfl
@[simp] theorem modTmk_flt (s : State) (f : Tmk → Tmk) : (modTmk s f).flt = s.flt := rfl
@[simp] theorem modTmk_saf (s : State) (f : Tmk → Tmk) : (modTmk s f).saf = s.saf := rfl
@[simp] theorem modTmk_nv (s : State) (f : Tmk → Tmk) : (modTmk s f).nv = s.nv := rfl
@[simp] theorem modTmk_svb (s : State) (f : Tmk → Tmk) : (modTmk s f).svb = s.svb := rfl
@[simp] theorem modTmk_hwSet (s : State) (f : Tmk → Tmk) : (modTmk s f).hwSet = s.hwSet := rfl
@[simp] theorem modTmk_swSet (s : State) (f : Tmk → Tmk) : (modTmk s f).swSet = s.swSet := rfl
@[simp] theorem modTmk_rdata (s : State) (f : Tmk → Tmk) : (modTmk s f).rdata = s.rdata := rfl
@[simp] theorem modTmk_sent (s : State) (f : Tmk → Tmk) : (modTmk s f).sent = s.sent := rfl
@[simp] theorem modTmk_free (s : State) (f : Tmk → Tmk) : (modTmk s f).free = s.free := rfl
@[simp] theorem modTmk_pending (s : State) (f : Tmk → Tmk) : (modTmk s f).pending = s.pending := rfl
@[simp] theorem modTmk_tmk (s : State) (f : Tmk → Tmk) : (modTmk s f).tmk = f s.tmk := rfl

@[simp] theorem modTrr_lt (s : State) (f : Trr → Trr) : (modTrr s f).lt = s.lt := rfl
@[simp] theorem modTrr_regs (s : State) (f : Trr → Trr) : (modTrr s f).regs = s.regs := rfl
@[simp] theorem modTrr_mem (s : State) (f : Trr → Trr) : (modTrr s f).mem = s.mem := rfl
@[simp] theorem modTrr_ports (s : State) (f : Trr → Trr) : (modTrr s f).ports = s.ports := rfl
@[simp] theorem modTrr_eye (s : State) (f : Trr → Trr) : (modTrr s f).eye = s.eye := rfl
@[simp] theorem modTrr_cores (s : State) (f : Trr → Trr) : (modTrr s f).cores = s.cores := rfl
@[simp] theorem modTrr_sys (s : State) (f : Trr → Trr) : (modTrr s f).sys = s.sys := rfl
@[simp] theorem modTrr_tmk (s : State) (f : Trr → Trr) : (modTrr s f).tmk = s.tmk := rfl
@[simp] theorem modTrr_rdl (s : State) (f : Trr → Trr) : (modTrr s f).rdl = s.rdl := rfl
@[simp] theorem modTrr_swg (s : State) (f : Trr → Trr) : (modTrr s f).swg = s.swg := rfl
@[simp] theorem modTrr_sup (s : State) (f : Trr → Trr) : (modTrr s f).sup = s.sup := rfl
@[simp] theorem modTrr_sns (s : State) (f : Trr → Trr) : (modTrr s f).sns = s.sns := rfl
@[simp] theorem modTrr_lpe (s : State) (f : Trr → Trr) : (modTrr s f).lpe = s.lpe := rfl
@[simp] theorem modTrr_stp (s : State) (f : Trr → Trr) : (modTrr s f).stp = s.stp := rfl
@[simp] theorem modTrr_cap (s : State) (f : Trr → Trr) : (modTrr s f).cap = s.cap := rfl
@[simp] theorem modTrr_flt (s : State) (f : Trr → Trr) : (modTrr s f).flt = s.flt := rfl
@[simp] theorem modTrr_saf (s : State) (f : Trr → Trr) : (modTrr s f).saf = s.saf := rfl
@[simp] theorem modTrr_nv (s : State) (f : Trr → Trr) : (modTrr s f).nv = s.nv := rfl
@[simp] theorem modTrr_svb (s : State) (f : Trr → Trr) : (modTrr s f).svb = s.svb := rfl
@[simp] theorem modTrr_hwSet (s : State) (f : Trr → Trr) : (modTrr s f).hwSet = s.hwSet := rfl
@[simp] theorem modTrr_swSet (s : State) (f : Trr → Trr) : (modTrr s f).swSet = s.swSet := rfl
@[simp] theorem modTrr_rdata (s : State) (f : Trr → Trr) : (modTrr s f).rdata = s.rdata := rfl
@[simp] theorem modTrr_sent (s : State) (f : Trr → Trr) : (modTrr s f).sent = s.sent := rfl
@[simp] theorem modTrr_free (s : State) (f : Trr → Trr) : (modTrr s f).free = s.free := rfl
@[simp] theorem modTrr_pending (s : State) (f : Trr → Trr) : (modTrr s f).pending = s.pending := rfl
@[simp] theorem modTrr_trr (s : State) (f : Trr → Trr) : (modTrr s f).trr = f s.trr := rfl

@[simp] theorem modRdl_lt (s : State) (f : Rdl → Rdl) : (modRdl s f).lt = s.lt := rfl
@[simp] theorem modRdl_regs (s : State) (f : Rdl → Rdl) : (modRdl s f).regs = s.regs := rfl
@[simp] theorem modRdl_mem (s : State) (f : Rdl → Rdl) : (modRdl s f).mem = s.mem := rfl
@[simp] theorem modRdl_ports (s : State) (f : Rdl → Rdl) : (modRdl s f).ports = s.ports := rfl
@[simp] theorem modRdl_eye (s : State) (f : Rdl → Rdl) : (modRdl s f).eye = s.eye := rfl
@[simp] theorem modRdl_cores (s : State) (f : Rdl → Rdl) : (modRdl s f).cores = s.cores := rfl
@[simp] theorem modRdl_sys (s : State) (f : Rdl → Rdl) : (modRdl s f).sys = s.sys := rfl
@[simp] theorem modRdl_tmk (s : State) (f : Rdl → Rdl) : (modRdl s f).tmk = s.tmk := rfl
@[simp] theorem modRdl_trr (s : State) (f : Rdl → Rdl) : (modRdl s f).trr = s.trr := rfl
@[simp] theorem modRdl_swg (s : State) (f : Rdl → Rdl) : (modRdl s f).swg = s.swg := rfl
@[simp] theorem modRdl_sup (s : State) (f : Rdl → Rdl) : (modRdl s f).sup = s.sup := rfl
@[simp] theorem modRdl_sns (s : State) (f : Rdl → Rdl) : (modRdl s f).sns = s.sns := rfl
@[simp] theorem modRdl_lpe (s : State) (f : Rdl → Rdl) : (modRdl s f).lpe = s.lpe := rfl
@[simp] theorem modRdl_stp (s : State) (f : Rdl → Rdl) : (modRdl s f).stp = s.stp := rfl
@[simp] theorem modRdl_cap (s : State) (f : Rdl → Rdl) : (modRdl s f).cap = s.cap := rfl
@[simp] theorem modRdl_flt (s : State) (f : Rdl → Rdl) : (modRdl s f).flt = s.flt := rfl
@[simp] theorem modRdl_saf (s : State) (f : Rdl → Rdl) : (modRdl s f).saf = s.saf := rfl
@[simp] theorem modRdl_nv (s : State) (f : Rdl → Rdl) : (modRdl s f).nv = s.nv := rfl
@[simp] theorem modRdl_svb (s : State) (f : Rdl → Rdl) : (modRdl s f).svb = s.svb := rfl
@[simp] theorem modRdl_hwSet (s : State) (f : Rdl → Rdl) : (modRdl s f).hwSet = s.hwSet := rfl
@[simp] theorem modRdl_swSet (s : State) (f : Rdl → Rdl) : (modRdl s f).swSet = s.swSet := rfl
@[simp] theorem modRdl_rdata (s : State) (f : Rdl → Rdl) : (modRdl s f).rdata = s.rdata := rfl
@[simp] theorem modRdl_sent (s : State) (f : Rdl → Rdl) : (modRdl s f).sent = s.sent := rfl
@[simp] theorem modRdl_free (s : State) (f : Rdl → Rdl) : (modRdl s f).free = s.free := rfl
@[simp] theorem modRdl_pending (s : State) (f : Rdl → Rdl) : (modRdl s f).pending = s.pending := rfl
@[simp] theorem modRdl_rdl (s : State) (f : Rdl → Rdl) : (modRdl s f).rdl = f s.rdl := rfl

@[simp] theorem modSwg_lt (s : State) (f : Swg → Swg) : (modSwg s f).lt = s.lt := rfl
@[simp] theorem modSwg_regs (s : State) (f : Swg → Swg) : (modSwg s f).regs = s.regs := rfl
@[simp] theorem modSwg_mem (s : State) (f : Swg → Swg) : (modSwg s f).mem = s.mem := rfl
@[simp] theorem modSwg_ports (s : State) (f : Swg → Swg) : (modSwg s f).ports = s.ports := rfl
@[simp] theorem modSwg_eye (s : State) (f : Swg → Swg) : (modSwg s f).eye = s.eye := rfl
@[simp] theorem modSwg_cores (s : State) (f : Swg → Swg) : (modSwg s f).cores = s.cores := rfl
@[simp] theorem modSwg_sys (s : State) (f : Swg → Swg) : (modSwg s f).sys = s.sys := rfl
@[simp] theorem modSwg_tmk (s : State) (f : Swg → Swg) : (modSwg s f).tmk = s.tmk := rfl
@[simp] theorem modSwg_trr (s : State) (f : Swg → Swg) : (modSwg s f).trr = s.trr := rfl
@[simp] theorem modSwg_rdl (s : State) (f : Swg → Swg) : (modSwg s f).rdl = s.rdl := rfl
@[simp] theorem modSwg_sup (s : State) (f : Swg → Swg) : (modSwg s f).sup = s.sup := rfl
@[simp] theorem modSwg_sns (s : State) (f : Swg → Swg) : (modSwg s f).sns = s.sns := rfl
@[simp] theorem modSwg_lpe (s : State) (f : Swg → Swg) : (modSwg s f).lpe = s.lpe := rfl
@[simp] theorem modSwg_stp (s : State) (f : Swg → Swg) : (modSwg s f).stp = s.stp := rfl
@[simp] theorem modSwg_cap (s : State) (f : Swg → Swg) : (modSwg s f).cap = s.cap := rfl
@[simp] theorem modSwg_flt (s : State) (f : Swg → Swg) : (modSwg s f).flt = s.flt := rfl
@[simp] theorem modSwg_saf (s : State) (f : Swg → Swg) : (modSwg s f).saf = s.saf := rfl
@[simp] theorem modSwg_nv (s : State) (f : Swg → Swg) : (modSwg s f).nv = s.nv := rfl
@[simp] theorem modSwg_svb (s : State) (f : Swg → Swg) : (modSwg s f).svb = s.svb := rfl
@[simp] theorem modSwg_hwSet (s : State) (f : Swg → Swg) : (modSwg s f).hwSet = s.hwSet := rfl
@[simp] theorem modSwg_swSet (s : State) (f : Swg → Swg) : (modSwg s f).swSet = s.swSet := rfl
@[simp] theorem modSwg_rdata (s : State) (f : Swg → Swg) : (modSwg s f).rdata = s.rdata := rfl
@[simp] theorem modSwg_sent (s : State) (f : Swg → Swg) : (modSwg s f).sent = s.sent := rfl
@[simp] theorem modSwg_free (s : State) (f : Swg → Swg) : (modSwg s f).free = s.free := rfl
@[simp] theorem modSwg_pending (s : State) (f : Swg → Swg) : (modSwg s f).pending = s.pending := rfl
@[simp] theorem modSwg_swg (s : State) (f : Swg → Swg) : (modSwg s f).swg = f s.swg := rfl

@[simp] theorem modSup_lt (s : State) (f : Sup → Sup) : (modSup s f).lt = s.lt := rfl
@[simp] theorem modSup_regs (s : State) (f : Sup → Sup) : (modSup s f).regs = s.regs := rfl
@[simp] theorem modSup_mem (s : State) (f : Sup → Sup) : (modSup s f).mem = s.mem := rfl
@[simp] theorem modSup_ports (s : State) (f : Sup → Sup) : (modSup s f).ports = s.ports := rfl
@[simp] theorem modSup_eye (s : State) (f : Sup → Sup) : (modSup s f).eye = s.eye := rfl
@[simp] theorem modSup_cores (s : State) (f : Sup → Sup) : (modSup s f).cores = s.cores := rfl
@[simp] theorem modSup_sys (s : State) (f : Sup → Sup) : (modSup s f).sys = s.sys := rfl
@[simp] theorem modSup_tmk (s : State) (f : Sup → Sup) : (modSup s f).tmk = s.tmk := rfl
@[simp] theorem modSup_trr (s : State) (f : Sup → Sup) : (modSup s f).trr = s.trr := rfl
@[simp] theorem modSup_rdl (s : State) (f : Sup → Sup) : (modSup s f).rdl = s.rdl := rfl
@[simp] theorem modSup_swg (s : State) (f : Sup → Sup) : (modSup s f).swg = s.swg := rfl
@[simp] theorem modSup_sns (s : State) (f : Sup → Sup) : (modSup s f).sns = s.sns := rfl
@[simp] theorem modSup_lpe (s : State) (f : Sup → Sup) : (modSup s f).lpe = s.lpe := rfl
@[simp] theorem modSup_stp (s : State) (f : Sup → Sup) : (modSup s f).stp = s.stp := rfl
@[simp] theorem modSup_cap (s : State) (f : Sup → Sup) : (modSup s f).cap = s.cap := rfl
@[simp] theorem modSup_flt (s : State) (f : Sup → Sup) : (modSup s f).flt = s.flt := rfl
@[simp] theorem modSup_saf (s : State) (f : Sup → Sup) : (modSup s f).saf = s.saf := rfl
@[simp] theorem modSup_nv (s : State) (f : Sup → Sup) : (modSup s f).nv = s.nv := rfl
@[simp] theorem modSup_svb (s : State) (f : Sup → Sup) : (modSup s f).svb = s.svb := rfl
@[simp] theorem modSup_hwSet (s : State) (f : Sup → Sup) : (modSup s f).hwSet = s.hwSet := rfl
@[simp] theorem modSup_swSet (s : State) (f : Sup → Sup) : (modSup s f).swSet = s.swSet := rfl
@[simp] theorem modSup_rdata (s : State) (f : Sup → Sup) : (modSup s f).rdata = s.rdata := rfl
@[simp] theorem modSup_sent (s : State) (f : Sup → Sup) : (modSup s f).sent = s.sent := rfl
@[simp] theorem modSup_free (s : State) (f : Sup → Sup) : (modSup s f).free = s.free := rfl
@[simp] theorem modSup_pending (s : State) (f : Sup → Sup) : (modSup s f).pending = s.pending := rfl
@[simp] theorem modSup_sup (s : State) (f : Sup → Sup) : (modSup s f).sup = f s.sup := rfl

@[simp] theorem modSns_lt (s : State) (f : Sns → Sns) : (modSns s f).lt = s.lt := rfl
@[simp] theorem modSns_regs (s : State) (f : Sns → Sns) : (modSns s f).regs = s.regs := rfl
@[simp] theorem modSns_mem (s : State) (f : Sns → Sns) : (modSns s f).mem = s.mem := rfl
@[simp] theorem modSns_ports (s : State) (f : Sns → Sns) : (modSns s f).ports = s.ports := rfl
@[simp] theorem modSns_eye (s : State) (f : Sns → Sns) : (modSns s f).eye = s.eye := rfl
@[simp] theorem modSns_cores (s : State) (f : Sns → Sns) : (modSns s f).cores = s.cores := rfl
@[simp] theorem modSns_sys (s : State) (f : Sns → Sns) : (modSns s f).sys = s.sys := rfl
@[simp] theorem modSns_tmk (s : State) (f : Sns → Sns) : (modSns s f).tmk = s.tmk := rfl
@[simp] theorem modSns_trr (s : State) (f : Sns → Sns) : (modSns s f).trr = s.trr := rfl
@[simp] theorem modSns_rdl (s : State) (f : Sns → Sns) : (modSns s f).rdl = s.rdl := rfl
@[simp] theorem modSns_swg (s : State) (f : Sns → Sns) : (modSns s f).swg = s.swg := rfl
@[simp] theorem modSns_sup (s : State) (f : Sns → Sns) : (modSns s f).sup = s.sup := rfl
@[simp] theorem modSns_lpe (s : State) (f : Sns → Sns) : (modSns s f).lpe = s.lpe := rfl
@[simp] theorem modSns_stp (s : State) (f : Sns → Sns) : (modSns s f).stp = s.stp := rfl
@[simp] theorem modSns_cap (s : State) (f : Sns → Sns) : (modSns s f).cap = s.cap := rfl
@[simp] theorem modSns_flt (s : State) (f : Sns → Sns) : (modSns s f).flt = s.flt := rfl
@[simp] theorem modSns_saf (s : State) (f : Sns → Sns) : (modSns s f).saf = s.saf := rfl
@[simp] theorem modSns_nv (s : State) (f : Sns → Sns) : (modSns s f).nv = s.nv := rfl
@[simp] theorem modSns_svb (s : State) (f : Sns → Sns) : (modSns s f).svb = s.svb := rfl
@[simp] theorem modSns_hwSet (s : State) (f : Sns → Sns) : (modSns s f).hwSet = s.hwSet := rfl
@[simp] theorem modSns_swSet (s : State) (f : Sns → Sns) : (modSns s f).swSet = s.swSet := rfl
@[simp] theorem modSns_rdata (s : State) (f : Sns → Sns) : (modSns s f).rdata = s.rdata := rfl
@[simp] theorem modSns_sent (s : State) (f : Sns → Sns) : (modSns s f).sent = s.sent := rfl
@[simp] theorem modSns_free (s : State) (f : Sns → Sns) : (modSns s f).free = s.free := rfl
@[simp] theorem modSns_pending (s : State) (f : Sns → Sns) : (modSns s f).pending = s.pending := rfl
@[simp] theorem modSns_sns (s : State) (f : Sns → Sns) : (modSns s f).sns = f s.sns := rfl

@[simp] theorem modLpe_lt (s : State) (f : Lpe → Lpe) : (modLpe s f).lt = s.lt := rfl
@[simp] theorem modLpe_regs (s : State) (f : Lpe → Lpe) : (modLpe s f).regs = s.regs := rfl
@[simp] theorem modLpe_mem (s : State) (f : Lpe → Lpe) : (modLpe s f).mem = s.mem := rfl
@[simp] theorem modLpe_ports (s : State) (f : Lpe → Lpe) : (modLpe s f).ports = s.ports := rfl
@[simp] theorem modLpe_eye (s : State) (f : Lpe → Lpe) : (modLpe s f).eye = s.eye := rfl
@[simp] theorem modLpe_cores (s : State) (f : Lpe → Lpe) : (modLpe s f).cores = s.cores := rfl
@[simp] theorem modLpe_sys (s : State) (f : Lpe → Lpe) : (modLpe s f).sys = s.sys := rfl
@[simp] theorem modLpe_tmk (s : State) (f : Lpe → Lpe) : (modLpe s f).tmk = s.tmk := rfl
@[simp] theorem modLpe_trr (s : State) (f : Lpe → Lpe) : (modLpe s f).trr = s.trr := rfl
@[simp] theorem modLpe_rdl (s : State) (f : Lpe → Lpe) : (modLpe s f).rdl = s.rdl := rfl
@[simp] theorem modLpe_swg (s : State) (f : Lpe → Lpe) : (modLpe s f).swg = s.swg := rfl
@[simp] theorem modLpe_sup (s : State) (f : Lpe → Lpe) : (modLpe s f).sup = s.sup := rfl
@[simp] theorem modLpe_sns (s : State) (f : Lpe → Lpe) : (modLpe s f).sns = s.sns := rfl
@[simp] theorem modLpe_stp (s : State) (f : Lpe → Lpe) : (modLpe s f).stp = s.stp := rfl
@[simp] theorem modLpe_cap (s : State) (f : Lpe → Lpe) : (modLpe s f).cap = s.cap := rfl
@[simp] theorem modLpe_flt (s : State) (f : Lpe → Lpe) : (modLpe s f).flt = s.flt := rfl
@[simp] theorem modLpe_saf (s : State) (f : Lpe → Lpe) : (modLpe s f).saf = s.saf := rfl
@[simp] theorem modLpe_nv (s : State) (f : Lpe → Lpe) : (modLpe s f).nv = s.nv := rfl
@[simp] theorem modLpe_svb (s : State) (f : Lpe → Lpe) : (modLpe s f).svb = s.svb := rfl
@[simp] theorem modLpe_hwSet (s : State) (f : Lpe → Lpe) : (modLpe s f).hwSet = s.hwSet := rfl
@[simp] theorem modLpe_swSet (s : State) (f : Lpe → Lpe) : (modLpe s f).swSet = s.swSet := rfl
@[simp] theorem modLpe_rdata (s : State) (f : Lpe → Lpe) : (modLpe s f).rdata = s.rdata := rfl
@[simp] theorem modLpe_sent (s : State) (f : Lpe → Lpe) : (modLpe s f).sent = s.sent := rfl
@[simp] theorem modLpe_free (s : State) (f : Lpe → Lpe) : (modLpe s f).free = s.free := rfl
@[simp] theorem modLpe_pending (s : State) (f : Lpe → Lpe) : (modLpe s f).pending = s.pending := rfl
@[simp] theorem modLpe_lpe (s : State) (f : Lpe → Lpe) : (modLpe s f).lpe = f s.lpe := rfl

@[simp] theorem modStp_lt (s : State) (f : Stp → Stp) : (modStp s f).lt = s.lt := rfl
@[simp] theorem modStp_regs (s : State) (f : Stp → Stp) : (modStp s f).regs = s.regs := rfl
@[simp] theorem modStp_mem (s : State) (f : Stp → Stp) : (modStp s f).mem = s.mem := rfl
@[simp] theorem modStp_ports (s : State) (f : Stp → Stp) : (modStp s f).ports = s.ports := rfl
@[simp] theorem modStp_eye (s : State) (f : Stp → Stp) : (modStp s f).eye = s.eye := rfl
@[simp] theorem modStp_cores (s : State) (f : Stp → Stp) : (modStp s f).cores = s.cores := rfl
@[simp] theorem modStp_sys (s : State) (f : Stp → Stp) : (modStp s f).sys = s.sys := rfl
@[simp] theorem modStp_tmk (s : State) (f : Stp → Stp) : (modStp s f).tmk = s.tmk := rfl
@[simp] theorem modStp_trr (s : State) (f : Stp → Stp) : (modStp s f).trr = s.trr := rfl
@[simp] theorem modStp_rdl (s : State) (f : Stp → Stp) : (modStp s f).rdl = s.rdl := rfl
@[simp] theorem modStp_swg (s : State) (f : Stp → Stp) : (modStp s f).swg = s.swg := rfl
@[simp] theorem modStp_sup (s : State) (f : Stp → Stp) : (modStp s f).sup = s.sup := rfl
@[simp] theorem modStp_sns (s : State) (f : Stp → Stp) : (modStp s f).sns = s.sns := rfl
@[simp] theorem modStp_lpe (s : State) (f : Stp → Stp) : (modStp s f).lpe = s.lpe := rfl
@[simp] theorem modStp_cap (s : State) (f : Stp → Stp) : (modStp s f).cap = s.cap := rfl
@[simp] theorem modStp_flt (s : State) (f : Stp → Stp) : (modStp s f).flt = s.flt := rfl
@[simp] theorem modStp_saf (s : State) (f : Stp → Stp) : (modStp s f).saf = s.saf := rfl
@[simp] theorem modStp_nv (s : State) (f : Stp → Stp) : (modStp s f).nv = s.nv := rfl
@[simp] theorem modStp_svb (s : State) (f : Stp → Stp) : (modStp s f).svb = s.svb := rfl
@[simp] theorem modStp_hwSet (s : State) (f : Stp → Stp) : (modStp s f).hwSet = s.hwSet := rfl
@[simp] theorem modStp_swSet (s : State) (f : Stp → Stp) : (modStp s f).swSet = s.swSet := rfl
@[simp] theorem modStp_rdata (s : State) (f : Stp → Stp) : (modStp s f).rdata = s.rdata := rfl
@[simp] theorem modStp_sent (s : State) (f : Stp → Stp) : (modStp s f).sent = s.sent := rfl
@[simp] theorem modStp_free (s : State) (f : Stp → Stp) : (modStp s f).free = s.free := rfl
@[simp] theorem modStp_pending (s : State) (f : Stp → Stp) : (modStp s f).pending = s.pending := rfl
@[simp] theorem modStp_stp (s : State) (f : Stp → Stp) : (modStp s f).stp = f s.stp := rfl

@[simp] theorem modCap_lt (s : State) (f : Cap → Cap) : (modCap s f).lt = s.lt := rfl
@[simp] theorem modCap_regs (s : State) (f : Cap → Cap) : (modCap s f).regs = s.regs := rfl
@[simp] theorem modCap_mem (s : State) (f : Cap → Cap) : (modCap s f).mem = s.mem := rfl
@[simp] theorem modCap_ports (s : State) (f : Cap → Cap) : (modCap s f).ports = s.ports := rfl
@[simp] theorem modCap_eye (s : State) (f : Cap → Cap) : (modCap s f).eye = s.eye := rfl
@[simp] theorem modCap_cores (s : State) (f : Cap → Cap) : (modCap s f).cores = s.cores := rfl
@[simp] theorem modCap_sys (s : State) (f : Cap → Cap) : (modCap s f).sys = s.sys := rfl
@[simp] theorem modCap_tmk (s : State) (f : Cap → Cap) : (modCap s f).tmk = s.tmk := rfl
@[simp] theorem modCap_trr (s : State) (f : Cap → Cap) : (modCap s f).trr = s.trr := rfl
@[simp] theorem modCap_rdl (s : State) (f : Cap → Cap) : (modCap s f).rdl = s.rdl := rfl
@[simp] theorem modCap_swg (s : State) (f : Cap → Cap) : (modCap s f).swg = s.swg := rfl
@[simp] theorem modCap_sup (s : State) (f : Cap → Cap) : (modCap s f).sup = s.sup := rfl
@[simp] theorem modCap_sns (s : State) (f : Cap → Cap) : (modCap s f).sns = s.sns := rfl
@[simp] theorem modCap_lpe (s : State) (f : Cap → Cap) : (modCap s f).lpe = s.lpe := rfl
@[simp] theorem modCap_stp (s : State) (f : Cap → Cap) : (modCap s f).stp = s.stp := rfl
@[simp] theorem modCap_flt (s : State) (f : Cap → Cap) : (modCap s f).flt = s.flt := rfl
@[simp] theorem modCap_saf (s : State) (f : Cap → Cap) : (modCap s f).saf = s.saf := rfl
@[simp] theorem modCap_nv (s : State) (f : Cap → Cap) : (modCap s f).nv = s.nv := rfl
@[simp] theorem modCap_svb (s : State) (f : Cap → Cap) : (modCap s f).svb = s.svb := rfl
@[simp] theorem modCap_hwSet (s : State) (f : Cap → Cap) : (modCap s f).hwSet = s.hwSet := rfl
@[simp] theorem modCap_swSet (s : State) (f : Cap → Cap) : (modCap s f).swSet = s.swSet := rfl
@[simp] theorem modCap_rdata (s : State) (f : Cap → Cap) : (modCap s f).rdata = s.rdata := rfl
@[simp] theorem modCap_sent (s : State) (f : Cap → Cap) : (modCap s f).sent = s.sent := rfl
@[simp] theorem modCap_free (s : State) (f : Cap → Cap) : (modCap s f).free = s.free := rfl
@[simp] theorem modCap_pending (s : State) (f : Cap → Cap) : (modCap s f).pending = s.pending := rfl
@[simp] theorem modCap_cap (s : State) (f : Cap → Cap) : (modCap s f).cap = f s.cap := rfl

@[simp] theorem modFlt_lt (s : State) (f : Flt → Flt) : (modFlt s f).lt = s.lt := rfl
@[simp] theorem modFlt_regs (s : State) (f : Flt → Flt) : (modFlt s f).regs = s.regs := rfl
@[simp] theorem modFlt_mem (s : State) (f : Flt → Flt) : (modFlt s f).mem = s.mem := rfl
@[simp] theorem modFlt_ports (s : State) (f : Flt → Flt) : (modFlt s f).ports = s.ports := rfl
@[simp] theorem modFlt_eye (s : State) (f : Flt → Flt) : (modFlt s f).eye = s.eye := rfl
@[simp] theorem modFlt_cores (s : State) (f : Flt → Flt) : (modFlt s f).cores = s.cores := rfl
@[simp] theorem modFlt_sys (s : State) (f : Flt → Flt) : (modFlt s f).sys = s.sys := rfl
@[simp] theorem modFlt_tmk (s : State) (f : Flt → Flt) : (modFlt s f).tmk = s.tmk := rfl
@[simp] theorem modFlt_trr (s : State) (f : Flt → Flt) : (modFlt s f).trr = s.trr := rfl
@[simp] theorem modFlt_rdl (s : State) (f : Flt → Flt) : (modFlt s f).rdl = s.rdl := rfl
@[simp] theorem modFlt_swg (s : State) (f : Flt → Flt) : (modFlt s f).swg = s.swg := rfl
@[simp] theorem modFlt_sup (s : State) (f : Flt → Flt) : (modFlt s f).sup = s.sup := rfl
@[simp] theorem modFlt_sns (s : State) (f : Flt → Flt) : (modFlt s f).sns = s.sns := rfl
@[simp] theorem modFlt_lpe (s : State) (f : Flt → Flt) : (modFlt s f).lpe = s.lpe := rfl
@[simp] theorem modFlt_stp (s : State) (f : Flt → Flt) : (modFlt s f).stp = s.stp := rfl
@[simp] theorem modFlt_cap (s : State) (f : Flt → Flt) : (modFlt s f).cap = s.cap := rfl
@[simp] theorem modFlt_saf (s : State) (f : Flt → Flt) : (modFlt s f).saf = s.saf := rfl
@[simp] theorem modFlt_nv (s : State) (f : Flt → Flt) : (modFlt s f).nv = s.nv := rfl
@[simp] theorem modFlt_svb (s : State) (f : Flt → Flt) : (modFlt s f).svb = s.svb := rfl
@[simp] theorem modFlt_hwSet (s : State) (f : Flt → Flt) : (modFlt s f).hwSet = s.hwSet := rfl
@[simp] theorem modFlt_swSet (s : State) (f : Flt → Flt) : (modFlt s f).swSet = s.swSet := rfl
@[simp] theorem modFlt_rdata (s : State) (f : Flt → Flt) : (modFlt s f).rdata = s.rdata := rfl
@[simp] theorem modFlt_sent (s : State) (f : Flt → Flt) : (modFlt s f).sent = s.sent := rfl
@[simp] theorem modFlt_free (s : State) (f : Flt → Flt) : (modFlt s f).free = s.free := rfl
@[simp] theorem modFlt_pending (s : State) (f : Flt → Flt) : (modFlt s f).pending = s.pending := rfl
@[simp] theorem modFlt_flt (s : State) (f : Flt → Flt) : (modFlt s f).flt = f s.flt := rfl

@[simp] theorem modSaf_lt (s : State) (f : Saf → Saf) : (modSaf s f).lt = s.lt := rfl
@[simp] theorem modSaf_regs (s : State) (f : Saf → Saf) : (modSaf s f).regs = s.regs := rfl
@[simp] theorem modSaf_mem (s : State) (f : Saf → Saf) : (modSaf s f).mem = s.mem := rfl
@[simp] theorem modSaf_ports (s : State) (f : Saf → Saf) : (modSaf s f).ports = s.ports := rfl
@[simp] theorem modSaf_eye (s : State) (f : Saf → Saf) : (modSaf s f).eye = s.eye := rfl
@[simp] theorem modSaf_cores (s : State) (f : Saf → Saf) : (modSaf s f).cores = s.cores := rfl
@[simp] theorem modSaf_sys (s : State) (f : Saf → Saf) : (modSaf s f).sys = s.sys := rfl
@[simp] theorem modSaf_tmk (s : State) (f : Saf → Saf) : (modSaf s f).tmk = s.tmk := rfl
@[simp] theorem modSaf_trr (s : State) (f : Saf → Saf) : (modSaf s f).trr = s.trr := rfl
@[simp] theorem modSaf_rdl (s : State) (f : Saf → Saf) : (modSaf s f).rdl = s.rdl := rfl
@[simp] theorem modSaf_swg (s : State) (f : Saf → Saf) : (modSaf s f).swg = s.swg := rfl
@[simp] theorem modSaf_sup (s : State) (f : Saf → Saf) : (modSaf s f).sup = s.sup := rfl
@[simp] theorem modSaf_sns (s : State) (f : Saf → Saf) : (modSaf s f).sns = s.sns := rfl
@[simp] theorem modSaf_lpe (s : State) (f : Saf → Saf) : (modSaf s f).lpe = s.lpe := rfl
@[simp] theorem modSaf_stp (s : State) (f : Saf → Saf) : (modSaf s f).stp = s.stp := rfl
@[simp] theorem modSaf_cap (s : State) (f : Saf → Saf) : (modSaf s f).cap = s.cap := rfl
@[simp] theorem modSaf_flt (s : State) (f : Saf → Saf) : (modSaf s f).flt = s.flt := rfl
@[simp] theorem modSaf_nv (s : State) (f : Saf → Saf) : (modSaf s f).nv = s.nv := rfl
@[simp] theorem modSaf_svb (s : State) (f : Saf → Saf) : (modSaf s f).svb = s.svb := rfl
@[simp] theorem modSaf_hwSet (s : State) (f : Saf → Saf) : (modSaf s f).hwSet = s.hwSet := rfl
@[simp] theorem modSaf_swSet (s : State) (f : Saf → Saf) : (modSaf s f).swSet = s.swSet := rfl
@[simp] theorem modSaf_rdata (s : State) (f : Saf → Saf) : (modSaf s f).rdata = s.rdata := rfl
@[simp] theorem modSaf_sent (s : State) (f : Saf → Saf) : (modSaf s f).sent = s.sent := rfl
@[simp] theorem modSaf_free (s : State) (f : Saf → Saf) : (modSaf s f).free = s.free := rfl
@[simp] theorem modSaf_pending (s : State) (f : Saf → Saf) : (modSaf s f).pending = s.pending := rfl
@[simp] theorem modSaf_saf (s : State) (f : Saf → Saf) : (modSaf s f).saf = f s.saf := rfl

@[simp] theorem modNv_lt (s : State) (f : Nv → Nv) : (modNv s f).lt = s.lt := rfl
@[simp] theorem modNv_regs (s : State) (f : Nv → Nv) : (modNv s f).regs = s.regs := rfl
@[simp] theorem modNv_mem (s : State) (f : Nv → Nv) : (modNv s f).mem = s.mem := rfl
@[simp] theorem modNv_ports (s : State) (f : Nv → Nv) : (modNv s f).ports = s.ports := rfl
@[simp] theorem modNv_eye (s : State) (f : Nv → Nv) : (modNv s f).eye = s.eye := rfl
@[simp] theorem modNv_cores (s : State) (f : Nv → Nv) : (modNv s f).cores = s.cores := rfl
@[simp] theorem modNv_sys (s : State) (f : Nv → Nv) : (modNv s f).sys = s.sys := rfl
@[simp] theorem modNv_tmk (s : State) (f : Nv → Nv) : (modNv s f).tmk = s.tmk := rfl
@[simp] theorem modNv_trr (s : State) (f : Nv → Nv) : (modNv s f).trr = s.trr := rfl
@[simp] theorem modNv_rdl (s : State) (f : Nv → Nv) : (modNv s f).rdl = s.rdl := rfl
@[simp] theorem modNv_swg (s : State) (f : Nv → Nv) : (modNv s f).swg = s.swg := rfl
@[simp] theorem modNv_sup (s : State) (f : Nv → Nv) : (modNv s f).sup = s.sup := rfl
@[simp] theorem modNv_sns (s : State) (f : Nv → Nv) : (modNv s f).sns = s.sns := rfl
@[simp] theorem modNv_lpe (s : State) (f : Nv → Nv) : (modNv s f).lpe = s.lpe := rfl
@[simp] theorem modNv_stp (s : State) (f : Nv → Nv) : (modNv s f).stp = s.stp := rfl
@[simp] theorem modNv_cap (s : State) (f : Nv → Nv) : (modNv s f).cap = s.cap := rfl
@[simp] theorem modNv_flt (s : State) (f : Nv → Nv) : (modNv s f).flt = s.flt := rfl
@[simp] theorem modNv_saf (s : State) (f : Nv → Nv) : (modNv s f).saf = s.saf := rfl
@[simp] theorem modNv_svb (s : State) (f : Nv → Nv) : (modNv s f).svb = s.svb := rfl
@[simp] theorem modNv_hwSet (s : State) (f : Nv → Nv) : (modNv s f).hwSet = s.hwSet := rfl
@[simp] theorem modNv_swSet (s : State) (f : Nv → Nv) : (modNv s f).swSet = s.swSet := rfl
@[simp] theorem modNv_rdata (s : State) (f : Nv → Nv) : (modNv s f).rdata = s.rdata := rfl
@[simp] theorem modNv_sent (s : State) (f : Nv → Nv) : (modNv s f).sent = s.sent := rfl
@[simp] theorem modNv_free (s : State) (f : Nv → Nv) : (modNv s f).free = s.free := rfl
@[simp] theorem modNv_pending (s : State) (f : Nv → Nv) : (modNv s f).pending = s.pending := rfl
@[simp] theorem modNv_nv (s : State) (f : Nv → Nv) : (modNv s f).nv = f s.nv := rfl

@[simp] theorem modSvb_lt (s : State) (f : Svb → Svb) : (modSvb s f).lt = s.lt := rfl
@[simp] theorem modSvb_regs (s : State) (f : Svb → Svb) : (modSvb s f).regs = s.regs := rfl
@[simp] theorem modSvb_mem (s : State) (f : Svb → Svb) : (modSvb s f).mem = s.mem := rfl
@[simp] theorem modSvb_ports (s : State) (f : Svb → Svb) : (modSvb s f).ports = s.ports := rfl
@[simp] theorem modSvb_eye (s : State) (f : Svb → Svb) : (modSvb s f).eye = s.eye := rfl
@[simp] theorem modSvb_cores (s : State) (f : Svb → Svb) : (modSvb s f).cores = s.cores := rfl
@[simp] theorem modSvb_sys (s : State) (f : Svb → Svb) : (modSvb s f).sys = s.sys := rfl
@[simp] theorem modSvb_tmk (s : State) (f : Svb → Svb) : (modSvb s f).tmk = s.tmk := rfl
@[simp] theorem modSvb_trr (s : State) (f : Svb → Svb) : (modSvb s f).trr = s.trr := rfl
@[simp] theorem modSvb_rdl (s : State) (f : Svb → Svb) : (modSvb s f).rdl = s.rdl := rfl
@[simp] theorem modSvb_swg (s : State) (f : Svb → Svb) : (modSvb s f).swg = s.swg := rfl
@[simp] theorem modSvb_sup (s : State) (f : Svb → Svb) : (modSvb s f).sup = s.sup := rfl
@[simp] theorem modSvb_sns (s : State) (f : Svb → Svb) : (modSvb s f).sns = s.sns := rfl
@[simp] theorem modSvb_lpe (s : State) (f : Svb → Svb) : (modSvb s f).lpe = s.lpe := rfl
@[simp] theorem modSvb_stp (s : State) (f : Svb → Svb) : (modSvb s f).stp = s.stp := rfl
@[simp] theorem modSvb_cap (s : State) (f : Svb → Svb) : (modSvb s f).cap = s.cap := rfl
@[simp] theorem modSvb_flt (s : State) (f : Svb → Svb) : (modSvb s f).flt = s.flt := rfl
@[simp] theorem modSvb_saf (s : State) (f : Svb → Svb) : (modSvb s f).saf = s.saf := rfl
@[simp] theorem modSvb_nv (s : State) (f : Svb → Svb) : (modSvb s f).nv = s.nv := rfl
@[simp] theorem modSvb_hwSet (s : State) (f : Svb → Svb) : (modSvb s f).hwSet = s.hwSet := rfl
@[simp] theorem modSvb_swSet (s : State) (f : Svb → Svb) : (modSvb s f).swSet = s.swSet := rfl
@[simp] theorem modSvb_rdata (s : State) (f : Svb → Svb) : (modSvb s f).rdata = s.rdata := rfl
@[simp] theorem modSvb_sent (s : State) (f : Svb → Svb) : (modSvb s f).sent = s.sent := rfl
@[simp] theorem modSvb_free (s : State) (f : Svb → Svb) : (modSvb s f).free = s.free := rfl
@[simp] theorem modSvb_pending (s : State) (f : Svb → Svb) : (modSvb s f).pending = s.pending := rfl
@[simp] theorem modSvb_svb (s : State) (f : Svb → Svb) : (modSvb s f).svb = f s.svb := rfl

@[simp] theorem modPair_lt (s : State) (f : Pair → Pair) : (modPair s f).lt = s.lt := rfl
@[simp] theorem modPair_regs (s : State) (f : Pair → Pair) : (modPair s f).regs = s.regs := rfl
@[simp] theorem modPair_mem (s : State) (f : Pair → Pair) : (modPair s f).mem = s.mem := rfl
@[simp] theorem modPair_ports (s : State) (f : Pair → Pair) : (modPair s f).ports = s.ports := rfl
@[simp] theorem modPair_eye (s : State) (f : Pair → Pair) : (modPair s f).eye = s.eye := rfl
@[simp] theorem modPair_cores (s : State) (f : Pair → Pair) : (modPair s f).cores = s.cores := rfl
@[simp] theorem modPair_tmk (s : State) (f : Pair → Pair) : (modPair s f).tmk = s.tmk := rfl
@[simp] theorem modPair_trr (s : State) (f : Pair → Pair) : (modPair s f).trr = s.trr := rfl
@[simp] theorem modPair_rdl (s : State) (f : Pair → Pair) : (modPair s f).rdl = s.rdl := rfl
@[simp] theorem modPair_swg (s : State) (f : Pair → Pair) : (modPair s f).swg = s.swg := rfl
@[simp] theorem modPair_sup (s : State) (f : Pair → Pair) : (modPair s f).sup = s.sup := rfl
@[simp] theorem modPair_sns (s : State) (f : Pair → Pair) : (modPair s f).sns = s.sns := rfl
@[simp] theorem modPair_lpe (s : State) (f : Pair → Pair) : (modPair s f).lpe = s.lpe := rfl
@[simp] theorem modPair_stp (s : State) (f : Pair → Pair) : (modPair s f).stp = s.stp := rfl
@[simp] theorem modPair_cap (s : State) (f : Pair → Pair) : (modPair s f).cap = s.cap := rfl
@[simp] theorem modPair_flt (s : State) (f : Pair → Pair) : (modPair s f).flt = s.flt := rfl
@[simp] theorem modPair_saf (s : State) (f : Pair → Pair) : (modPair s f).saf = s.saf := rfl
@[simp] theorem modPair_nv (s : State) (f : Pair → Pair) : (modPair s f).nv = s.nv := rfl
@[simp] theorem modPair_svb (s : State) (f : Pair → Pair) : (modPair s f).svb = s.svb := rfl
@[simp] theorem modPair_hwSet (s : State) (f : Pair → Pair) : (modPair s f).hwSet = s.hwSet := rfl
@[simp] theorem modPair_swSet (s : State) (f : Pair → Pair) : (modPair s f).swSet = s.swSet := rfl
@[simp] theorem modPair_rdata (s : State) (f : Pair → Pair) : (modPair s f).rdata = s.rdata := rfl
@[simp] theorem modPair_sent (s : State) (f : Pair → Pair) : (modPair s f).sent = s.sent := rfl
@[simp] theorem modPair_free (s : State) (f : Pair → Pair) : (modPair s f).free = s.free := rfl
@[simp] theorem modPair_pending (s : State) (f : Pair → Pair) : (modPair s f).pending = s.pending := rfl
@[simp] theorem modPair_pair (s : State) (f : Pair → Pair) : (modPair s f).sys.pair = f s.sys.pair := rfl

@[simp] theorem modTbl_lt (s : State) (f : Tbl → Tbl) : (modTbl s f).lt = s.lt := rfl
@[simp] theorem modTbl_regs (s : State) (f : Tbl → Tbl) : (modTbl s f).regs = s.regs := rfl
@[simp] theorem modTbl_mem (s : State) (f : Tbl → Tbl) : (modTbl s f).mem = s.mem := rfl
@[simp] theorem modTbl_ports (s : State) (f : Tbl → Tbl) : (modTbl s f).ports = s.ports := rfl
@[simp] theorem modTbl_eye (s : State) (f : Tbl → Tbl) : (modTbl s f).eye = s.eye := rfl
@[simp] theorem modTbl_cores (s : State) (f : Tbl → Tbl) : (modTbl s f).cores = s.cores := rfl
@[simp] theorem modTbl_tmk (s : State) (f : Tbl → Tbl) : (modTbl s f).tmk = s.tmk := rfl
@[simp] theorem modTbl_trr (s : State) (f : Tbl → Tbl) : (modTbl s f).trr = s.trr := rfl
@[simp] theorem modTbl_rdl (s : State) (f : Tbl → Tbl) : (modTbl s f).rdl = s.rdl := rfl
@[simp] theorem modTbl_swg (s : State) (f : Tbl → Tbl) : (modTbl s f).swg = s.swg := rfl
@[simp] theorem modTbl_sup (s : State) (f : Tbl → Tbl) : (modTbl s f).sup = s.sup := rfl
@[simp] theorem modTbl_sns (s : State) (f : Tbl → Tbl) : (modTbl s f).sns = s.sns := rfl
@[simp] theorem modTbl_lpe (s : State) (f : Tbl → Tbl) : (modTbl s f).lpe = s.lpe := rfl
@[simp] theorem modTbl_stp (s : State) (f : Tbl → Tbl) : (modTbl s f).stp = s.stp := rfl
@[simp] theorem modTbl_cap (s : State) (f : Tbl → Tbl) : (modTbl s f).cap = s.cap := rfl
@[simp] theorem modTbl_flt (s : State) (f : Tbl → Tbl) : (modTbl s f).flt = s.flt := rfl
@[simp] theorem modTbl_saf (s : State) (f : Tbl → Tbl) : (modTbl s f).saf = s.saf := rfl
@[simp] theorem modTbl_nv (s : State) (f : Tbl → Tbl) : (modTbl s f).nv = s.nv := rfl
@[simp] theorem modTbl_svb (s : State) (f : Tbl → Tbl) : (modTbl s f).svb = s.svb := rfl
@[simp] theorem modTbl_hwSet (s : State) (f : Tbl → Tbl) : (modTbl s f).hwSet = s.hwSet := rfl
@[simp] theorem modTbl_swSet (s : State) (f : Tbl → Tbl) : (modTbl s f).swSet = s.swSet := rfl
@[simp] theorem modTbl_rdata (s : State) (f : Tbl → Tbl) : (modTbl s f).rdata = s.rdata := rfl
@[simp] theorem modTbl_sent (s : State) (f : Tbl → Tbl) : (modTbl s f).sent = s.sent := rfl
@[simp] theorem modTbl_free (s : State) (f : Tbl → Tbl) : (modTbl s f).free = s.free := rfl
@[simp] theorem modTbl_pending (s : State) (f : Tbl → Tbl) : (modTbl s f).pending = s.pending := rfl
@[simp] theorem modTbl_tbl (s : State) (f : Tbl → Tbl) : (modTbl s f).sys.tbl = f s.sys.tbl := rfl

@[simp] theorem modPort_lt (s : State) (p : Nat) (f : PortSt → PortSt) : (modPort s p f).lt = s.lt := rfl
@[simp] theorem modPort_regs (s : State) (p : Nat) (f : PortSt → PortSt) : (modPort s p f).regs = s.regs := rfl
@[simp] theorem modPort_mem (s : State) (p : Nat) (f : PortSt → PortSt) : (modPort s p f).mem = s.mem := rfl
@[simp] theorem modPort_eye (s : State) (p : Nat) (f : PortSt → PortSt) : (modPort s p f).eye = s.eye := rfl
@[simp] theorem modPort_cores (s : State) (p : Nat) (f : PortSt → PortSt) : (modPort s p f).cores = s.cores := rfl
@[simp] theorem modPort_sys (s : State) (p : Nat) (f : PortSt → PortSt) : (modPort s p f).sys = s.sys := rfl
@[simp] theorem modPort_tmk (s : State) (p : Nat) (f : PortSt → PortSt) : (modPort s p f).tmk = s.tmk := rfl
@[simp] theorem modPort_trr (s : State) (p : Nat) (f : PortSt → PortSt) : (modPort s p f).trr = s.trr := rfl
@[simp] theorem modPort_rdl (s : State) (p : Nat) (f : PortSt → PortSt) : (modPort s p f).rdl = s.rdl := rfl
@[simp] theorem modPort_swg (s : State) (p : Nat) (f : PortSt → PortSt) : (modPort s p f).swg = s.swg := rfl
@[simp] theorem modPort_sup (s : State) (p : Nat) (f : PortSt → PortSt) : (modPort s p f).sup = s.sup := rfl
@[simp] theorem modPort_sns (s : State) (p : Nat) (f : PortSt → PortSt) : (modPort s p f).sns = s.sns := rfl
@[simp] theorem modPort_lpe (s : State) (p : Nat) (f : PortSt → PortSt) : (modPort s p f).lpe = s.lpe := rfl
@[simp] theorem modPort_stp (s : State) (p : Nat) (f : PortSt → PortSt) : (modPort s p f).stp = s.stp := rfl
@[simp] theorem modPort_cap (s : State) (p : Nat) (f : PortSt → PortSt) : (modPort s p f).cap = s.cap := rfl
@[simp] theorem modPort_flt (s : State) (p : Nat) (f : PortSt → PortSt) : (modPort s p f).flt = s.flt := rfl
@[simp] theorem modPort_saf (s : State) (p : Nat) (f : PortSt → PortSt) : (modPort s p f).saf = s.saf := rfl
@[simp] theorem modPort_nv (s : State) (p : Nat) (f : PortSt → PortSt) : (modPort s p f).nv = s.nv := rfl
@[simp] theorem modPort_svb (s : State) (p : Nat) (f : PortSt → PortSt) : (modPort s p f).svb = s.svb := rfl
@[simp] theorem modPort_hwSet (s : State) (p : Nat) (f : PortSt → PortSt) : (modPort s p f).hwSet = s.hwSet := rfl
@[simp] theorem modPort_swSet (s : State) (p : Nat) (f : PortSt → PortSt) : (modPort s p f).swSet = s.swSet := rfl
@[simp] theorem modPort_rdata (s : State) (p : Nat) (f : PortSt → PortSt) : (modPort s p f).rdata = s.rdata := rfl
@[simp] theorem modPort_sent (s : State) (p : Nat) (f : PortSt → PortSt) : (modPort s p f).sent = s.sent := rfl
@[simp] theorem modPort_free (s : State) (p : Nat) (f : PortSt → PortSt) : (modPort s p f).free = s.free := rfl
@[simp] theorem modPort_pending (s : State) (p : Nat) (f : PortSt → PortSt) : (modPort s p f).pending = s.pending := rfl

@[simp] theorem modCore_lt (s : State) (n : Nat) (f : Core → Core) : (modCore s n f).lt = s.lt := rfl
@[simp] theorem modCore_regs (s : State) (n : Nat) (f : Core → Core) : (modCore s n f).regs = s.regs := rfl
@[simp] theorem modCore_mem (s : State) (n : Nat) (f : Core → Core) : (modCore s n f).mem = s.mem := rfl
@[simp] theorem modCore_ports (s : State) (n : Nat) (f : Core → Core) : (modCore s n f).ports = s.ports := rfl
@[simp] theorem modCore_eye (s : State) (n : Nat) (f : Core → Core) : (modCore s n f).eye = s.eye := rfl
@[simp] theorem modCore_sys (s : State) (n : Nat) (f : Core → Core) : (modCore s n f).sys = s.sys := rfl
@[simp] theorem modCore_tmk (s : State) (n : Nat) (f : Core → Core) : (modCore s n f).tmk = s.tmk := rfl
@[simp] theorem modCore_trr (s : State) (n : Nat) (f : Core → Core) : (modCore s n f).trr = s.trr := rfl
@[simp] theorem modCore_rdl (s : State) (n : Nat) (f : Core → Core) : (modCore s n f).rdl = s.rdl := rfl
@[simp] theorem modCore_swg (s : State) (n : Nat) (f : Core → Core) : (modCore s n f).swg = s.swg := rfl
@[simp] theorem modCore_sup (s : State) (n : Nat) (f : Core → Core) : (modCore s n f).sup = s.sup := rfl
@[simp] theorem modCore_sns (s : State) (n : Nat) (f : Core → Core) : (modCore s n f).sns = s.sns := rfl
@[simp] theorem modCore_lpe (s : State) (n : Nat) (f : Core → Core) : (modCore s n f).lpe = s.lpe := rfl
@[simp] theorem modCore_stp (s : State) (n : Nat) (f : Core → Core) : (modCore s n f).stp = s.stp := rfl
@[simp] theorem modCore_cap (s : State) (n : Nat) (f : Core → Core) : (modCore s n f).cap = s.cap := rfl
@[simp] theorem modCore_flt (s : State) (n : Nat) (f : Core → Core) : (modCore s n f).flt = s.flt := rfl
@[simp] theorem modCore_saf (s : State) (n : Nat) (f : Core → Core) : (modCore s n f).saf = s.saf := rfl
@[simp] theorem modCore_nv (s : State) (n : Nat) (f : Core → Core) : (modCore s n f).nv = s.nv := rfl
@[simp] theorem modCore_svb (s : State) (n : Nat) (f : Core → Core) : (modCore s n f).svb = s.svb := rfl
@[simp] theorem modCore_hwSet (s : State) (n : Nat) (f : Core → Core) : (modCore s n f).hwSet = s.hwSet := rfl
@[simp] theorem modCore_swSet (s : State) (n : Nat) (f : Core → Core) : (modCore s n f).swSet = s.swSet := rfl
@[simp] theorem modCore_rdata (s : State) (n : Nat) (f : Core → Core) : (modCore s n f).rdata = s.rdata := rfl
@[simp] theorem modCore_sent (s : State) (n : Nat) (f : Core → Core) : (modCore s n f).sent = s.sent := rfl
@[simp] theorem modCore_free (s : State) (n : Nat) (f : Core → Core) : (modCore s n f).free = s.free := rfl
@[simp] theorem modCore_pending (s : State) (n : Nat) (f : Core → Core) : (modCore s n f).pending = s.pending := rfl

@[simp] theorem setReg_lt (s : State) (a : Nat) (v : Word) : (setReg s a v).lt = s.lt := rfl
@[simp] theorem setReg_mem (s : State) (a : Nat) (v : Word) : (setReg s a v).mem = s.mem := rfl
@[simp] theorem setReg_ports (s : State) (a : Nat) (v : Word) : (setReg s a v).ports = s.ports := rfl
@[simp] theorem setReg_eye (s : State) (a : Nat) (v : Word) : (setReg s a v).eye = s.eye := rfl
@[simp] theorem setReg_cores (s : State) (a : Nat) (v : Word) : (setReg s a v).cores = s.cores := rfl
@[simp] theorem setReg_sys (s : State) (a : Nat) (v : Word) : (setReg s a v).sys = s.sys := rfl
@[simp] theorem setReg_tmk (s : State) (a : Nat) (v : Word) : (setReg s a v).tmk = s.tmk := rfl
@[simp] theorem setReg_trr (s : State) (a : Nat) (v : Word) : (setReg s a v).trr = s.trr := rfl
@[simp] theorem setReg_rdl (s : State) (a : Nat) (v : Word) : (setReg s a v).rdl = s.rdl := rfl
@[simp] theorem setReg_swg (s : State) (a : Nat) (v : Word) : (setReg s a v).swg = s.swg := rfl
@[simp] theorem setReg_sup (s : State) (a : Nat) (v : Word) : (setReg s a v).sup = s.sup := rfl
@[simp] theorem setReg_sns (s : State) (a : Nat) (v : Word) : (setReg s a v).sns = s.sns := rfl
@[simp] theorem setReg_lpe (s : State) (a : Nat) (v : Word) : (setReg s a v).lpe = s.lpe := rfl
@[simp] theorem setReg_stp (s : State) (a : Nat) (v : Word) : (setReg s a v).stp = s.stp := rfl
@[simp] theorem setReg_cap (s : State) (a : Nat) (v : Word) : (setReg s a v).cap = s.cap := rfl
@[simp] theorem setReg_flt (s : State) (a : Nat) (v : Word) : (setReg s a v).flt = s.flt := rfl
@[simp] theorem setReg_saf (s : State) (a : Nat) (v : Word) : (setReg s a v).saf = s.saf := rfl
@[simp] theorem setReg_nv (s : State) (a : Nat) (v : Word) : (setReg s a v).nv = s.nv := rfl
@[simp] theorem setReg_svb (s : State) (a : Nat) (v : Word) : (setReg s a v).svb = s.svb := rfl
@[simp] theorem setReg_hwSet (s : State) (a : Nat) (v : Word) : (setReg s a v).hwSet = s.hwSet := rfl
@[simp] theorem setReg_swSet (s : State) (a : Nat) (v : Word) : (setReg s a v).swSet = s.swSet := rfl
@[simp] theorem setReg_rdata (s : State) (a : Nat) (v : Word) : (setReg s a v).rdata = s.rdata := rfl
@[simp] theorem setReg_sent (s : State) (a : Nat) (v : Word) : (setReg s a v).sent = s.sent := rfl
@[simp] theorem setReg_free (s : State) (a : Nat) (v : Word) : (setReg s a v).free = s.free := rfl
@[simp] theorem setReg_pending (s : State) (a : Nat) (v : Word) : (setReg s a v).pending = s.pending := rfl

@[simp] theorem setRf_lt (s : State) (a hi lo v : Nat) : (setRf s a hi lo v).lt = s.lt := rfl
@[simp] theorem setRf_mem (s : State) (a hi lo v : Nat) : (setRf s a hi lo v).mem = s.mem := rfl
@[simp] theorem setRf_ports (s : State) (a hi lo v : Nat) : (setRf s a hi lo v).ports = s.ports := rfl
@[simp] theorem setRf_eye (s : State) (a hi lo v : Nat) : (setRf s a hi lo v).eye = s.eye := rfl
@[simp] theorem setRf_cores (s : State) (a hi lo v : Nat) : (setRf s a hi lo v).cores = s.cores := rfl
@[simp] theorem setRf_sys (s : State) (a hi lo v : Nat) : (setRf s a hi lo v).sys = s.sys := rfl
@[simp] theorem setRf_tmk (s : State) (a hi lo v : Nat) : (setRf s a hi lo v).tmk = s.tmk := rfl
@[simp] theorem setRf_trr (s : State) (a hi lo v : Nat) : (setRf s a hi lo v).trr = s.trr := rfl
@[simp] theorem setRf_rdl (s : State) (a hi lo v : Nat) : (setRf s a hi lo v).rdl = s.rdl := rfl
@[simp] theorem setRf_swg (s : State) (a hi lo v : Nat) : (setRf s a hi lo v).swg = s.swg := rfl
@[simp] theorem setRf_sup (s : State) (a hi lo v : Nat) : (setRf s a hi lo v).sup = s.sup := rfl
@[simp] theorem setRf_sns (s : State) (a hi lo v : Nat) : (setRf s a hi lo v).sns = s.sns := rfl
@[simp] theorem setRf_lpe (s : State) (a hi lo v : Nat) : (setRf s a hi lo v).lpe = s.lpe := rfl
@[simp] theorem setRf_stp (s : State) (a hi lo v : Nat) : (setRf s a hi lo v).stp = s.stp := rfl
@[simp] theorem setRf_cap (s : State) (a hi lo v : Nat) : (setRf s a hi lo v).cap = s.cap := rfl
@[simp] theorem setRf_flt (s : State) (a hi lo v : Nat) : (setRf s a hi lo v).flt = s.flt := rfl
@[simp] theorem setRf_saf (s : State) (a hi lo v : Nat) : (setRf s a hi lo v).saf = s.saf := rfl
@[simp] theorem setRf_nv (s : State) (a hi lo v : Nat) : (setRf s a hi lo v).nv = s.nv := rfl
@[simp] theorem setRf_svb (s : State) (a hi lo v : Nat) : (setRf s a hi lo v).svb = s.svb := rfl
@[simp] theorem setRf_hwSet (s : State) (a hi lo v : Nat) : (setRf s a hi lo v).hwSet = s.hwSet := rfl
@[simp] theorem setRf_swSet (s : State) (a hi lo v : Nat) : (setRf s a hi lo v).swSet = s.swSet := rfl
@[simp] theorem setRf_rdata (s : State) (a hi lo v : Nat) : (setRf s a hi lo v).rdata = s.rdata := rfl
@[simp] theorem setRf_sent (s : State) (a hi lo v : Nat) : (setRf s a hi lo v).sent = s.sent := rfl
@[simp] theorem setRf_free (s : State) (a hi lo v : Nat) : (setRf s a hi lo v).free = s.free := rfl
@[simp] theorem setRf_pending (s : State) (a hi lo v : Nat) : (setRf s a hi lo v).pending = s.pending := rfl

@[simp] theorem flag_lt (s : State) (a m : Nat) : (flag s a m).lt = s.lt := rfl
@[simp] theorem flag_mem (s : State) (a m : Nat) : (flag s a m).mem = s.mem := rfl
@[simp] theorem flag_ports (s : State) (a m : Nat) : (flag s a m).ports = s.ports := rfl
@[simp] theorem flag_eye (s : State) (a m : Nat) : (flag s a m).eye = s.eye := rfl
@[simp] theorem flag_cores (s : State) (a m : Nat) : (flag s a m).cores = s.cores := rfl
@[simp] theorem flag_sys (s : State) (a m : Nat) : (flag s a m).sys = s.sys := rfl
@[simp] theorem flag_tmk (s : State) (a m : Nat) : (flag s a m).tmk = s.tmk := rfl
@[simp] theorem flag_trr (s : State) (a m : Nat) : (flag s a m).trr = s.trr := rfl
@[simp] theorem flag_rdl (s : State) (a m : Nat) : (flag s a m).rdl = s.rdl := rfl
@[simp] theorem flag_swg (s : State) (a m : Nat) : (flag s a m).swg = s.swg := rfl
@[simp] theorem flag_sup (s : State) (a m : Nat) : (flag s a m).sup = s.sup := rfl
@[simp] theorem flag_sns (s : State) (a m : Nat) : (flag s a m).sns = s.sns := rfl
@[simp] theorem flag_lpe (s : State) (a m : Nat) : (flag s a m).lpe = s.lpe := rfl
@[simp] theorem flag_stp (s : State) (a m : Nat) : (flag s a m).stp = s.stp := rfl
@[simp] theorem flag_cap (s : State) (a m : Nat) : (flag s a m).cap = s.cap := rfl
@[simp] theorem flag_flt (s : State) (a m : Nat) : (flag s a m).flt = s.flt := rfl
@[simp] theorem flag_saf (s : State) (a m : Nat) : (flag s a m).saf = s.saf := rfl
@[simp] theorem flag_nv (s : State) (a m : Nat) : (flag s a m).nv = s.nv := rfl
@[simp] theorem flag_svb (s : State) (a m : Nat) : (flag s a m).svb = s.svb := rfl
@[simp] theorem flag_swSet (s : State) (a m : Nat) : (flag s a m).swSet = s.swSet := rfl
@[simp] theorem flag_rdata (s : State) (a m : Nat) : (flag s a m).rdata = s.rdata := rfl
@[simp] theorem flag_sent (s : State) (a m : Nat) : (flag s a m).sent = s.sent := rfl
@[simp] theorem flag_free (s : State) (a m : Nat) : (flag s a m).free = s.free := rfl
@[simp] theorem flag_pending (s : State) (a m : Nat) : (flag s a m).pending = s.pending := rfl

@[simp] theorem unflag_lt (s : State) (a m : Nat) : (unflag s a m).lt = s.lt := rfl
@[simp] theorem unflag_mem (s : State) (a m : Nat) : (unflag s a m).mem = s.mem := rfl
@[simp] theorem unflag_ports (s : State) (a m : Nat) : (unflag s a m).ports = s.ports := rfl
@[simp] theorem unflag_eye (s : State) (a m : Nat) : (unflag s a m).eye = s.eye := rfl
@[simp] theorem unflag_cores (s : State) (a m : Nat) : (unflag s a m).cores = s.cores := rfl
@[simp] theorem unflag_sys (s : State) (a m : Nat) : (unflag s a m).sys = s.sys := rfl
@[simp] theorem unflag_tmk (s : State) (a m : Nat) : (unflag s a m).tmk = s.tmk := rfl
@[simp] theorem unflag_trr (s : State) (a m : Nat) : (unflag s a m).trr = s.trr := rfl
@[simp] theorem unflag_rdl (s : State) (a m : Nat) : (unflag s a m).rdl = s.rdl := rfl
@[simp] theorem unflag_swg (s : State) (a m : Nat) : (unflag s a m).swg = s.swg := rfl
@[simp] theorem unflag_sup (s : State) (a m : Nat) : (unflag s a m).sup = s.sup := rfl
@[simp] theorem unflag_sns (s : State) (a m : Nat) : (unflag s a m).sns = s.sns := rfl
@[simp] theorem unflag_lpe (s : State) (a m : Nat) : (unflag s a m).lpe = s.lpe := rfl
@[simp] theorem unflag_stp (s : State) (a m : Nat) : (unflag s a m).stp = s.stp := rfl
@[simp] theorem unflag_cap (s : State) (a m : Nat) : (unflag s a m).cap = s.cap := rfl
@[simp] theorem unflag_flt (s : State) (a m : Nat) : (unflag s a m).flt = s.flt := rfl
@[simp] theorem unflag_saf (s : State) (a m : Nat) : (unflag s a m).saf = s.saf := rfl
@[simp] theorem unflag_nv (s : State) (a m : Nat) : (unflag s a m).nv = s.nv := rfl
@[simp] theorem unflag_svb (s : State) (a m : Nat) : (unflag s a m).svb = s.svb := rfl
@[simp] theorem unflag_hwSet (s : State) (a m : Nat) : (unflag s a m).hwSet = s.hwSet := rfl
@[simp] theorem unflag_swSet (s : State) (a m : Nat) : (unflag s a m).swSet = s.swSet := rfl
@[simp] theorem unflag_rdata (s : State) (a m : Nat) : (unflag s a m).rdata = s.rdata := rfl
@[simp] theorem unflag_sent (s : State) (a m : Nat) : (unflag s a m).sent = s.sent := rfl
@[simp] theorem unflag_free (s : State) (a m : Nat) : (unflag s a m).free = s.free := rfl
@[simp] theorem unflag_pending (s : State) (a m : Nat) : (unflag s a m).pending = s.pending := rfl

@[simp] theorem send_lt (s : State) (x : Sent) : (send s x).lt = s.lt := rfl
@[simp] theorem send_regs (s : State) (x : Sent) : (send s x).regs = s.regs := rfl
@[simp] theorem send_mem (s : State) (x : Sent) : (send s x).mem = s.mem := rfl
@[simp] theorem send_ports (s : State) (x : Sent) : (send s x).ports = s.ports := rfl
@[simp] theorem send_eye (s : State) (x : Sent) : (send s x).eye = s.eye := rfl
@[simp] theorem send_cores (s : State) (x : Sent) : (send s x).cores = s.cores := rfl
@[simp] theorem send_sys (s : State) (x : Sent) : (send s x).sys = s.sys := rfl
@[simp] theorem send_tmk (s : State) (x : Sent) : (send s x).tmk = s.tmk := rfl
@[simp] theorem send_trr (s : State) (x : Sent) : (send s x).trr = s.trr := rfl
@[simp] theorem send_rdl (s : State) (x : Sent) : (send s x).rdl = s.rdl := rfl
@[simp] theorem send_swg (s : State) (x : Sent) : (send s x).swg = s.swg := rfl
@[simp] theorem send_sup (s : State) (x : Sent) : (send s x).sup = s.sup := rfl
@[simp] theorem send_sns (s : State) (x : Sent) : (send s x).sns = s.sns := rfl
@[simp] theorem send_lpe (s : State) (x : Sent) : (send s x).lpe = s.lpe := rfl
@[simp] theorem send_stp (s : State) (x : Sent) : (send s x).stp = s.stp := rfl
@[simp] theorem send_cap (s : State) (x : Sent) : (send s x).cap = s.cap := rfl
@[simp] theorem send_flt (s : State) (x : Sent) : (send s x).flt = s.flt := rfl
@[simp] theorem send_saf (s : State) (x : Sent) : (send s x).saf = s.saf := rfl
@[simp] theorem send_nv (s : State) (x : Sent) : (send s x).nv = s.nv := rfl
@[simp] theorem send_svb (s : State) (x : Sent) : (send s x).svb = s.svb := rfl
@[simp] theorem send_hwSet (s : State) (x : Sent) : (send s x).hwSet = s.hwSet := rfl
@[simp] theorem send_swSet (s : State) (x : Sent) : (send s x).swSet = s.swSet := rfl
@[simp] theorem send_rdata (s : State) (x : Sent) : (send s x).rdata = s.rdata := rfl
@[simp] theorem send_free (s : State) (x : Sent) : (send s x).free = s.free := rfl
@[simp] theorem send_pending (s : State) (x : Sent) : (send s x).pending = s.pending := rfl
@[simp] theorem send_sent (s : State) (x : Sent) : (send s x).sent = s.sent ++ [x] := rfl

@[simp] theorem reg_modTmk (s : State) (f : Tmk → Tmk) (x : Nat) : reg (modTmk s f) x = reg s x := rfl
@[simp] theorem reg_modTrr (s : State) (f : Trr → Trr) (x : Nat) : reg (modTrr s f) x = reg s x := rfl
@[simp] theorem reg_modRdl (s : State) (f : Rdl → Rdl) (x : Nat) : reg (modRdl s f) x = reg s x := rfl
@[simp] theorem reg_modSwg (s : State) (f : Swg → Swg) (x : Nat) : reg (modSwg s f) x = reg s x := rfl
@[simp] theorem reg_modSup (s : State) (f : Sup → Sup) (x : Nat) : reg (modSup s f) x = reg s x := rfl
@[simp] theorem reg_modSns (s : State) (f : Sns → Sns) (x : Nat) : reg (modSns s f) x = reg s x := rfl
@[simp] theorem reg_modLpe (s : State) (f : Lpe → Lpe) (x : Nat) : reg (modLpe s f) x = reg s x := rfl
@[simp] theorem reg_modStp (s : State) (f : Stp → Stp) (x : Nat) : reg (modStp s f) x = reg s x := rfl
@[simp] theorem reg_modCap (s : State) (f : Cap → Cap) (x : Nat) : reg (modCap s f) x = reg s x := rfl
@[simp] theorem reg_modFlt (s : State) (f : Flt → Flt) (x : Nat) : reg (modFlt s f) x = reg s x := rfl
@[simp] theorem reg_modSaf (s : State) (f : Saf → Saf) (x : Nat) : reg (modSaf s f) x = reg s x := rfl
@[simp] theorem reg_modNv (s : State) (f : Nv → Nv) (x : Nat) : reg (modNv s f) x = reg s x := rfl
@[simp] theorem reg_modSvb (s : State) (f : Svb → Svb) (x : Nat) : reg (modSvb s f) x = reg s x := rfl
@[simp] theorem reg_modPair (s : State) (f : Pair → Pair) (x : Nat) : reg (modPair s f) x = reg s x := rfl
@[simp] theorem reg_modTbl (s : State) (f : Tbl → Tbl) (x : Nat) : reg (modTbl s f) x = reg s x := rfl
@[simp] theorem reg_modPort (s : State) (p : Nat) (f : PortSt → PortSt) (x : Nat) : reg (modPort s p f) x = reg s x := rfl
@[simp] theorem reg_modCore (s : State) (n : Nat) (f : Core → Core) (x : Nat) : reg (modCore s n f) x = reg s x := rfl
@[simp] theorem reg_send (s : State) (y : Sent) (x : Nat) : reg (send s y) x = reg s x := rfl

@[simp] theorem rf_modTmk (s : State) (f : Tmk → Tmk) (x hi lo : Nat) : rf (modTmk s f) x hi lo = rf s x hi lo := rfl
@[simp] theorem rf_modTrr (s : State) (f : Trr → Trr) (x hi lo : Nat) : rf (modTrr s f) x hi lo = rf s x hi lo := rfl
@[simp] theorem rf_modRdl (s : State) (f : Rdl → Rdl) (x hi lo : Nat) : rf (modRdl s f) x hi lo = rf s x hi lo := rfl
@[simp] theorem rf_modSwg (s : State) (f : Swg → Swg) (x hi lo : Nat) : rf (modSwg s f) x hi lo = rf s x hi lo := rfl
@[simp] theorem rf_modSup (s : State) (f : Sup → Sup) (x hi lo : Nat) : rf (modSup s f) x hi lo = rf s x hi lo := rfl
@[simp] theorem rf_modSns (s : State) (f : Sns → Sns) (x hi lo : Nat) : rf (modSns s f) x hi lo = rf s x hi lo := rfl
@[simp] theorem rf_modLpe (s : State) (f : Lpe → Lpe) (x hi lo : Nat) : rf (modLpe s f) x hi lo = rf s x hi lo := rfl
@[simp] theorem rf_modStp (s : State) (f : Stp → Stp) (x hi lo : Nat) : rf (modStp s f) x hi lo = rf s x hi lo := rfl
@[simp] theorem rf_modCap (s : State) (f : Cap → Cap) (x hi lo : Nat) : rf (modCap s f) x hi lo = rf s x hi lo := rfl
@[simp] theorem rf_modFlt (s : State) (f : Flt → Flt) (x hi lo : Nat) : rf (modFlt s f) x hi lo = rf s x hi lo := rfl
@[simp] theorem rf_modSaf (s : State) (f : Saf → Saf) (x hi lo : Nat) : rf (modSaf s f) x hi lo = rf s x hi lo := rfl
@[simp] theorem rf_modNv (s : State) (f : Nv → Nv) (x hi lo : Nat) : rf (modNv s f) x hi lo = rf s x hi lo := rfl
@[simp] theorem rf_modSvb (s : State) (f : Svb → Svb) (x hi lo : Nat) : rf (modSvb s f) x hi lo = rf s x hi lo := rfl
@[simp] theorem rf_modPair (s : State) (f : Pair → Pair) (x hi lo : Nat) : rf (modPair s f) x hi lo = rf s x hi lo := rfl
@[simp] theorem rf_modTbl (s : State) (f : Tbl → Tbl) (x hi lo : Nat) : rf (modTbl s f) x hi lo = rf s x hi lo := rfl
@[simp] theorem rf_modPort (s : State) (p : Nat) (f : PortSt → PortSt) (x hi lo : Nat) : rf (modPort s p f) x hi lo = rf s x hi lo := rfl
@[simp] theorem rf_modCore (s : State) (n : Nat) (f : Core → Core) (x hi lo : Nat) : rf (modCore s n f) x hi lo = rf s x hi lo := rfl
@[simp] theorem rf_send (s : State) (y : Sent) (x hi lo : Nat) : rf (send s y) x hi lo = rf s x hi lo := rfl

@[simp] theorem rb_modTmk (s : State) (f : Tmk → Tmk) (x i : Nat) : rb (modTmk s f) x i = rb s x i := rfl
@[simp] theorem rb_modTrr (s : State) (f : Trr → Trr) (x i : Nat) : rb (modTrr s f) x i = rb s x i := rfl
@[simp] theorem rb_modRdl (s : State) (f : Rdl → Rdl) (x i : Nat) : rb (modRdl s f) x i = rb s x i := rfl
@[simp] theorem rb_modSwg (s : State) (f : Swg → Swg) (x i : Nat) : rb (modSwg s f) x i = rb s x i := rfl
@[simp] theorem rb_modSup (s : State) (f : Sup → Sup) (x i : Nat) : rb (modSup s f) x i = rb s x i := rfl
@[simp] theorem rb_modSns (s : State) (f : Sns → Sns) (x i : Nat) : rb (modSns s f) x i = rb s x i := rfl
@[simp] theorem rb_modLpe (s : State) (f : Lpe → Lpe) (x i : Nat) : rb (modLpe s f) x i = rb s x i := rfl
@[simp] theorem rb_modStp (s : State) (f : Stp → Stp) (x i : Nat) : rb (modStp s f) x i = rb s x i := rfl
@[simp] theorem rb_modCap (s : State) (f : Cap → Cap) (x i : Nat) : rb (modCap s f) x i = rb s x i := rfl
@[simp] theorem rb_modFlt (s : State) (f : Flt → Flt) (x i : Nat) : rb (modFlt s f) x i = rb s x i := rfl
@[simp] theorem rb_modSaf (s : State) (f : Saf → Saf) (x i : Nat) : rb (modSaf s f) x i = rb s x i := rfl
@[simp] theorem rb_modNv (s : State) (f : Nv → Nv) (x i : Nat) : rb (modNv s f) x i = rb s x i := rfl
@[simp] theorem rb_modSvb (s : State) (f : Svb → Svb) (x i : Nat) : rb (modSvb s f) x i = rb s x i := rfl
@[simp] theorem rb_modPair (s : State) (f : Pair → Pair) (x i : Nat) : rb (modPair s f) x i = rb s x i := rfl
@[simp] theorem rb_modTbl (s : State) (f : Tbl → Tbl) (x i : Nat) : rb (modTbl s f) x i = rb s x i := rfl
@[simp] theorem rb_modPort (s : State) (p : Nat) (f : PortSt → PortSt) (x i : Nat) : rb (modPort s p f) x i = rb s x i := rfl
@[simp] theorem rb_modCore (s : State) (n : Nat) (f : Core → Core) (x i : Nat) : rb (modCore s n f) x i = rb s x i := rfl
@[simp] theorem rb_send (s : State) (y : Sent) (x i : Nat) : rb (send s y) x i = rb s x i := rfl

@[simp] theorem coreOf_modSys (s : State) (f : Sys → Sys) (k : Nat) : coreOf (modSys s f) k = coreOf s k := rfl
@[simp] theorem coreOf_modTmk (s : State) (f : Tmk → Tmk) (k : Nat) : coreOf (modTmk s f) k = coreOf s k := rfl
@[simp] theorem coreOf_modTrr (s : State) (f : Trr → Trr) (k : Nat) : coreOf (modTrr s f) k = coreOf s k := rfl
@[simp] theorem coreOf_modRdl (s : State) (f : Rdl → Rdl) (k : Nat) : coreOf (modRdl s f) k = coreOf s k := rfl
@[simp] theorem coreOf_modSwg (s : State) (f : Swg → Swg) (k : Nat) : coreOf (modSwg s f) k = coreOf s k := rfl
@[simp] theorem coreOf_modSup (s : State) (f : Sup → Sup) (k : Nat) : coreOf (modSup s f) k = coreOf s k := rfl
@[simp] theorem coreOf_modSns (s : State) (f : Sns → Sns) (k : Nat) : coreOf (modSns s f) k = coreOf s k := rfl
@[simp] theorem coreOf_modLpe (s : State) (f : Lpe → Lpe) (k : Nat) : coreOf (modLpe s f) k = coreOf s k := rfl
@[simp] theorem coreOf_modStp (s : State) (f : Stp → Stp) (k : Nat) : coreOf (modStp s f) k = coreOf s k := rfl
@[simp] theorem coreOf_modCap (s : State) (f : Cap → Cap) (k : Nat) : coreOf (modCap s f) k = coreOf s k := rfl
@[simp] theorem coreOf_modFlt (s : State) (f : Flt → Flt) (k : Nat) : coreOf (modFlt s f) k = coreOf s k := rfl
@[simp] theorem coreOf_modSaf (s : State) (f : Saf → Saf) (k : Nat) : coreOf (modSaf s f) k = coreOf s k := rfl
@[simp] theorem coreOf_modNv (s : State) (f : Nv → Nv) (k : Nat) : coreOf (modNv s f) k = coreOf s k := rfl
@[simp] theorem coreOf_modSvb (s : State) (f : Svb → Svb) (k : Nat) : coreOf (modSvb s f) k = coreOf s k := rfl
@[simp] theorem coreOf_modPair (s : State) (f : Pair → Pair) (k : Nat) : coreOf (modPair s f) k = coreOf s k := rfl
@[simp] theorem coreOf_modTbl (s : State) (f : Tbl → Tbl) (k : Nat) : coreOf (modTbl s f) k = coreOf s k := rfl
@[simp] theorem coreOf_modPort (s : State) (p : Nat) (f : PortSt → PortSt) (k : Nat) : coreOf (modPort s p f) k = coreOf s k := rfl
@[simp] theorem coreOf_setReg (s : State) (a : Nat) (v : Word) (k : Nat) : coreOf (setReg s a v) k = coreOf s k := rfl
@[simp] theorem coreOf_setRf (s : State) (a hi lo v : Nat) (k : Nat) : coreOf (setRf s a hi lo v) k = coreOf s k := rfl
@[simp] theorem coreOf_flag (s : State) (a m : Nat) (k : Nat) : coreOf (flag s a m) k = coreOf s k := rfl
@[simp] theorem coreOf_unflag (s : State) (a m : Nat) (k : Nat) : coreOf (unflag s a m) k = coreOf s k := rfl
@[simp] theorem coreOf_send (s : State) (y : Sent) (k : Nat) : coreOf (send s y) k = coreOf s k := rfl

@[simp] theorem portOf_modSys (s : State) (f : Sys → Sys) (k : Nat) : portOf (modSys s f) k = portOf s k := rfl
@[simp] theorem portOf_modTmk (s : State) (f : Tmk → Tmk) (k : Nat) : portOf (modTmk s f) k = portOf s k := rfl
@[simp] theorem portOf_modTrr (s : State) (f : Trr → Trr) (k : Nat) : portOf (modTrr s f) k = portOf s k := rfl
@[simp] theorem portOf_modRdl (s : State) (f : Rdl → Rdl) (k : Nat) : portOf (modRdl s f) k = portOf s k := rfl
@[simp] theorem portOf_modSwg (s : State) (f : Swg → Swg) (k : Nat) : portOf (modSwg s f) k = portOf s k := rfl
@[simp] theorem portOf_modSup (s : State) (f : Sup → Sup) (k : Nat) : portOf (modSup s f) k = portOf s k := rfl
@[simp] theorem portOf_modSns (s : State) (f : Sns → Sns) (k : Nat) : portOf (modSns s f) k = portOf s k := rfl
@[simp] theorem portOf_modLpe (s : State) (f : Lpe → Lpe) (k : Nat) : portOf (modLpe s f) k = portOf s k := rfl
@[simp] theorem portOf_modStp (s : State) (f : Stp → Stp) (k : Nat) : portOf (modStp s f) k = portOf s k := rfl
@[simp] theorem portOf_modCap (s : State) (f : Cap → Cap) (k : Nat) : portOf (modCap s f) k = portOf s k := rfl
@[simp] theorem portOf_modFlt (s : State) (f : Flt → Flt) (k : Nat) : portOf (modFlt s f) k = portOf s k := rfl
@[simp] theorem portOf_modSaf (s : State) (f : Saf → Saf) (k : Nat) : portOf (modSaf s f) k = portOf s k := rfl
@[simp] theorem portOf_modNv (s : State) (f : Nv → Nv) (k : Nat) : portOf (modNv s f) k = portOf s k := rfl
@[simp] theorem portOf_modSvb (s : State) (f : Svb → Svb) (k : Nat) : portOf (modSvb s f) k = portOf s k := rfl
@[simp] theorem portOf_modPair (s : State) (f : Pair → Pair) (k : Nat) : portOf (modPair s f) k = portOf s k := rfl
@[simp] theorem portOf_modTbl (s : State) (f : Tbl → Tbl) (k : Nat) : portOf (modTbl s f) k = portOf s k := rfl
@[simp] theorem portOf_modCore (s : State) (n : Nat) (f : Core → Core) (k : Nat) : portOf (modCore s n f) k = portOf s k := rfl
@[simp] theorem portOf_setReg (s : State) (a : Nat) (v : Word) (k : Nat) : portOf (setReg s a v) k = portOf s k := rfl
@[simp] theorem portOf_setRf (s : State) (a hi lo v : Nat) (k : Nat) : portOf (setRf s a hi lo v) k = portOf s k := rfl
@[simp] theorem portOf_flag (s : State) (a m : Nat) (k : Nat) : portOf (flag s a m) k = portOf s k := rfl
@[simp] theorem portOf_unflag (s : State) (a m : Nat) (k : Nat) : portOf (unflag s a m) k = portOf s k := rfl
@[simp] theorem portOf_send (s : State) (y : Sent) (k : Nat) : portOf (send s y) k = portOf s k := rfl

@[simp] theorem memByte_modSys (s : State) (f : Sys → Sys) (x : Nat) : memByte (modSys s f) x = memByte s x := rfl
@[simp] theorem memByte_modTmk (s : State) (f : Tmk → Tmk) (x : Nat) : memByte (modTmk s f) x = memByte s x := rfl
@[simp] theorem memByte_modTrr (s : State) (f : Trr → Trr) (x : Nat) : memByte (modTrr s f) x = memByte s x := rfl
@[simp] theorem memByte_modRdl (s : State) (f : Rdl → Rdl) (x : Nat) : memByte (modRdl s f) x = memByte s x := rfl
@[simp] theorem memByte_modSwg (s : State) (f : Swg → Swg) (x : Nat) : memByte (modSwg s f) x = memByte s x := rfl
@[simp] theorem memByte_modSup (s : State) (f : Sup → Sup) (x : Nat) : memByte (modSup s f) x = memByte s x := rfl
@[simp] theorem memByte_modSns (s : State) (f : Sns → Sns) (x : Nat) : memByte (modSns s f) x = memByte s x := rfl
@[simp] theorem memByte_modLpe (s : State) (f : Lpe → Lpe) (x : Nat) : memByte (modLpe s f) x = memByte s x := rfl
@[simp] theorem memByte_modStp (s : State) (f : Stp → Stp) (x : Nat) : memByte (modStp s f) x = memByte s x := rfl
@[simp] theorem memByte_modCap (s : State) (f : Cap → Cap) (x : Nat) : memByte (modCap s f) x = memByte s x := rfl
@[simp] theorem memByte_modFlt (s : State) (f : Flt → Flt) (x : Nat) : memByte (modFlt s f) x = memByte s x := rfl
@[simp] theorem memByte_modSaf (s : State) (f : Saf → Saf) (x : Nat) : memByte (modSaf s f) x = memByte s x := rfl
@[simp] theorem memByte_modNv (s : State) (f : Nv → Nv) (x : Nat) : memByte (modNv s f) x = memByte s x := rfl
@[simp] theorem memByte_modSvb (s : State) (f : Svb → Svb) (x : Nat) : memByte (modSvb s f) x = memByte s x := rfl
@[simp] theorem memByte_modPair (s : State) (f : Pair → Pair) (x : Nat) : memByte (modPair s f) x = memByte s x := rfl
@[simp] theorem memByte_modTbl (s : State) (f : Tbl → Tbl) (x : Nat) : memByte (modTbl s f) x = memByte s x := rfl
@[simp] theorem memByte_modPort (s : State) (p : Nat) (f : PortSt → PortSt) (x : Nat) : memByte (modPort s p f) x = memByte s x := rfl
@[simp] theorem memByte_modCore (s : State) (n : Nat) (f : Core → Core) (x : Nat) : memByte (modCore s n f) x = memByte s x := rfl
@[simp] theorem memByte_setReg (s : State) (a : Nat) (v : Word) (x : Nat) : memByte (setReg s a v) x = memByte s x := rfl
@[simp] theorem memByte_setRf (s : State) (a hi lo v : Nat) (x : Nat) : memByte (setRf s a hi lo v) x = memByte s x := rfl
@[simp] theorem memByte_flag (s : State) (a m : Nat) (x : Nat) : memByte (flag s a m) x = memByte s x := rfl
@[simp] theorem memByte_unflag (s : State) (a m : Nat) (x : Nat) : memByte (unflag s a m) x = memByte s x := rfl
@[simp] theorem memByte_send (s : State) (y : Sent) (x : Nat) : memByte (send s y) x = memByte s x := rfl

@[simp] theorem now_modSys (s : State) (f : Sys → Sys)  : now (modSys s f) = now s := rfl
@[simp] theorem now_modTmk (s : State) (f : Tmk → Tmk)  : now (modTmk s f) = now s := rfl
@[simp] theorem now_modTrr (s : State) (f : Trr → Trr)  : now (modTrr s f) = now s := rfl
@[simp] theorem now_modRdl (s : State) (f : Rdl → Rdl)  : now (modRdl s f) = now s := rfl
@[simp] theorem now_modSwg (s : State) (f : Swg → Swg)  : now (modSwg s f) = now s := rfl
@[simp] theorem now_modSup (s : State) (f : Sup → Sup)  : now (modSup s f) = now s := rfl
@[simp] theorem now_modSns (s : State) (f : Sns → Sns)  : now (modSns s f) = now s := rfl
@[simp] theorem now_modLpe (s : State) (f : Lpe → Lpe)  : now (modLpe s f) = now s := rfl
@[simp] theorem now_modStp (s : State) (f : Stp → Stp)  : now (modStp s f) = now s := rfl
@[simp] theorem now_modCap (s : State) (f : Cap → Cap)  : now (modCap s f) = now s := rfl
@[simp] theorem now_modFlt (s : State) (f : Flt → Flt)  : now (modFlt s f) = now s := rfl
@[simp] theorem now_modSaf (s : State) (f : Saf → Saf)  : now (modSaf s f) = now s := rfl
@[simp] theorem now_modNv (s : State) (f : Nv → Nv)  : now (modNv s f) = now s := rfl
@[simp] theorem now_modSvb (s : State) (f : Svb → Svb)  : now (modSvb s f) = now s := rfl
@[simp] theorem now_modPair (s : State) (f : Pair → Pair)  : now (modPair s f) = now s := rfl
@[simp] theorem now_modTbl (s : State) (f : Tbl → Tbl)  : now (modTbl s f) = now s := rfl
@[simp] theorem now_modPort (s : State) (p : Nat) (f : PortSt → PortSt)  : now (modPort s p f) = now s := rfl
@[simp] theorem now_modCore (s : State) (n : Nat) (f : Core → Core)  : now (modCore s n f) = now s := rfl
@[simp] theorem now_setReg (s : State) (a : Nat) (v : Word)  : now (setReg s a v) = now s := rfl
@[simp] theorem now_setRf (s : State) (a hi lo v : Nat)  : now (setRf s a hi lo v) = now s := rfl
@[simp] theorem now_flag (s : State) (a m : Nat)  : now (flag s a m) = now s := rfl
@[simp] theorem now_unflag (s : State) (a m : Nat)  : now (unflag s a m) = now s := rfl
@[simp] theorem now_send (s : State) (y : Sent)  : now (send s y) = now s := rfl

@[simp] theorem roleOf_modTmk (s : State) (f : Tmk → Tmk)  : roleOf (modTmk s f) = roleOf s := rfl
@[simp] theorem roleOf_modTrr (s : State) (f : Trr → Trr)  : roleOf (modTrr s f) = roleOf s := rfl
@[simp] theorem roleOf_modRdl (s : State) (f : Rdl → Rdl)  : roleOf (modRdl s f) = roleOf s := rfl
@[simp] theorem roleOf_modSwg (s : State) (f : Swg → Swg)  : roleOf (modSwg s f) = roleOf s := rfl
@[simp] theorem roleOf_modSup (s : State) (f : Sup → Sup)  : roleOf (modSup s f) = roleOf s := rfl
@[simp] theorem roleOf_modSns (s : State) (f : Sns → Sns)  : roleOf (modSns s f) = roleOf s := rfl
@[simp] theorem roleOf_modLpe (s : State) (f : Lpe → Lpe)  : roleOf (modLpe s f) = roleOf s := rfl
@[simp] theorem roleOf_modStp (s : State) (f : Stp → Stp)  : roleOf (modStp s f) = roleOf s := rfl
@[simp] theorem roleOf_modCap (s : State) (f : Cap → Cap)  : roleOf (modCap s f) = roleOf s := rfl
@[simp] theorem roleOf_modFlt (s : State) (f : Flt → Flt)  : roleOf (modFlt s f) = roleOf s := rfl
@[simp] theorem roleOf_modSaf (s : State) (f : Saf → Saf)  : roleOf (modSaf s f) = roleOf s := rfl
@[simp] theorem roleOf_modNv (s : State) (f : Nv → Nv)  : roleOf (modNv s f) = roleOf s := rfl
@[simp] theorem roleOf_modSvb (s : State) (f : Svb → Svb)  : roleOf (modSvb s f) = roleOf s := rfl
@[simp] theorem roleOf_modPair (s : State) (f : Pair → Pair)  : roleOf (modPair s f) = roleOf s := rfl
@[simp] theorem roleOf_modTbl (s : State) (f : Tbl → Tbl)  : roleOf (modTbl s f) = roleOf s := rfl
@[simp] theorem roleOf_modPort (s : State) (p : Nat) (f : PortSt → PortSt)  : roleOf (modPort s p f) = roleOf s := rfl
@[simp] theorem roleOf_modCore (s : State) (n : Nat) (f : Core → Core)  : roleOf (modCore s n f) = roleOf s := rfl
@[simp] theorem roleOf_setReg (s : State) (a : Nat) (v : Word)  : roleOf (setReg s a v) = roleOf s := rfl
@[simp] theorem roleOf_setRf (s : State) (a hi lo v : Nat)  : roleOf (setRf s a hi lo v) = roleOf s := rfl
@[simp] theorem roleOf_flag (s : State) (a m : Nat)  : roleOf (flag s a m) = roleOf s := rfl
@[simp] theorem roleOf_unflag (s : State) (a m : Nat)  : roleOf (unflag s a m) = roleOf s := rfl
@[simp] theorem roleOf_send (s : State) (y : Sent)  : roleOf (send s y) = roleOf s := rfl

@[simp] theorem isCell_modTmk (s : State) (f : Tmk → Tmk)  : isCell (modTmk s f) = isCell s := rfl
@[simp] theorem isCell_modTrr (s : State) (f : Trr → Trr)  : isCell (modTrr s f) = isCell s := rfl
@[simp] theorem isCell_modRdl (s : State) (f : Rdl → Rdl)  : isCell (modRdl s f) = isCell s := rfl
@[simp] theorem isCell_modSwg (s : State) (f : Swg → Swg)  : isCell (modSwg s f) = isCell s := rfl
@[simp] theorem isCell_modSup (s : State) (f : Sup → Sup)  : isCell (modSup s f) = isCell s := rfl
@[simp] theorem isCell_modSns (s : State) (f : Sns → Sns)  : isCell (modSns s f) = isCell s := rfl
@[simp] theorem isCell_modLpe (s : State) (f : Lpe → Lpe)  : isCell (modLpe s f) = isCell s := rfl
@[simp] theorem isCell_modStp (s : State) (f : Stp → Stp)  : isCell (modStp s f) = isCell s := rfl
@[simp] theorem isCell_modCap (s : State) (f : Cap → Cap)  : isCell (modCap s f) = isCell s := rfl
@[simp] theorem isCell_modFlt (s : State) (f : Flt → Flt)  : isCell (modFlt s f) = isCell s := rfl
@[simp] theorem isCell_modSaf (s : State) (f : Saf → Saf)  : isCell (modSaf s f) = isCell s := rfl
@[simp] theorem isCell_modNv (s : State) (f : Nv → Nv)  : isCell (modNv s f) = isCell s := rfl
@[simp] theorem isCell_modSvb (s : State) (f : Svb → Svb)  : isCell (modSvb s f) = isCell s := rfl
@[simp] theorem isCell_modPair (s : State) (f : Pair → Pair)  : isCell (modPair s f) = isCell s := rfl
@[simp] theorem isCell_modTbl (s : State) (f : Tbl → Tbl)  : isCell (modTbl s f) = isCell s := rfl
@[simp] theorem isCell_modPort (s : State) (p : Nat) (f : PortSt → PortSt)  : isCell (modPort s p f) = isCell s := rfl
@[simp] theorem isCell_modCore (s : State) (n : Nat) (f : Core → Core)  : isCell (modCore s n f) = isCell s := rfl
@[simp] theorem isCell_setReg (s : State) (a : Nat) (v : Word)  : isCell (setReg s a v) = isCell s := rfl
@[simp] theorem isCell_setRf (s : State) (a hi lo v : Nat)  : isCell (setRf s a hi lo v) = isCell s := rfl
@[simp] theorem isCell_flag (s : State) (a m : Nat)  : isCell (flag s a m) = isCell s := rfl
@[simp] theorem isCell_unflag (s : State) (a m : Nat)  : isCell (unflag s a m) = isCell s := rfl
@[simp] theorem isCell_send (s : State) (y : Sent)  : isCell (send s y) = isCell s := rfl

@[simp] theorem modeOf_modTmk (s : State) (f : Tmk → Tmk)  : modeOf (modTmk s f) = modeOf s := rfl
@[simp] theorem modeOf_modTrr (s : State) (f : Trr → Trr)  : modeOf (modTrr s f) = modeOf s := rfl
@[simp] theorem modeOf_modRdl (s : State) (f : Rdl → Rdl)  : modeOf (modRdl s f) = modeOf s := rfl
@[simp] theorem modeOf_modSwg (s : State) (f : Swg → Swg)  : modeOf (modSwg s f) = modeOf s := rfl
@[simp] theorem modeOf_modSup (s : State) (f : Sup → Sup)  : modeOf (modSup s f) = modeOf s := rfl
@[simp] theorem modeOf_modSns (s : State) (f : Sns → Sns)  : modeOf (modSns s f) = modeOf s := rfl
@[simp] theorem modeOf_modLpe (s : State) (f : Lpe → Lpe)  : modeOf (modLpe s f) = modeOf s := rfl
@[simp] theorem modeOf_modStp (s : State) (f : Stp → Stp)  : modeOf (modStp s f) = modeOf s := rfl
@[simp] theorem modeOf_modCap (s : State) (f : Cap → Cap)  : modeOf (modCap s f) = modeOf s := rfl
@[simp] theorem modeOf_modFlt (s : State) (f : Flt → Flt)  : modeOf (modFlt s f) = modeOf s := rfl
@[simp] theorem modeOf_modSaf (s : State) (f : Saf → Saf)  : modeOf (modSaf s f) = modeOf s := rfl
@[simp] theorem modeOf_modNv (s : State) (f : Nv → Nv)  : modeOf (modNv s f) = modeOf s := rfl
@[simp] theorem modeOf_modSvb (s : State) (f : Svb → Svb)  : modeOf (modSvb s f) = modeOf s := rfl
@[simp] theorem modeOf_modPair (s : State) (f : Pair → Pair)  : modeOf (modPair s f) = modeOf s := rfl
@[simp] theorem modeOf_modTbl (s : State) (f : Tbl → Tbl)  : modeOf (modTbl s f) = modeOf s := rfl
@[simp] theorem modeOf_modPort (s : State) (p : Nat) (f : PortSt → PortSt)  : modeOf (modPort s p f) = modeOf s := rfl
@[simp] theorem modeOf_modCore (s : State) (n : Nat) (f : Core → Core)  : modeOf (modCore s n f) = modeOf s := rfl
@[simp] theorem modeOf_setReg (s : State) (a : Nat) (v : Word)  : modeOf (setReg s a v) = modeOf s := rfl
@[simp] theorem modeOf_setRf (s : State) (a hi lo v : Nat)  : modeOf (setRf s a hi lo v) = modeOf s := rfl
@[simp] theorem modeOf_flag (s : State) (a m : Nat)  : modeOf (flag s a m) = modeOf s := rfl
@[simp] theorem modeOf_unflag (s : State) (a m : Nat)  : modeOf (unflag s a m) = modeOf s := rfl
@[simp] theorem modeOf_send (s : State) (y : Sent)  : modeOf (send s y) = modeOf s := rfl

@[simp] theorem running_modTmk (s : State) (f : Tmk → Tmk)  : running (modTmk s f) = running s := rfl
@[simp] theorem running_modTrr (s : State) (f : Trr → Trr)  : running (modTrr s f) = running s := rfl
@[simp] theorem running_modRdl (s : State) (f : Rdl → Rdl)  : running (modRdl s f) = running s := rfl
@[simp] theorem running_modSwg (s : State) (f : Swg → Swg)  : running (modSwg s f) = running s := rfl
@[simp] theorem running_modSup (s : State) (f : Sup → Sup)  : running (modSup s f) = running s := rfl
@[simp] theorem running_modSns (s : State) (f : Sns → Sns)  : running (modSns s f) = running s := rfl
@[simp] theorem running_modLpe (s : State) (f : Lpe → Lpe)  : running (modLpe s f) = running s := rfl
@[simp] theorem running_modStp (s : State) (f : Stp → Stp)  : running (modStp s f) = running s := rfl
@[simp] theorem running_modCap (s : State) (f : Cap → Cap)  : running (modCap s f) = running s := rfl
@[simp] theorem running_modFlt (s : State) (f : Flt → Flt)  : running (modFlt s f) = running s := rfl
@[simp] theorem running_modSaf (s : State) (f : Saf → Saf)  : running (modSaf s f) = running s := rfl
@[simp] theorem running_modNv (s : State) (f : Nv → Nv)  : running (modNv s f) = running s := rfl
@[simp] theorem running_modSvb (s : State) (f : Svb → Svb)  : running (modSvb s f) = running s := rfl
@[simp] theorem running_modPair (s : State) (f : Pair → Pair)  : running (modPair s f) = running s := rfl
@[simp] theorem running_modTbl (s : State) (f : Tbl → Tbl)  : running (modTbl s f) = running s := rfl
@[simp] theorem running_modPort (s : State) (p : Nat) (f : PortSt → PortSt)  : running (modPort s p f) = running s := rfl
@[simp] theorem running_modCore (s : State) (n : Nat) (f : Core → Core)  : running (modCore s n f) = running s := rfl
@[simp] theorem running_setReg (s : State) (a : Nat) (v : Word)  : running (setReg s a v) = running s := rfl
@[simp] theorem running_setRf (s : State) (a hi lo v : Nat)  : running (setRf s a hi lo v) = running s := rfl
@[simp] theorem running_flag (s : State) (a m : Nat)  : running (flag s a m) = running s := rfl
@[simp] theorem running_unflag (s : State) (a m : Nat)  : running (unflag s a m) = running s := rfl
@[simp] theorem running_send (s : State) (y : Sent)  : running (send s y) = running s := rfl

/-- A register read after a register has taken a word. -/
theorem reg_setReg (s : State) (a : Nat) (v : Word) (x : Nat) : reg (setReg s a v) x = if x = a then v else reg s x :=
  kget_kput_at (regReset (roleOf s)) s.regs a x v

@[simp] theorem reg_setReg_same (s : State) (a : Nat) (v : Word) : reg (setReg s a v) a = v := by simp [reg_setReg]

theorem reg_setReg_other (s : State) (a : Nat) (v : Word) (x : Nat) (h : x ≠ a) : reg (setReg s a v) x = reg s x := by
  simp [reg_setReg, h]

/-- A register read after hardware has set bits of a register. -/
theorem reg_flag (s : State) (a m x : Nat) : reg (flag s a m) x = if x = a then reg s a ||| wd m else reg s x :=
  reg_setReg s a (reg s a ||| wd m) x

/-- A core read after an update of a core. -/
theorem coreOf_modCore (s : State) (n : Nat) (f : Core → Core) (k : Nat) :
    coreOf (modCore s n f) k = if k = n then f (coreOf s n) else coreOf s k := kget_kput Core.init s.cores n k _

@[simp] theorem coreOf_modCore_same (s : State) (n : Nat) (f : Core → Core) : coreOf (modCore s n f) n = f (coreOf s n) := by
  simp [coreOf_modCore]

theorem coreOf_modCore_other (s : State) (n : Nat) (f : Core → Core) (k : Nat) (h : k ≠ n) : coreOf (modCore s n f) k = coreOf s k := by
  simp [coreOf_modCore, h]

/-- A port read after an update of a port. -/
theorem portOf_modPort (s : State) (p : Nat) (f : PortSt → PortSt) (k : Nat) :
    portOf (modPort s p f) k = if k = p then f (portOf s p) else portOf s k := kget_kput PortSt.init s.ports p k _

@[simp] theorem portOf_modPort_same (s : State) (p : Nat) (f : PortSt → PortSt) : portOf (modPort s p f) p = f (portOf s p) := by
  simp [portOf_modPort]

/-- A command of a part in reset does nothing; out of reset it takes effect. -/
theorem live_of_reset (s : State) (f : State → State) (h : s.sys.inReset = true) : live s f = s := by simp [live, h]

theorem live_of_run (s : State) (f : State → State) (h : s.sys.inReset = false) : live s f = f s := by simp [live, h]

end Sys2Proof.Machine
end

