-- ==== Sys2Proof/Laws/Cores.lean ====
section
/-! SUPPORT. What the shared operations of the Zynul cores do: an issue, an end of an instruction, a result with its
flags, a compare, a trap, and an access to a scratchpad or to the shared memories. -/

namespace Sys2Proof.Machine

open Sys2Proof

/-- A good word is read without effect. -/
theorem eccRead_good (s : State) (t a : Nat) (h : kget 0 s.flt.ecc (eccKey t a) = 0) : eccRead s t a = (s, true) := by
  simp [eccRead, h]

/-- An issued instruction has its own effect. -/
theorem zynul_issues (s : State) (n : CoreId) (q : Pred) (f : State → State) (h : issues s n q = true) :
    zynul n.val q s f = .next (f s) := by
  simp only [issues, Bool.and_eq_true, Bool.not_eq_true', beq_iff_eq] at h
  obtain ⟨⟨⟨⟨⟨h1, h2⟩, h3⟩, h4⟩, h5⟩, h6⟩ := h
  simp only [boundaryDue, Bool.or_eq_false_iff] at h3
  simp [zynul, live, issue, fetchRun, h1, h2, h3, h4, h6, eccRead_good s _ _ h5]

/-- A suppressed instruction ends after 1 cycle (R270). -/
theorem zynul_suppressed (s : State) (n : CoreId) (q : Pred) (f : State → State) (h : suppressed s n q = true) :
    zynul n.val q s f = .next (finish s n.val 1) := by
  simp only [suppressed, Bool.and_eq_true, Bool.not_eq_true', beq_iff_eq] at h
  obtain ⟨⟨⟨⟨⟨h1, h2⟩, h3⟩, h4⟩, h5⟩, h6⟩ := h
  simp only [boundaryDue, Bool.or_eq_false_iff] at h3
  simp [zynul, live, issue, fetchRun, h1, h2, h3, h4, h6, eccRead_good s _ _ h5]

/-- A core updated with its own value is the core as it was. -/
theorem onlyCore_modCore (s : State) (n : Nat) (f : Core → Core) : OnlyCore s (modCore s n f) n :=
  ⟨fun _ h => coreOf_modCore_other s n f _ h, rfl⟩

theorem onlyCore_trans {s t u : State} {n : Nat} (h1 : OnlyCore s t n) (h2 : OnlyCore t u n) : OnlyCore s u n := by
  refine ⟨fun m h => (h2.1 m h).trans (h1.1 m h), ?_⟩
  have a := h1.2
  have b := h2.2
  rw [← b] at a
  exact a

/-- The end of an instruction that branches nowhere. -/
theorem advanced_endPlain (c : Core) (cyc : Nat) : Advanced c (endPlain c cyc) cyc := by
  refine ⟨rfl, rfl, fun h => ?_, fun h => ?_, fun h => ?_, rfl, rfl⟩
  · have h1 : (c.loopCnt != 0 && c.pc == c.loopEnd) = false := by
      rcases h with h | h <;> simp [h]
    simp only [endPlain, stepEnd, advance, h1, Bool.false_and, Bool.false_eq_true, if_false, and_self]
  · simp [endPlain, stepEnd, advance, spend, h]
  · simp [endPlain, stepEnd, advance, spend, h]

/-- A general register read after one is written: g0 stays 0. -/
theorem gGet_gPut (c : Core) (r k : Nat) (v : Word) : gGet (gPut c r v) k = if k = 0 then 0 else if k = r then v else gGet c k := by
  unfold gGet gPut
  by_cases hk : k = 0
  · simp [hk]
  · by_cases hr : r = 0
    · simp [hr, hk]
    · simp [hr, hk, kget_kput]

theorem gOf_finish (s : State) (n cyc r : Nat) : gOf (finish s n cyc) n r = gOf s n r := by
  unfold gOf finish
  rw [coreOf_modCore_same]
  rfl

/-- A result with its flags, where they take no trap (R273, R275). -/
theorem putRes_wrote (s : State) (n : CoreId) (gd : Nat) (cyc : Nat) (r : FRes)
    (h : rb s (coreCtrl n) 2 = false ∨ Nat.land r.2 28 = 0) : Wrote s (putRes s n gd cyc r) n gd r.1 r.2 cyc := by
  have e : putRes s n gd cyc r = finish (setF (setG s n gd r.1) n r.2) n cyc := by
    unfold putRes complete
    have hrb : rb (setF (setG s n gd r.1) n r.2) (coreCtrl n) 2 = rb s (coreCtrl n) 2 := rfl
    rw [hrb]
    rcases h with h | h
    · simp [h]
    · have h2 : (Nat.land r.2 28 != 0) = false := by rw [h]; rfl
      simp only [h2, Bool.and_false, Bool.false_eq_true, if_false]
  have hc : coreOf (putRes s n gd cyc r) n =
      endPlain { gPut (coreOf s n) gd r.1 with fpsr := (coreOf s n).fpsr ||| BitVec.ofNat 8 r.2 } cyc := by
    rw [e, finish, coreOf_modCore_same, setF, coreOf_modCore_same, setG, coreOf_modCore_same]; rfl
  have hg : ∀ k, gOf (putRes s n gd cyc r) n k = gGet (gPut (coreOf s n) gd r.1) k := by
    intro k; unfold gOf; rw [hc]; rfl
  have ho : OnlyCore s (putRes s n gd cyc r) n := by
    rw [e]
    exact onlyCore_trans (onlyCore_trans (onlyCore_modCore _ _ _) (onlyCore_modCore _ _ _)) (onlyCore_modCore _ _ _)
  refine ⟨?_, ?_, by rw [hc]; rfl, by rw [hc]; rfl, by rw [hc]; rfl, by rw [hc]; rfl, ?_, ho⟩
  · rw [hg, gGet_gPut]; split <;> simp
  · intro k hk
    rw [hg, gGet_gPut, if_neg hk]
    unfold gOf gGet
    split <;> simp_all
  · rw [hc]
    exact advanced_endPlain { gPut (coreOf s n) gd r.1 with fpsr := (coreOf s n).fpsr ||| BitVec.ofNat 8 r.2 } cyc

/-- Entry to a trap (R287). -/
theorem trapEnter_trapped (s : State) (n cause : Nat) (epc : Word) (nested : Bool) :
    Trapped (coreOf s n) (coreOf (trapEnter s n cause epc nested) n) cause epc (vector s n cause) nested ∧
      OnlyCore s (trapEnter s n cause epc nested) n := by
  refine ⟨?_, onlyCore_modCore _ _ _⟩
  unfold Trapped trapEnter
  rw [coreOf_modCore_same]
  exact ⟨rfl, rfl, rfl, rfl⟩

/-- A synchronous trap outside a handler. -/
theorem trapHere_trapped (s : State) (n cause : Nat) (h : (coreOf s n).exl = false) :
    Trapped (coreOf s n) (coreOf (trapHere s n cause) n) cause (coreOf s n).pc (vector s n cause) false ∧ OnlyCore s (trapHere s n cause) n := by
  unfold trapHere trap
  simp only [h]
  exact trapEnter_trapped s n cause _ false

/-- A store to the shared memories keeps their canonical form, and leaves every byte outside it. -/
theorem memWrite_ok (s : State) (a : Nat) (bs : List Byte) (w : MemoryOk s) :
    MemoryOk (memWrite s a bs) ∧ ∀ x, (x < a ∨ a + bs.length ≤ x) → memByte (memWrite s a bs) x = memByte s x := by
  have h : (memWrite s a bs).mem = bytesPut s.mem a bs := by
    unfold memWrite eccWrite; simp only []; split <;> simp
  refine ⟨?_, fun x hx => ?_⟩
  · unfold MemoryOk; rw [h]; exact bytesPut_wf bs _ _ w
  · unfold memByte; rw [h]; exact byte_bytesPut_other bs _ _ _ hx

end Sys2Proof.Machine
end

