-- ==== Sys2Proof/Laws/Ops.lean ====
section
/-! SUPPORT. What each shared operation can do: fields and flags of registers, reports, register gates, the queues of
ports, reads after writes of memory, discards, the turn-off and the entry to SAFE. -/

namespace Sys2Proof.Machine

open Sys2Proof

/-! Registers. -/

theorem rf_setRf_same (s : State) (a hi lo v : Nat) (h : hi < 32) (hv : v < 2 ^ (hi + 1 - lo)) : rf (setRf s a hi lo v) a hi lo = v := by
  simp [rf, setRf, fld_setFld_same _ _ _ _ h hv]

theorem rf_setRf_apart (s : State) (a hi lo v x y : Nat) (h : x < lo ∨ hi < y) : rf (setRf s a hi lo v) a x y = rf s a x y := by
  simp [rf, setRf, fld_setFld_other _ _ _ _ _ _ h]

theorem rb_setRf_apart (s : State) (a hi lo v i : Nat) (h : i < lo ∨ hi < i) : rb (setRf s a hi lo v) a i = rb s a i := by
  simp [rb, setRf, bitOf_setFld_other _ _ _ _ _ h]

theorem reg_setRf_other (s : State) (a hi lo v x : Nat) (h : x ≠ a) : reg (setRf s a hi lo v) x = reg s x := reg_setReg_other s a _ x h

/-- Hardware sets the bits of a mask and no other (R12). -/
theorem rb_flag (s : State) (a m i : Nat) (h : i < 32) : rb (flag s a m) a i = (rb s a i || m.testBit i) := by
  unfold rb
  rw [reg_flag, if_pos rfl, bitOf_eq, bitOf_eq, BitVec.getLsbD_or, wd, BitVec.getLsbD_ofNat, decide_eq_true h, Bool.true_and]

theorem reg_flag_other (s : State) (a m x : Nat) (h : x ≠ a) : reg (flag s a m) x = reg s x := by rw [reg_flag, if_neg h]

/-- Hardware clears the bits of a mask, where software has set none in the same cycle (R13). -/
theorem reg_unflag_alone (s : State) (a m x : Nat) (h : ∀ e ∈ s.swSet, e.1 ≠ a) :
    reg (unflag s a m) x = if x = a then reg s a &&& ~~~ wd m else reg s x := by
  have e : s.swSet.filter (fun e => e.1 == a) = [] := by
    rw [List.filter_eq_nil_iff]; intro e he; simpa using h e he
  unfold unflag
  rw [e, reg_setReg, List.foldl_nil, show ~~~(0 : Word) = BitVec.allOnes 32 from rfl, BitVec.and_allOnes]

/-- A counter rises by one up to its greatest value. -/
theorem rf_countUp (s : State) (a hi lo : Nat) (h : hi < 32) :
    rf (countUp s a hi lo) a hi lo = min (2 ^ (hi + 1 - lo) - 1) (rf s a hi lo + 1) := by
  have l : rf s a hi lo < 2 ^ (hi + 1 - lo) := fld_lt _ _ _
  unfold countUp
  by_cases c : rf s a hi lo + 1 < 2 ^ (hi + 1 - lo)
  · simp only [c, if_true]
    rw [rf_setRf_same _ _ _ _ _ h c]; omega
  · simp only [c, if_false]; omega

theorem reg_countUp_other (s : State) (a hi lo x : Nat) (h : x ≠ a) : reg (countUp s a hi lo) x = reg s x := by
  unfold countUp
  by_cases c : rf s a hi lo + 1 < 2 ^ (hi + 1 - lo)
  · simp only [c, if_true]; exact reg_setRf_other s a hi lo _ x h
  · simp only [c, if_false]

/-! Reports and gates. -/

/-- With no injection armed a report is one message on the bus and nothing else (R353, R377). -/
theorem report_quiet (s : State) (src : Nat) (k : Kind) (a : Nat) (h : notInjecting s = true) :
    report s src k a = modFlt s fun f => { f with bus := f.bus ++ [(now s, faultMsg src k a false)] } := by
  have q : rb s (fltR 0x080) 31 = false := by simpa [notInjecting] using h
  unfold report
  simp [q, whenB]

theorem report_reports (s : State) (src : Nat) (k : Kind) (a : Nat) (h : notInjecting s = true) : Reports s (report s src k a) src k a := by
  rw [report_quiet s src k a h]; rfl

/-- An access fault comes from unit 31 of the block that owns the address (R355). -/
theorem accessFault_reports (s : State) (a : Nat) (h : notInjecting s = true) (ha : 0x40000000 ≤ a) (hb : a < 0x400F0000) :
    Reports s (accessFault s a) (32 * blockOf a + 31) .access a := by
  unfold accessFault
  rw [if_pos ⟨ha, hb⟩]
  exact report_reports s _ _ _ h

theorem gate_of_reachable (s : State) (a : Nat) (f : State → State) (h : reachable s a = true) : gate s a f = f s := by simp [gate, h]

theorem gate_of_unreachable (s : State) (a : Nat) (f : State → State) (h : reachable s a = false) : gate s a f = accessFault s a := by simp [gate, h]

/-! Ports. -/

/-- A packet joins the queue of its class on one port; no other port changes (R132). -/
theorem enqueue_queued (s : State) (p : Nat) (pk : Packet) : Queued s (enqueue s p pk (pk.typ == 0x20)) p pk := by
  unfold Queued enqueue
  simp only [portOf_modPort_same]
  by_cases h1 : pk.cls = 1
  · simp only [if_pos h1]
  · by_cases h2 : pk.cls = 2
    · simp only [if_neg h1, if_pos h2]
    · by_cases h3 : pk.typ = 0x20
      · simp only [if_neg h1, if_neg h2, if_pos h3, beq_iff_eq]
      · simp only [if_neg h1, if_neg h2, if_neg h3, beq_iff_eq]

theorem portOf_enqueue_other (s : State) (p k : Nat) (pk : Packet) (d : Bool) (h : k ≠ p) : portOf (enqueue s p pk d) k = portOf s k := by
  unfold enqueue; rw [portOf_modPort, if_neg h]

/-! Memory. -/

/-- The bytes of a number give it back. -/
theorem leNat_natLe (n v : Nat) : leNat (natLe n v) = v % 256 ^ n := by
  induction n generalizing v with
  | zero => simp [natLe, leNat, Nat.mod_one]
  | succ n ih =>
    have e : 256 ^ (n + 1) = 256 * 256 ^ n := by ring
    rw [natLe, leNat, ih, BitVec.toNat_ofNat, e, Nat.mod_mul]

theorem length_natLe (n v : Nat) : (natLe n v).length = n := by
  induction n generalizing v with
  | zero => rfl
  | succ n ih => simp [natLe, ih]

/-- Bytes read back as they were written. -/
theorem bytesGet_bytesPut (l : List Byte) : ∀ (m : List Host.Cell) (a : Nat), bytesGet (bytesPut m a l) a l.length = leNat l := by
  induction l with
  | nil => intro m a; rfl
  | cons b l ih =>
    intro m a
    simp only [bytesPut, List.length_cons, bytesGet, leNat]
    rw [ih, byte_bytesPut_other l _ _ _ (Or.inl (Nat.lt_succ_self a)), byte_bytePut, if_pos rfl]

/-- A number of n bytes reads back from where it was written. -/
theorem bytesGet_natLe (m : List Host.Cell) (a n v : Nat) : bytesGet (bytesPut m a (natLe n v)) a n = v % 256 ^ n := by
  have h := bytesGet_bytesPut (natLe n v) m a
  rwa [length_natLe, leNat_natLe] at h

theorem eccWrite_mem (s : State) (t a : Nat) : (eccWrite s t a).mem = s.mem := by
  unfold eccWrite
  dsimp only
  split <;> rfl

/-- A write of bytes stands in memory and reads back; every other byte stands as it was. -/
theorem memWrite_bytes (s : State) (a : Nat) (bs : List Byte) :
    bytesGet (memWrite s a bs).mem a bs.length = leNat bs ∧ ∀ x, (x < a ∨ a + bs.length ≤ x) → memByte (memWrite s a bs) x = memByte s x := by
  have e : (memWrite s a bs).mem = bytesPut s.mem a bs := by unfold memWrite; rw [eccWrite_mem]
  refine ⟨by rw [e]; exact bytesGet_bytesPut bs s.mem a, fun x hx => ?_⟩
  unfold memByte
  rw [e]
  exact byte_bytesPut_other bs s.mem a x hx

/-! The turn-off and SAFE. -/

/-- A channel that is low is not changed by a mask that leaves out its bit. -/
theorem gcmd_keep (g : BitVec 8) (m : Nat) (h : ¬ g.toNat.testBit m) : g = g &&& ~~~ (1#8 <<< m) := by
  have z : g.getLsbD m = false := by simpa [BitVec.getLsbD] using h
  apply BitVec.eq_of_getLsbD_eq
  intro i hi
  rw [BitVec.getLsbD_and, BitVec.getLsbD_not, decide_eq_true hi, Bool.true_and, BitVec.getLsbD_shiftLeft, decide_eq_true hi, Bool.true_and]
  by_cases e : i = m
  · subst e; rw [z, Bool.false_and]
  · by_cases l : i < m
    · simp [l]
    · have : (1#8).getLsbD (i - m) = false := by rw [BitVec.getLsbD_one]; simp; omega
      simp [l, this]

theorem gcmdFall_low (g : Swg) (t d m : Nat) : (gcmdFall g t d m).gcmd = g.gcmd &&& ~~~ (1#8 <<< m) := by
  unfold gcmdFall
  split
  · rfl
  · exact gcmd_keep _ _ ‹_›

theorem gcmdDrop_low (g : Swg) (t m : Nat) : (gcmdDrop g t m).gcmd = g.gcmd &&& ~~~ (1#8 <<< m) := by
  unfold gcmdDrop
  split
  · rfl
  · exact gcmd_keep _ _ ‹_›

/-- Once every channel has fallen no gate command is high. -/
theorem gcmdFall_all (g : Swg) (t d : Nat) : ((List.range 8).foldl (fun g m => gcmdFall g t d m) g).gcmd = 0 := by
  simp only [List.range, List.range.loop, List.foldl, gcmdFall_low]
  generalize g.gcmd = x
  revert x; decide

theorem gcmdDrop_all (g : Swg) (t : Nat) : ((List.range 8).foldl (fun g m => gcmdDrop g t m) g).gcmd = 0 := by
  simp only [List.range, List.range.loop, List.foldl, gcmdDrop_low]
  generalize g.gcmd = x
  revert x; decide

/-- The turn-off of a cell that runs none drops every gate command, raises SOFTOFF and ends in state B, or X (R206, R207). -/
theorem turnOff_effect (s : State) (hc : isCell s = true) (hq : s.swg.seqAt = none) :
    (turnOff s).swg.gcmd = 0 ∧ (turnOff s).swg.softoff = true ∧ (turnOff s).swg.seqAt = some (now s) ∧
      (turnOff s).rdl.state = (if s.rdl.state = .bypassed then .bypassed else .blocked) ∧ (turnOff s).regs = s.regs ∧ (turnOff s).flt = s.flt := by
  unfold turnOff turnOffAt
  simp only [hc, hq, Bool.not_true, Bool.false_eq_true, if_false, Option.isSome_none]
  refine ⟨?_, rfl, rfl, rfl, rfl, rfl⟩
  exact gcmdDrop_all s.swg (now s)

theorem turnOffAt_mode (s : State) (t : Nat) : modeOf (turnOffAt s t) = modeOf s := by
  unfold turnOffAt
  split
  · rfl
  · split <;> rfl

theorem turnOff_mode (s : State) : modeOf (turnOff s) = modeOf s := turnOffAt_mode s (now s)

theorem discard_mode (s : State) (c r b : Nat) (w : Bool) : modeOf (discard s c r b w) = modeOf s := by
  unfold discard
  generalize (if c = 2 then 4 else if c = 4 then 3 else if c = 3 then 2 else 1) = pri
  dsimp only
  split
  · split
    · rfl
    · split <;> rfl
  · rfl

theorem dropWork_mode (s : State) : modeOf (dropWork s) = modeOf s := by
  simp [dropWork, List.range, List.range.loop]

theorem peerTell_mode (s : State) (v : Bool) : modeOf (peerTell s v) = modeOf s := by
  unfold peerTell partnerCmd
  split
  · split
    · exact modeOf_modPort _ _ _
    · rfl
  · rfl

theorem intlDrop_mode (s : State) : modeOf (intlDrop s) = modeOf s := by
  unfold intlDrop
  split
  · dsimp only
    split
    · exact (peerTell_mode _ _).trans ((discard_mode _ _ _ _ _).trans ((modeOf_modPair _ _).trans (dropWork_mode s)))
    · exact (discard_mode _ _ _ _ _).trans ((modeOf_modPair _ _).trans (dropWork_mode s))
  · exact modeOf_modPair _ _

theorem safeEffects_mode (s : State) : modeOf (safeEffects s) = modeOf s := by
  unfold safeEffects
  dsimp only
  split
  · split
    · simp only [modeOf_modRdl, modeOf_modSwg, turnOff_mode, intlDrop_mode, modeOf_modLpe, modeOf_modFlt]
    · simp only [modeOf_modRdl, modeOf_modSwg, intlDrop_mode, modeOf_modLpe, modeOf_modFlt]
  · simp only [intlDrop_mode, modeOf_modLpe, modeOf_modFlt]

/-- The cause and the mask bit of an entry to SAFE leave the mode. -/
theorem safeCore_tail (u : State) :
    modeOf (if modeOf u = .safe then modSys u fun y => { y with cmd := if y.cmdDue then none else y.cmd }
      else safeEffects (modSys (testLeave (if modeOf u = .boot then aliveBegin u else u)) fun y => { y with mode := .safe, cmd := none })) = .safe := by
  split
  · exact ‹modeOf u = .safe›
  · rw [safeEffects_mode]; rfl

/-- An entry to SAFE, or a further cause in it, leaves the part in SAFE (R452), unless it behaves as R3 gives. -/
theorem safeCore_mode (s : State) (bit : Nat) (src : Option Nat) (hb : s.sys.barred = false) : modeOf (safeCore s bit src) = .safe := by
  unfold safeCore
  rw [if_neg (by simp [hb])]
  exact safeCore_tail _

/-- In SAFE no transition is dropped. -/
theorem dropTrans_safe (s : State) (h : modeOf s = .safe) : dropTrans s = s := by
  unfold dropTrans
  split
  · rfl
  · rw [if_neg (by simp [h])]

/-- A part in SAFE stays there. -/
theorem safeCore_stays (s : State) (bit : Nat) (src : Option Nat) (h : modeOf s = .safe) : modeOf (safeCore s bit src) = .safe := by
  unfold safeCore
  split
  · exact h
  · exact safeCore_tail _

theorem report_mode (s : State) (src : Nat) (k : Kind) (a : Nat) : modeOf (report s src k a) = modeOf s := by
  unfold report whenB
  dsimp only
  split <;> rfl

theorem demandOut_mode (s : State) : modeOf (demandOut s) = modeOf s := by unfold demandOut; split <;> rfl

theorem testAbort_mode (s : State) : modeOf (testAbort s) = modeOf s := by unfold testAbort; split <;> rfl

theorem modeOf_ite_modSaf (c : Bool) (u : State) (f : Saf → Saf) : modeOf (if c then modSaf u f else u) = modeOf u := by
  cases c <;> rfl

theorem foldl_setReg_sys (f : Nat → Nat) (g : Nat → Word) (l : List Nat) :
    ∀ s : State, (l.foldl (fun s k => setReg s (f k) (g k)) s).sys = s.sys := by
  induction l with
  | nil => intro s; rfl
  | cons a l ih => intro s; exact (ih _).trans rfl

theorem wordsBack_sys (w : List Word) (s : State) : (wordsBack w s).sys = s.sys := foldl_setReg_sys _ _ _ s

theorem transBack_barred (u : Undo) (s : State) : (transBack u s).sys.barred = s.sys.barred := rfl

/-- A part that is not barred stays so when a transition is dropped. -/
theorem dropTrans_barred (s : State) : (dropTrans s).sys.barred = s.sys.barred := by
  unfold dropTrans
  split
  · rfl
  · split
    · exact (transBack_barred _ _).trans (congrArg Sys.barred (wordsBack_sys _ s))
    · rfl

theorem demandCore_mode (s : State) (bit : Nat) (h : modeOf s = .safe) : modeOf (demandCore s bit) = .safe := by
  unfold demandCore
  rw [dropTrans_safe s h]
  dsimp only
  cases (s.saf.demand == 0 && s.saf.act.isNone) with
  | true =>
    rw [if_neg (by decide), modeOf_ite_modSaf]
    apply safeCore_stays
    split
    · rw [demandOut_mode, modeOf_modSaf, report_mode, testAbort_mode]; exact h
    · rw [modeOf_modSaf, report_mode, testAbort_mode]; exact h
  | false => rw [if_pos (by decide)]; exact h

/-! Packets. -/

/-- A whole packet of one TYPE for this node reaches its function. -/
theorem ownIn_takes (s : State) (typs : List Nat) (pk : Packet) (f : State → State) (ho : isOwn s pk.dest = true)
    (ht : typs.contains pk.typ.toNat = true) (hk : packetOk pk = true) : ownIn s typs pk f = f s := by simp only [ownIn, ho, ht, hk, Bool.and_self, if_true]

/-- A whole packet of one TYPE that goes one hop reaches its function. -/
theorem hopIn_takes (s : State) (typ : Nat) (pk : Packet) (f : State → State) (ht : pk.typ.toNat = typ) (hk : packetOk pk = true) :
    hopIn s typ pk f = f s := by simp [hopIn, ht, hk]

/-- A packet that is not whole reaches no function. -/
theorem ownIn_drops (s : State) (typs : List Nat) (pk : Packet) (f : State → State) (hk : packetOk pk = false) : ownIn s typs pk f = s := by
  simp [ownIn, hk]

theorem hopIn_drops (s : State) (typ : Nat) (pk : Packet) (f : State → State) (hk : packetOk pk = false) : hopIn s typ pk f = s := by
  simp [hopIn, hk]

/-- Hardware ends an action: the bit clears where software has set nothing in the cycle (R13). -/
theorem actionEnd_quiet (s : State) (a m : Nat) (again : State → State) (h : s.swSet = []) :
    actionEnd s a m again = setReg s a (reg s a &&& ~~~ wd m) := by simp [actionEnd, h]

/-- Every entry to SAFE leaves the part in SAFE; in upper roles it is a demand as well (Table 15-2). -/
theorem enterSafe_mode (s : State) (bit : Nat) (src : Option Nat) (hb : s.sys.barred = false) : modeOf (enterSafe s bit src) = .safe := by
  have hd : (dropTrans s).sys.barred = false := (dropTrans_barred s).trans hb
  unfold enterSafe
  dsimp only
  split
  · exact demandCore_mode _ _ (safeCore_mode _ _ _ hd)
  · exact safeCore_mode _ _ _ hd

end Sys2Proof.Machine
end

