-- ==== Sys2Proof/WellFormed.lean ====
section
/-! DEFINITION. Which commands can occur at all: operands inside the widths and lengths that the spec gives what
arrives from outside. `exec` gives every command a meaning, well-formed or not. -/

namespace Sys2Proof

/-- LEN is a field of eight bits (Table 4-3). -/
def Packet.ok (p : Packet) : Bool := decide (p.payload.length < 256)

/-- A CAPS block is 36 bytes (R98). -/
def capsOk (b : List Byte) : Bool := b.length == 36

/-- A count of disagreements saturates at 0xFFFF_FFFE (R109). -/
def eyeOk (n : Nat) : Bool := decide (n ≤ 0xFFFFFFFE)

/-- A UDP payload of an XHP datagram: at most 1,462 bytes (R318). -/
def udpOk (bs : List Byte) : Bool := decide (bs.length ≤ 1462)

/-- Data bytes that a data length code stands for (ISO 11898-1). -/
def dlcLen (fdf : Bool) (d : BitVec 4) : Nat :=
  if d.toNat ≤ 8 then d.toNat
  else if fdf then [12, 16, 20, 24, 32, 48, 64].getD (d.toNat - 9) 64 else 8

/-- A CAN frame: an 11-bit identifier stands in [28:18], a remote frame carries no data and is no FD frame, and
the data are as long as the code says (Table 18-3). -/
def CanFrame.ok (f : CanFrame) : Bool :=
  (f.ide || f.ident.toNat % 2 ^ 18 == 0) && !(f.rtr && f.fdf) &&
    (f.data.length == (if f.rtr then 0 else dlcLen f.fdf f.dlc))

/-- The checks of a command's operands; a command without one is always well-formed. (Log 8 DESIGN CHOICE safe.) -/
def Instr.wellFormed : Instr → Bool
  | .powerOnReset => true
  | .resetRelease _ _ => true
  | .rstNLow => true
  | .chipReset _ => true
  | .feedValid _ _ _ _ => true
  | .feedLoss _ _ _ _ => true
  | .registerWrite _ _ _ _ => true
  | .timeLowWordRead _ _ => true
  | .modeCmdPrecharge _ => true
  | .modeCmdReady _ => true
  | .modeCmdRun _ => true
  | .modeCmdSafe _ => true
  | .modeCmdChipReset _ => true
  | .modeCmdTakeEffect => true
  | .degradedTimerExpiry => true
  | .blockResetRelease _ => true
  | .stationTickBoundary _ => true
  | .tickSymbolLaunch => true
  | .tickSymbolRx _ _ _ _ => true
  | .tickApply _ => true
  | .tickExpectedTimeout _ => true
  | .tickIdleWake => true
  | .tickPeriodWrite _ _ => true
  | .renumberRx _ _ => true
  | .periodBoundary => true
  | .renumberBoundary => true
  | .ticknoReqRx _ => true
  | .couple _ => true
  | .decouple _ => true
  | .pt0ValidSet _ _ => true
  | .remeasure _ => true
  | .ptStep _ _ _ => true
  | .cmpArm _ _ _ => true
  | .cmpFire _ => true
  | .cmpCancel _ _ _ => true
  | .launchArm _ _ _ => true
  | .launchFire _ => true
  | .portCfgWrite _ _ _ => true
  | .portRetrain _ _ => true
  | .portDetectDone _ => true
  | .timingExchangeRx _ _ _ _ _ => true
  | .portTrainDone _ _ _ => true
  | .portLockDone _ => true
  | .capsBlockRx _ b => capsOk b
  | .portActive _ => true
  | .forwardedPassStart _ => true
  | .stageTimeout _ => true
  | .portRetryHoldEnd _ => true
  | .linkLoss _ _ => true
  | .idleEntry _ => true
  | .idleExit _ => true
  | .eyeStart _ _ => true
  | .eyeAbort _ _ => true
  | .eyePointDone n => eyeOk n
  | .packetTxStart _ => true
  | .c1WindowStart => true
  | .c1WindowEnd => true
  | .packetRoute _ k _ => k.ok
  | .packetAcceptLocal _ k _ => k.ok
  | .wrReqRx k => k.ok
  | .rdReqRx k => k.ok
  | .wrCplRx k => k.ok
  | .rdCplRx k => k.ok
  | .errCplRx k => k.ok
  | .cplTimeout _ _ => true
  | .creditRx _ _ _ _ => true
  | .alignRx _ k => k.ok
  | .discStart _ _ => true
  | .probeRx _ => true
  | .probeViaRx k => k.ok
  | .probeTimeout => true
  | .identRx k => k.ok
  | .assignRx _ k => k.ok
  | .delegateRx k => k.ok
  | .delegateReturnRx _ _ => true
  | .newLinkHandle _ _ _ k => k.ok
  | .routeRepair _ => true
  | .cayLaunchWrite _ _ => true
  | .cayenneRx _ _ _ _ => true
  | .cayHoldExpiry => true
  | .cayStatClear _ _ => true
  | .rdlEnableWrite _ _ => true
  | .rakeRx _ k _ => k.ok
  | .rakeOutputStart _ => true
  | .levelGoWrite _ _ => true
  | .selectionRun => true
  | .levelDeadline => true
  | .binsRx _ k => k.ok
  | .descentRx _ k => k.ok
  | .descentDeadline => true
  | .edgeInstant => true
  | .legBEdge => true
  | .fracOffEdge => true
  | .insertRx k => k.ok
  | .deadtimeTurnOn _ => true
  | .fbCheck _ _ => true
  | .gfbChange _ _ => true
  | .desatBlankEnd _ => true
  | .desatDetect _ => true
  | .hardShortDetect _ => true
  | .softoffRelease => true
  | .offCheck _ => true
  | .uvArm _ => true
  | .uvTrip _ => true
  | .preTickSnapshot => true
  | .tickGroupStart => true
  | .sarConversionDone _ _ => true
  | .ditherBlockEnd _ => true
  | .sdResult _ _ => true
  | .sdLoss _ => true
  | .pulseEdge _ _ => true
  | .noPulse => true
  | .classSJob _ => true
  | .swapRequest _ _ => true
  | .lpeEnableWrite _ _ _ => true
  | .cascadeEnWrite _ _ _ => true
  | .cascadeRun _ => true
  | .add _ _ _ _ _ => true
  | .sub _ _ _ _ _ => true
  | .and _ _ _ _ _ => true
  | .or _ _ _ _ _ => true
  | .xor _ _ _ _ _ => true
  | .shl _ _ _ _ _ => true
  | .shr _ _ _ _ _ => true
  | .sra _ _ _ _ _ => true
  | .adds _ _ _ _ _ => true
  | .subs _ _ _ _ _ => true
  | .min _ _ _ _ _ => true
  | .max _ _ _ _ _ => true
  | .minu _ _ _ _ _ => true
  | .maxu _ _ _ _ _ => true
  | .mul _ _ _ _ _ => true
  | .mulh _ _ _ _ _ => true
  | .mulhu _ _ _ _ _ => true
  | .mulq15 _ _ _ _ _ => true
  | .mulq31 _ _ _ _ _ => true
  | .div _ _ _ _ _ => true
  | .divu _ _ _ _ _ => true
  | .rem _ _ _ _ _ => true
  | .remu _ _ _ _ _ => true
  | .clz _ _ _ _ => true
  | .abs _ _ _ _ => true
  | .addi _ _ _ _ _ => true
  | .andi _ _ _ _ _ => true
  | .ori _ _ _ _ _ => true
  | .xori _ _ _ _ _ => true
  | .shli _ _ _ _ _ => true
  | .shri _ _ _ _ _ => true
  | .srai _ _ _ _ _ => true
  | .movl _ _ _ _ => true
  | .movh _ _ _ _ => true
  | .fadd _ _ _ _ _ => true
  | .fsub _ _ _ _ _ => true
  | .fmul _ _ _ _ _ => true
  | .fdiv _ _ _ _ _ => true
  | .fmin _ _ _ _ _ => true
  | .fmax _ _ _ _ _ => true
  | .fabs _ _ _ _ => true
  | .fneg _ _ _ _ => true
  | .fsqrt _ _ _ _ => true
  | .itof _ _ _ _ => true
  | .utof _ _ _ _ => true
  | .ftoiN _ _ _ _ => true
  | .ftoiZ _ _ _ _ => true
  | .ftoiFl _ _ _ _ => true
  | .ftoiCe _ _ _ _ => true
  | .fmac _ _ _ _ _ => true
  | .fmsc _ _ _ _ _ => true
  | .ld _ _ _ _ _ _ => true
  | .ldu _ _ _ _ _ _ => true
  | .st _ _ _ _ _ _ => true
  | .amoSwap _ _ _ _ _ => true
  | .amoAdd _ _ _ _ _ => true
  | .cmp _ _ _ _ _ _ _ => true
  | .cmpi _ _ _ _ _ _ _ => true
  | .fcmp _ _ _ _ _ _ _ => true
  | .plog _ _ _ _ _ _ _ => true
  | .br _ _ _ => true
  | .call _ _ _ => true
  | .jr _ _ _ _ => true
  | .jalr _ _ _ _ _ => true
  | .loop _ _ _ _ => true
  | .twait _ _ => true
  | .twaitWake _ => true
  | .wait _ _ _ _ => true
  | .waitWake _ => true
  | .rte _ _ => true
  | .syncslot _ _ => true
  | .sig _ _ _ => true
  | .halt _ _ => true
  | .mfc _ _ _ _ => true
  | .mtc _ _ _ _ => true
  | .fsend _ _ _ _ => true
  | .frecv _ _ _ _ => true
  | .lut _ _ _ _ _ => true
  | .interruptEntry _ => true
  | .nmtEntry _ => true
  | .coreHalt _ _ => true
  | .coreHalted _ => true
  | .coreRun _ _ => true
  | .coreStep _ _ => true
  | .scratchpadWindowAccess _ _ _ => true
  | .tpBudgetCheck => true
  | .referenceRx k => k.ok
  | .tickReportRx k => k.ok
  | .tblBufWrite k => k.ok
  | .tableCommit _ => true
  | .tableLoadDone => true
  | .qspiProgram _ => true
  | .qspiErase _ => true
  | .qspiOpDone => true
  | .ethFrameRx _ _ _ => true
  | .ethFrameTx _ _ => true
  | .ethLinkDown _ => true
  | .svFrameRx _ _ _ _ => true
  | .svTimeout _ => true
  | .svPublish _ => true
  | .gooseChange _ _ => true
  | .gooseRepeat _ => true
  | .gooseFrameRx _ _ _ _ => true
  | .gooseTtl _ => true
  | .xhpCommandRx _ _ _ _ bs => udpOk bs
  | .xhpRead => true
  | .xhpWrite => true
  | .xhpFread => true
  | .xhpFwrite => true
  | .xhpEcho => true
  | .xhpNotifySend => true
  | .capArm _ _ => true
  | .capStop _ _ => true
  | .capTrigWrite _ _ => true
  | .capRow => true
  | .capSlotFree _ _ => true
  | .capStreamSend => true
  | .streamRx k => k.ok
  | .faultMsgCapture _ => true
  | .eventRx k => k.ok
  | .pendClear _ _ _ => true
  | .firstFaultClear _ _ => true
  | .injectArm _ _ => true
  | .aliveEdge => true
  | .aliveKickWrite _ _ => true
  | .kickWindowExpiry => true
  | .tempSample _ _ => true
  | .railSample _ _ => true
  | .roMeasure _ _ _ _ => true
  | .selfTestDone _ => true
  | .demandInput _ _ => true
  | .inDiscrep => true
  | .fbDiscrep _ _ _ => true
  | .actFbCheck _ _ => true
  | .actTimeEnd => true
  | .bypassRequest _ _ => true
  | .islandLatch _ => true
  | .aliveSilent => true
  | .testStart => true
  | .testNow _ _ => true
  | .testStepEnd _ _ _ => true
  | .testGapEnd => true
  | .testOverdue => true
  | .unlockAttempt _ _ => true
  | .lockoutEnd => true
  | .safLockCmd _ _ => true
  | .unlockTimeout => true
  | .passwordSet _ _ => true
  | .serviceRecord _ _ => true
  | .logAck _ _ => true
  | .intlRecheck _ => true
  | .mirrorRx k => k.ok
  | .yieldReq _ => true
  | .relinquish _ => true
  | .yieldDrop => true
  | .syncReq _ => true
  | .stateImageSend => true
  | .stateImageRx _ _ => true
  | .peerUpd _ _ => true
  | .canInitClear _ _ => true
  | .canBusJoin => true
  | .canTxReq _ _ _ => true
  | .canTxAttempt _ => true
  | .canAttemptEnd _ => true
  | .canRecover _ _ => true
  | .canRecoveryDone => true
  | .canCancel _ _ => true
  | .canFrameRx f => match f with
    | .valid f => f.ok
    | .error _ => true
  | .rxPop _ _ => true
  | .keyAccept _ _ => true
  | .touchMeasure _ _ => true
  | .touchBaselineDrift _ => true
  | .touchStuck _ => true
  | .ledBlink _ => true
  | .svcDetChange _ => true
  | .feedImbalance _ _ => true
  | .passTickSymbolSend => true
  | .symbolRealign _ => true
  | .codeViolation _ => true
  | .ethLinkUp _ => true
  | .demandInputRelease _ => true
  | .testCurrentFail _ _ _ => true
  | .illegalInstruction _ _ => true

end Sys2Proof
end

