-- ==== Sys2Proof/Tests/Slice0.lean ====
section
/-! SUPPORT. Tests: ill-formed commands refused, worked examples of the spec, and for each statement states that meet
its hypotheses. -/

namespace Sys2Proof.Tests

open Sys2Proof Sys2Proof.Machine

set_option Elab.async false

/-- The state after a command. -/
def after (c : Instr) (s : State) : State :=
  match exec c s with
  | .next t => t
  | _ => s

/-- An ARM part out of reset, in BOOT. -/
def armBase : State :=
  { State.reset with sys := { State.reset.sys with inReset := false, porRst := false, strap := 1 } }

/-- A running core. -/
def zCore : Core :=
  { Core.init with st := .running, pc := 0x100, ev := 0x100, g := [(5, 0x10000000), (6, 0x20000000), (7, 3), (8, 0x100), (9, 0x200)] }

/-- An ARM part whose ZC0 is a given core. -/
def zWith (c : Core) : State := { armBase with cores := [(0, c)] }

def zState : State := zWith zCore

def zLoop : State := zWith { zCore with loopCnt := 2, loopEnd := 0x100, loopTop := 0xF0 }

def zWait : State := zWith { zCore with st := .waiting, wait := some (.flags 2 0x100) }

def zTwait : State := zWith { zCore with st := .waiting, wait := some .tick, woken := true }

def zExl : State := zWith { zCore with exl := true }

/-- The fault hub's line is up and enabled. -/
def zIrq : State :=
  setReg (setReg (zWith { zCore with ie := true }) (fltR 0x004) 0x80000000) (zccR 0x010) 0x7FFF

def zNmt : State := setReg (zWith { zCore with nmtReq := true }) (coreCtrl 0) 2

def zHalted : State := setReg (zWith { zCore with st := .halted }) (zccR 0x14) 0x10000000

def zHaltReq : State := setReg zState (coreCtrl 0) 0x40

/-- A packet of TYPE 0x30. -/
def zPacket : Packet := ⟨0x40, 0x80, 0x30, 3, 7, [1, 2]⟩

/-- An image of a packet without payload in the data scratchpad: TYPE 0x20, CLASS 3. -/
def zSend : State := zWith { zCore with dscr := bytesPut [] 0x10000000 (natLe 4 0x00040000 ++ natLe 4 0x00830007) }

def zRecv : State := zWith { zCore with rxq := [zPacket] }

/-- The lookup table of the spec's example: X0 0.0, INVSTEP 0.01, Y = 0, 10, 25, 45, 70. -/
def zLut : State :=
  zWith { zCore with dscr := bytesPut [] 0x10000000 (natLe 4 0 ++ natLe 4 0x3C23D70A ++ natLe 4 5 ++ natLe 4 0 ++ natLe 4 0 ++
    natLe 4 0x41200000 ++ natLe 4 0x41C80000 ++ natLe 4 0x42340000 ++ natLe 4 0x428C0000) }

theorem wit_issues : issues zState 0 ⟨0, false⟩ = true := by decide

theorem wit_compare : issues zState 0 ⟨0, false⟩ = true ∧ (coreOf zState 0).exl = false ∧ fpIsNan 0x3F800000 = false ∧
    ([true, false, true] : List Bool)[2]? = some true := by decide
theorem wit_fpOpen : issues zState 0 ⟨0, false⟩ = true ∧ rb zState (coreCtrl 0) 2 = false := by decide
theorem wit_nans : fpIsNan 0x7FC00001 = true ∧ fpIsNan 0xFF800001 = true ∧ fpIsNan (fpAdd 0x7F800000 0xFF800000).1 = true := by decide
theorem wit_ftoi : bitOf 0x4F000000 31 = false ∧ 158 ≤ fld 0x4F000000 30 23 ∧ fpIsNan 0x4F000000 = false := by decide
theorem wit_suppressed : suppressed zState 0 ⟨0, true⟩ = true := by decide
theorem wit_access : issues zState 0 ⟨0, false⟩ = true ∧ notInjecting zState = true ∧
    (gOf zState 0 5 + BitVec.ofInt 32 ((4 : BitVec 10).toInt * 4)).toNat = 0x10000010 ∧ (gOf zState 0 6).toNat = 0x20000000 ∧
    kget 0 zState.flt.ecc (eccKey 7 0x10000010) = 0 := by decide
theorem wit_amo : issues zState 0 ⟨0, false⟩ = true ∧ notInjecting zState = true ∧ (gOf zState 0 6).toNat = 0x20000000 ∧
    kget 0 zState.flt.ecc (eccKey 0 0x20000000) = 0 := by decide
theorem wit_branch : issues zState 0 ⟨0, false⟩ = true ∧ (coreOf zState 0).loopCnt = 0 ∧ (coreOf zState 0).stepOne = false ∧
    (coreOf zState 0).exl = false ∧ gOf zState 0 7 = 3 ∧ (gOf zState 0 5 + (0 : BitVec 12).signExtend 32).toNat % 4 = 0 := by decide
theorem wit_loopEnd : issues zLoop 0 ⟨0, false⟩ = true ∧ (coreOf zLoop 0).loopCnt ≠ 0 ∧ (coreOf zLoop 0).pc = (coreOf zLoop 0).loopEnd := by decide
theorem wit_wait : issues zState 0 ⟨0, false⟩ = true ∧ gOf zState 0 8 ≠ 0 ∧ evNow (coreOf zState 0) &&& gOf zState 0 8 ≠ 0 ∧
    gOf zState 0 9 ≠ 0 ∧ evNow (coreOf zState 0) &&& gOf zState 0 9 = 0 ∧ (gOf zState 0 7).toNat % 4 ≠ 0 ∧ (gOf zState 0 8).toNat % 4 = 0 := by decide
theorem wit_waitWake : zWait.sys.inReset = false ∧ (coreOf zWait 0).st = .waiting ∧ (coreOf zWait 0).wait = some (.flags 2 (gOf zWait 0 8)) ∧
    evNow (coreOf zWait 0) &&& gOf zWait 0 8 ≠ 0 := by decide
theorem wit_twaitWake : zTwait.sys.inReset = false ∧ (coreOf zTwait 0).st = .waiting ∧ (coreOf zTwait 0).wait = some .tick ∧
    (coreOf zTwait 0).woken = true ∧ (coreOf zTwait 0).stepOne = false := by decide
theorem wit_control : issues zState 0 ⟨0, false⟩ = true ∧ (coreOf zState 0).loopCnt = 0 ∧ (coreOf zState 0).exl = false ∧ (coreOf zState 0).stepOne = false := by decide
theorem wit_trap : issues zState 0 (wordPred 0xFC000000) = true ∧ wordLegal 0xFC000000 = false ∧ (coreOf zState 0).exl = false := by decide
theorem wit_double : issues zExl 0 (wordPred 0xFC000000) = true ∧ wordLegal 0xFC000000 = false ∧ (coreOf zExl 0).exl = true ∧ notInjecting zExl = true := by decide
theorem wit_interrupt : zIrq.sys.inReset = false ∧ coreRuns (coreOf zIrq 0) = true ∧ irqDue zIrq 0 = true ∧ haltDue zIrq 0 = false ∧ nmtDue zIrq 0 = false := by decide
theorem wit_nmt : zNmt.sys.inReset = false ∧ coreRuns (coreOf zNmt 0) = true ∧ nmtDue zNmt 0 = true ∧ haltDue zNmt 0 = false ∧ (coreOf zNmt 0).exl = false := by decide
theorem wit_fsend : issues zSend 0 ⟨0, false⟩ = true ∧ fsendStatus zSend 0 (gOf zSend 0 5).toNat = 0 ∧ zSend.flt.ecc = [] := by decide
theorem wit_frecv : issues zRecv 0 ⟨0, false⟩ = true ∧ (coreOf zRecv 0).rxq = [zPacket] ∧ zPacket.len < 256 ∧
    (gOf zRecv 0 5).toNat % 4 = 0 ∧ 0x10000000 ≤ (gOf zRecv 0 5).toNat ∧ (gOf zRecv 0 5).toNat + 4 * (2 + zPacket.len) ≤ 0x10040000 ∧
    notInjecting zRecv = true ∧ (coreOf zState 0).rxq = [] := by decide
theorem wit_lut : issues zLut 0 ⟨0, false⟩ = true ∧ imageFits (gOf zLut 0 5).toNat 4 = true ∧
    (scrWord zLut 0 ((gOf zLut 0 5).toNat + 8)).toNat = 5 ∧ imageFits (gOf zLut 0 5).toNat 9 = true ∧ zLut.flt.ecc = [] ∧ rb zLut (coreCtrl 0) 2 = false := by decide
theorem wit_coreRun : zHalted.sys.inReset = false ∧ reachable zHalted (coreCtrl 0) = true ∧ (coreOf zHalted 0).st = .halted ∧ zHalted.sys.stopped = false ∧
    reachable zHalted (zccR 0x18) = true ∧ (reg zHalted (zccR 0x14)).toNat = 0x10000000 ∧ notInjecting zHalted = true ∧
    kget 0 zHalted.flt.ecc (eccKey 7 0x10000000) = 0 := by decide
theorem wit_coreHalt : zWait.sys.inReset = false ∧ reachable zWait (coreCtrl 0) = true ∧ (coreOf zWait 0).st = .waiting ∧
    (coreOf zState 0).st = .running ∧ reachable zState (coreCtrl 0) = true := by decide
theorem wit_coreHalted : zHaltReq.sys.inReset = false ∧ coreRuns (coreOf zHaltReq 0) = true ∧ haltDue zHaltReq 0 = true ∧ reachable zHaltReq (coreCtrl 0) = true := by decide
theorem wit_step : (State.withFetchWord State.reset 8 0).pending = [] ∧ { State.reset with pending := [Instr.rstNLow] }.pending = Instr.rstNLow :: [] ∧
    armBase.pending = [] ∧ armBase.sys.inReset = false ∧ armBase.trr.orphans = [] ∧ armBase.lpe.runs = [] ∧ armBase.tmk.ticked = false ∧
    (armBase.sns.rawA, armBase.sns.rawB) = (armBase.sns.pa, armBase.sns.pb) ∧ State.reset.pending = [] ∧ State.reset.sys.inReset = true := by decide
theorem wit_operations : armBase.sys.inReset = false ∧ issues zState 0 ⟨0, false⟩ = true ∧ State.reset.sys.inReset = true := by decide
theorem wit_chipReset : armBase.sys.inReset = false ∧ armBase.sys.discLt ≠ some (now armBase) ∧ armBase.saf.unlocked = false ∧
    armBase.sys.testmode = false := by decide
theorem wit_release : State.reset.sys.inReset = true ∧ railsOut State.reset = false ∧ State.reset.sys.porRst = true ∧ (State.reset.nv.bypassed, State.reset.saf.closed) = (false, none) ∧
    State.reset.sys.barred = false ∧ [Role.ofStrap 0, Role.ofStrap 1, Role.ofStrap 7] = [.cell, .arm, .reserved] ∧
    (modNv State.reset fun v => { v with bypassed := true }).nv.bypassed = true := by decide
theorem wit_slot : slotPick armBase false false = none ∧ slotPick armBase true false = some (false, false) := by decide
theorem wit_blockRelease : kget none (modFlt { armBase with lt := 600 } fun f => { f with rstBlk := [(13, some 100)] }).flt.rstBlk 13 = some 100 ∧
    100 + 500 ≤ now { armBase with lt := 600 } := by decide
def inMode (m : Mode) (s : State) : State := modSys s fun y => { y with mode := m }
/-- The ARM part with an aligned tick on P0. -/
def alignedArm : State :=
  let s := modPort (setReg armBase (trlCfg 0) 0x00810019) 0 fun t => { t with stage := .active, fwd := true }
  modTmk s fun t => { t with ticked := true, held := true, okNo := true, path := true }
def cellBase : State := modSys armBase fun y => { y with strap := 0 }
theorem wit_modeCmd : isUpper armBase = true ∧ modeOf armBase = .boot ∧ (modSys (modTrr zState fun t => { t with nodeId := some 5 }) fun y =>
    { y with bootOk := true }).trr.nodeId.isSome = true ∧ anyCoreRuns zState = true ∧ ttAlign (inMode .precharge alignedArm) = true ∧ byHost .xhp = true ∧ byHost (.core 0) = false ∧
    maskEmpty (inMode .safe armBase) = true ∧ inDemand armBase = false ∧ quarHeld armBase = false ∧ reg armBase (fltR 0x090) = 0 ∧
    quarHeld (quarantine armBase 1) = true ∧ reg (setReg armBase (fltR 0x090) 1) (fltR 0x090) ≠ 0 ∧ isCell cellBase = true := by decide
def cmdState (m : Mode) (c : Nat) (s : State) : State := modSys (inMode m s) fun y => { y with cmd := some (c, true), cmdDue := true }
theorem wit_takeEffect : refuseCode (modSys (modTrr zState fun t => { t with nodeId := some 5 }) fun y => { y with bootOk := true }) true 1 = 0 ∧
    ttAlign (cmdState .precharge 2 alignedArm) = true ∧ ttAlign (cmdState .precharge 2 armBase) = false ∧
    (cmdState .precharge 2 armBase).sys.cmd = some (2, true) ∧ refuseCode (cmdState .ready 3 armBase) true 3 = 0 := by decide
theorem wit_degTimer : (modFlt (inMode .degraded { armBase with lt := 9 }) fun f => { f with degTil := some 9, degNow := 511 }).flt.degTil = some 9 ∧
    9 ≤ now { armBase with lt := 9 } := by decide
theorem wit_safe_low : TurnOffLow armBase ∧ armBase.sys.barred = false ∧ armBase.sys.undo = none ∧ refuseCode (cmdState .safe 2 armBase) true 2 = 0 :=
  ⟨by intro h; exact absurd h (by decide), by decide, by decide, by decide⟩
def fedBoth : State := modSup armBase fun u => { u with validA := true, validB := true }
theorem wit_feeds : feedUv armBase ≤ (3000 : BitVec 16).toNat ∧ (3000 : BitVec 16).toNat ≤ feedOv armBase ∧ armBase.sup.validB = false ∧ fedBoth.sup.validA = true ∧
    notInjecting fedBoth = true ∧ feedOv armBase < (6000 : BitVec 16).toNat ∧ (100 : BitVec 16).toNat < feedUv armBase ∧ 500000 ≤ (500000 : BitVec 24).toNat ∧ (3000 : BitVec 16).toNat + 200 < (3201 : BitVec 16).toNat := by decide
theorem wit_registerWrite : armBase.sys.inReset = false ∧ notInjecting armBase = true ∧ armBase.hwSet = [] ∧
    (reachable armBase (sysR 0x020) && reachable armBase (tmkR 0x004) && reachable armBase (supR 0) && reachable armBase (safR 0x010)) = true ∧
    rwlOpen armBase = false ∧ modeOf armBase = .boot ∧ modeOf (inMode .run armBase) ≠ .boot := by decide
def unlocked (s : State) : State := modNv (modSaf s fun f => { f with unlocked := true }) fun v => { v with default := false }
theorem wit_rwl : us (Nat.max 1 (fld (0x00010000 : Word) 23 16)) < tpWidth (unlocked armBase) ∧ inPeriph (sysR 0x020) = true ∧ (rowOf (sysR 0x020)).isSome = true ∧
    rwlOpen (unlocked armBase) = true ∧ logIsFull (unlocked armBase) = false ∧ (Size.b ≠ .w) ∧ (0x20000000 : Word).toNat % 4 = 0 ∧
    (0x20000003 : Word).toNat % 4 ≠ 0 := by decide
theorem wit_timeRead : armBase.sys.inReset = false ∧ kget none armBase.flt.rstBlk 1 = none ∧ (isCell armBase, isCell cellBase) = (false, true) := by decide
theorem test_timeRead : (after (.timeLowWordRead .xhp 0x40010030) { armBase with lt := 0x500000007 }).rdata = 7 ∧
    (after (.timeLowWordRead .xhp 0x40010030) { armBase with lt := 0x500000007 }).tmk.latch = [(0x34, 5)] := by decide
/-- The STATION part out of reset at LT 10,000. -/
def stationBase : State := { modSys armBase (fun y => { y with strap := 3 }) with lt := 10000 }
/-- The ARM part with a symbol on P0 that has come. -/
def symbolArm : State := modTmk { alignedArm with lt := 10000 } fun t => { t with sym := [(0, some ⟨1, 0, 5000000⟩)] }
theorem wit_tick : generates stationBase = true ∧ stationBase.tmk.nextPs ≤ nowPs stationBase ∧ generates symbolArm = false ∧ primPort symbolArm = some 0 ∧
    kget none symbolArm.tmk.sym 0 = some ⟨1, 0, 5000000⟩ ∧ secPort symbolArm = none ∧ symInstant symbolArm 0 ⟨1, 0, 5000000⟩ ≤ nowPs symbolArm ∧
    expectPs { alignedArm with lt := 10000 } ≤ nowPs { alignedArm with lt := 10000 } ∧ inPass alignedArm = false ∧ tickChoice alignedArm = none ∧
    tickChoice symbolArm = some (symInstant symbolArm 0 ⟨1, 0, 5000000⟩, false, false, false) := by decide
def launchStation : State := modTmk stationBase fun t => { t with ticked := true, nextPs := 21000000 }
def passArm : State := modPort (modTmk { alignedArm with lt := 10000 } fun t => { t with lastPs := 10000000 }) 0 fun t => { t with stage := .train, fwdPass := true }
def idleArm : State := modPort (setReg (modTmk { alignedArm with lt := 10000 } fun t => { t with lastPs := 9000000 }) (trlCfg 1) 0x0081001B) 1 fun t =>
  { t with stage := .active, idleTx := true }
theorem wit_symbols : generates launchStation = true ∧ launchStation.tmk.nextPs ≤ nowPs launchStation + leadPs launchStation ∧
    selPort alignedArm = some 0 ∧ primPort alignedArm = some 0 ∧ isLive alignedArm 0 = true ∧ alignedArm.tmk.held = true ∧ (nextGrid alignedArm).setWidth 6 = (1 : BitVec 6) ∧
    inPass passArm = true ∧ selPort passArm = some 0 ∧ arrivalPs passArm ≤ nowPs passArm ∧ inTime alignedArm 0 = true ∧ packetOk ⟨0, 0, 0x0E, 2, 0, [1]⟩ = true ∧
    downPorts idleArm = [1] ∧ (portOf idleArm 1).idleTx = true ∧ generates idleArm = false ∧ arrivalPs idleArm ≤ nowPs idleArm + 200000 ∧
    isActive alignedArm 0 = true := by decide
theorem test_symbolForwarded : (after (.tickSymbolRx 0 1 0 20000000) idleArm).sent.length = 1 := by decide
theorem wit_noAnnounce : armBase.tmk.annPer = none ∧ generates armBase = false ∧ notInjecting armBase = true := by decide
def validStation : State := setReg (setReg (modPort stationBase 0 fun t => { t with stage := .active }) (trlCfg 0) 0x0081001B) (tmkR 0) 2
theorem wit_period : snsOkFor stationBase 20 = true ∧ lpeOkFor stationBase 20 = true ∧ generates validStation = true ∧ rb validStation (tmkR 0) 1 = true ∧
    preRun validStation = true ∧ activeDowns validStation = [0] ∧ rb stationBase (tmkR 0) 1 = false ∧ notInjecting stationBase = true ∧
    isActive alignedArm 0 = true ∧ selPort alignedArm = some 0 ∧ roleOf alignedArm ≠ .station ∧ alignedArm.tmk.okNo = true ∧
    since (modTmk alignedArm fun t => { t with annPer := some (128, 0), annNum := some (0, 5) }) 0 = some 0 ∧
    dirOf validStation 0 = 3 ∧ isActive validStation 0 = true := by decide
theorem test_coupleAnnounces : (portOf (after (.couple .xhp) validStation) 0).q2.length = 1 ∧ rb (after (.couple .xhp) validStation) (tmkR 0) 2 = false := by decide
def cmpArmed : State := setReg armBase (cmpR 7 0) 0x00010400
def lchArmed : State := modStp (setReg (setReg stationBase (lchR 3 0) 0x00014200) (stpR 0) 0x806) fun t => { t with link := 1 }
theorem wit_cmp : cmpState cmpArmed 7 = 1 ∧ cmpBase cmpArmed 7 = 0 ∧ cmpMatch cmpArmed 7 0 = true ∧ rb cmpArmed (cmpR 7 0) 10 = true ∧
    lchState lchArmed 3 = 1 ∧ ethUp lchArmed (lchPort lchArmed 3) = true ∧ lchDiff lchArmed 3 = 0 ∧ lchNear lchArmed 3 = false ∧ reachable lchArmed (lchR 3 8) = true ∧ reachable armBase (tmkR 0x114) = true ∧ lchYields lchArmed 3 = false ∧
    kget 0 lchArmed.stp.busyTil (lchPort lchArmed 3) ≤ now lchArmed ∧ cmpState armBase 0 ≠ 1 ∧ lchState armBase 0 ≠ 1 := by decide
theorem test_cmpFar : cmpState (after (.cmpArm .xhp 0 0x80000000) armBase) 0 = 9 ∧ cmpState (after (.cmpArm .xhp 0 1) armBase) 0 = 1 ∧
    cmpState (after (.cmpArm .xhp 0 0) armBase) 0 = 8 := by decide
theorem wit_hop : (portOf (modPort armBase 5 fun t => { t with stage := .train, hop := List.replicate 63 1 }) 5).hop.length = 63 ∧
    primPort (modPort alignedArm 0 fun t => { t with stage := .train, hop := List.replicate 63 200 }) = some 0 ∧ armBase.tmk.ticked = false := by decide
theorem test_hopMean : (portOf (after (.timingExchangeRx 0 0 0 0 200) (modPort alignedArm 0 fun t => { t with stage := .train, hop := List.replicate 63 200 })) 0).hopDelay = 100 := by decide
def lane (p : Nat) (f : PortSt → PortSt) (s : State) : State := modPort (setReg s (trlCfg p) 0x0081001B) p f
/-- A STATION part at LT 2,000,000 with a DOWN port P5 in a given state. -/
def laneAt (f : PortSt → PortSt) : State := lane 5 (fun t => { f t with powered := true }) { stationBase with lt := 2000000 }
theorem wit_lanes : mayTrain (laneAt fun t => { t with stage := .detect }) 5 = true ∧
    cleanLock (laneAt fun t => { t with stage := .lock }) (portOf (laneAt fun t => { t with stage := .lock }) 5) = true ∧
    stageLimit (portOf (laneAt fun t => { t with stage := .train }) 5) = some (ms 2) ∧ ms 2 ≤ now (laneAt fun t => { t with stage := .train }) ∧
    dirOf (laneAt id) 5 ≠ 0 ∧ (laneAt id).eye = none ∧ notInjecting (laneAt id) = true ∧ rb (laneAt id) (trlCfg 5) 3 = true ∧
    bitOf (reg (setReg (laneAt id) (trlR 0x250) 0x02000000) (trlR 0x250)) 25 = true := by decide
theorem wit_capsBlock : capsGoodBlock (List.replicate 32 0 ++ natLe 4 0x8A9136AA) = true := by decide +kernel
theorem test_linkFail : (after (.stageTimeout 5) (laneAt fun t => { t with stage := .train, retries := 7 })).flt.bus.length = 1 := by decide
def quietLane : State := setReg (setReg (laneAt fun t => { t with stage := .active, fwd := true }) (trlR 0x250) 0x04000000) (trlCfg 5) 0x0081001B
theorem wit_links : (laneAt fun t => { t with stage := .active }).eye = none ∧ isActive (laneAt fun t => { t with stage := .active }) 5 = true ∧
    lossSeen (laneAt id) 5 .rxcLoss = true ∧ reachable (laneAt id) (trlCfg 5) = true ∧ portConfigBroken (laneAt id) = false ∧ dirOf (laneAt id) 5 ≠ 0 ∧
    isActive (laneAt id) 5 = false ∧ portIdle (portOf quietLane 5) = true ∧ rb quietLane (trlCfg 5) 4 = true ∧ bitOf (reg quietLane (trlR 0x250)) 26 = true ∧
    max (portOf quietLane 5).lastTx (portOf quietLane 5).quietFrom + symbols (max 32 (rf quietLane (trlCfg 5) 19 8)) ≤ now quietLane ∧ inC1Win quietLane = false ∧
    portConfigBroken stationBase = false ∧ rf stationBase (trlCfg 0) 2 0 = 0 ∧ reachable stationBase (trlCfg 0) = true ∧ isUpper stationBase = true ∧
    fld 0x0081001B 2 0 = 3 ∧ bitOf 0x0081001B 31 = false := by decide
theorem test_sixteenViolations : (portOf (after (.codeViolation 5) (laneAt fun t => { t with stage := .active, errs := List.replicate 15 1999990 })) 5).stage = .detect := by decide
def scanning (sw : Bool) (k : Nat) : State := { setReg { stationBase with lt := 20000 } (trlR 0x040) 0xA8400000 with eye := some ⟨5, sw, k, 0⟩ }
theorem wit_eye : stationBase.eye = none ∧ reachable stationBase (trlR 0x040) = true ∧ stationBase.swSet = [] ∧ fld 0x28A00000 29 27 = 5 ∧ fld 0x28A00000 23 18 = 40 ∧
    fld 0x28A00000 5 0 ≠ 32 ∧ ledgerOk stationBase 20 = true ∧ (scanning true 4031).eye = some ⟨5, true, 4031, 0⟩ ∧
    0 + 2 ^ (rf (scanning true 4031) (trlR 0x040) 23 18) * 4 / 25 ≤ now (scanning true 4031) ∧ reachable (scanning false 0) (trlR 0x040) = true ∧ 40 < fld 0x28A40000 23 18 := by decide
theorem test_eyeLastPoint : (after (.eyePointDone 7) (scanning true 4031)).eye = none ∧ reg (after (.eyePointDone 7) (scanning true 4031)) 0x4002BEFC = 7 := by decide
def netArm (f : PortSt → PortSt) : State := modPort (modTrr { alignedArm with lt := 10000 } fun t => { t with nodeId := some 5 }) 0 f
def evPacket : Packet := ⟨56, 320, 0x21, 2, 0, [1, 2]⟩
def windowArm : State := setReg (netArm fun t => { t with q3m := [zPacket] }) (trrR 0x014) 0x00320000
theorem wit_transmit : isActive (netArm id) 0 = true ∧ (portOf (netArm id) 0).idleTx = false ∧ (portOf (netArm id) 0).lastTx ≤ now (netArm id) ∧
    (∀ n : CoreId, (coreOf (netArm id) n).txq = []) ∧ (portOf (netArm id) 0).qx = [] ∧ (portOf (netArm id) 0).cut = none ∧ notInjecting (netArm id) = true ∧ isCredit evPacket = false ∧ c2Fits (netArm id) evPacket = true ∧
    c3Fits (netArm id) 2 = true ∧ 0 < (10100 - now (netArm id)) * 10 / 256 ∧ c1End (netArm id) ≤ phaseOf (netArm id) ∧ flits zPacket = 2 ∧ inC1Win windowArm = true ∧
    c1Start windowArm ≤ phaseOf windowArm + 100 ∧ phaseOf windowArm < c1End windowArm ∧ c1Start windowArm < c1End windowArm := by decide
theorem test_c2Sent : (after (.packetTxStart 0) (netArm fun t => { t with crC2 := 1, q2 := [evPacket] })).sent = [.packet 0 evPacket false true (packetLine evPacket 0 true)] := by decide +kernel
def farPacket : Packet := ⟨0x40000 - 64, 320, 1, 3, 7, [0x20000000, 1]⟩
theorem wit_route : packetOk farPacket = true ∧ isMine (netArm id) none farPacket = false ∧ outPort (netArm id) none (nodeOf farPacket.dest) = some 0 ∧
    isCell (netArm id) = false ∧ outPort armBase none 3 = none ∧ isRequest farPacket = true ∧ isRequest evPacket = false ∧ isMine armBase none evPacket = false ∧
    packetOk evPacket = true ∧ isOwn (netArm id) 320 = true ∧ isMine (netArm id) (some 0) ⟨0, 0, 0x0E, 2, 0, [1]⟩ = true ∧ isActive (netArm id) 0 = true ∧ dirOf (netArm id) 0 ≠ 4 ∧ (setReg (setReg (netArm id) (trlCfg 1) 0x0081001B) (trrR 0x440) 0xFFFF0000).sys.inReset = false := by decide
/-- A node with a DOWN port P1 whose range holds node 7, and no way up. -/
def rangeArm : State :=
  modPort (setReg (setReg (modTrr armBase fun t => { t with nodeId := some 5 }) (trlCfg 1) 0x0081001B) (trrR 0x440) 0x80070007) 1 fun t => { t with stage := .active }
theorem wit_noRoute : outPort rangeArm none 9 = none ∧ outPort rangeArm none 7 = some 1 ∧ outPort rangeArm (some 0) 7 = some 1 := by decide
def wrPacket : Packet := ⟨320, 65, 1, 3, 7, [0x20000010, 0xAABBCCDD]⟩
def netCell : State := modSys (netArm id) fun y => { y with strap := 0 }
theorem wit_request : packetOk wrPacket = true ∧ isOwn (netArm id) 320 = true ∧ epOf 320 = 0 ∧ isOwn (netArm id) 65 = false ∧ outPort (netArm id) none (nodeOf 65) = some 0 ∧
    kget 0 (netArm id).flt.ecc (eccKey 0 0x20000010) = 0 ∧ isCell netCell = true ∧ modeOf netCell = .boot ∧ reachable netCell 0x4000FFFC = true ∧
    outPort netCell none (nodeOf 65) = some 0 ∧ packetOk ⟨320, 65, 2, 2, 7, [0x20000010, 1]⟩ = true := by decide
theorem test_writeCompletes : (portOf (after (.wrReqRx wrPacket) (netArm id)) 0).q3m = [⟨65, 320, 3, 3, 7, []⟩] ∧
    bytesGet (after (.wrReqRx wrPacket) (netArm id)).mem 0x20000010 4 = 0xAABBCCDD := by decide
def asked : State := modTrr { netArm id with lt := 60000 } fun t => { t with reqs := [{ ep := 0, core := 3, seq := 200, cls := 3, sent := 9000, dest := 65 }] }
theorem wit_completions : packetOk ⟨320, 65, 4, 3, 200, [9]⟩ = true ∧ isOwn asked 320 = true ∧ asked.trr.reqs = [{ ep := 0, core := 3, seq := 200, cls := 3, sent := 9000, dest := 65 }] ∧ epOf 322 = 2 ∧ epOf 321 = 1 ∧ isOwn asked 321 = true ∧
    (coreOf asked 3).rxq.length < 32 ∧ 9000 + cplTimeout asked ≤ now asked ∧ packetOk ⟨320, 65, 0x18, 2, 200, [9]⟩ = true ∧ isUpper asked = true := by decide
theorem test_timeoutReaches : (coreOf (after (.cplTimeout 0 200) asked) 3).rxq = [⟨320, 65, 5, 3, 200, [3]⟩] := by decide
def liveCell : State := modPort (modPort cellBase 0 fun t => { t with stage := .active }) 2 fun t => { t with stage := .active }
theorem wit_cayenne : roleOf rangeArm = .arm ∧ rangeArm.sys.barred = false ∧ liveCell.sys.barred = false ∧ rb rangeArm (trrR 0x024) 31 = false ∧ reachable rangeArm (trrR 0x020) = true ∧ isLive rangeArm 1 = true ∧
    dirOf rangeArm 1 = 3 ∧ isCell liveCell = true ∧ isLive liveCell 0 = true ∧ isLive liveCell 2 = true ∧ notInjecting liveCell = true ∧ bitOf 0x80000000 31 = true ∧
    liveCell.trr.hold = [] := by decide
theorem wit_cayLow : TurnOffLow liveCell := by intro h; exact absurd h (by decide)
theorem test_cayenneFlooded : ((after (.cayenneRx 1 0 5 0) liveCell).sent.any fun x => match x with | .cayenne p sc h _ => p == 2 && sc == 0 && h == 6 | _ => false) = true := by decide
def walkStation (f : Walk → Walk) : State := modWalk (modTrr (modPort (setReg stationBase (trlCfg 0) 0x0081001B) 0 fun t => { t with stage := .active }) fun t => { t with nodeId := some 0 }) f
theorem wit_walk : roleOf (walkStation id) = .station ∧ modeOf (walkStation id) = .boot ∧ (walkStation id).trr.walk.running = false ∧
    (List.range 6).filter (isActive (walkStation id)) = [0] ∧ (walkStation id).swSet = [] ∧ dirOf (walkStation id) 0 = 3 ∧
    notInjecting (walkStation id) = true ∧ roleOf armBase ≠ .station ∧ nodeId (walkStation id) = 0 ∧ 0 + us 10 ≤ now (walkStation id) ∧ isActive rangeArm 1 = true ∧
    isOwn rangeArm 320 = true ∧ epOf 320 = 0 ∧ packetOk ⟨320, 65, 0x0C, 3, 0, [70, 64]⟩ = true ∧ packetOk ⟨320, 65, 0x0B, 3, 0, [1]⟩ = true ∧ packetOk ⟨0, 0, 0x0A, 2, 0, [1]⟩ = true ∧
    activeDowns rangeArm = [1] ∧ (portsOf rangeArm 4).filter (isActive rangeArm) = [] ∧ roleOf rangeArm = .arm := by decide
theorem test_discStart : (after (.discStart .xhp 0x80000AAA) (walkStation id)).trr.walk.cur = some (0, 0) := by decide
theorem test_silent : (after .probeTimeout (walkStation fun w => { w with running := true, cur := some (0, 0), tries := 3 })).trr.walk.silent = [(0, 0)] := by decide
def recAt (u : Nat) (n : Nat) (role : Nat) (parent port : Nat) : NodeRec := ⟨BitVec.ofNat 64 u, BitVec.ofNat 14 n, role, BitVec.ofNat 14 parent, port, false, 0, BitVec.ofNat 14 n, false, none⟩
def identOf (role : Nat) : Packet := ⟨0, 0, 9, 2, 0, [0, 9, wd (role * 2 ^ 24), 0, 0, 0, 0]⟩
def inHand : State := setReg (walkStation fun w => { w with running := true, cur := some (0, 0), next := 1, count := 1, known := [recAt 1 0 3 0 0], todo := [(0, 6)] }) (trlR 0x110) 0x400
theorem wit_ident : packetOk (identOf 2) = true ∧ inHand.swSet = [] ∧ rb inHand (trrR 0x400) 31 = false ∧ inHand.trr.nodeId = some 0 ∧ recOf inHand.trr.walk 0 = some (recAt 1 0 3 0 0) ∧ (identParse (identOf 2).payload).role = 2 ∧ (identParse (identOf 0).payload).role = 0 ∧
    peerDir (reg inHand (trlR 0x110)) = 1 ∧ recUid inHand.trr.walk (identParse (identOf 2).payload).uid = none ∧ 1 < upperSize inHand ∧ expectOf inHand 0 = 2 ∧
    recUid (modWalk inHand fun w => { w with known := w.known ++ [recAt 9 1 2 0 0] }).trr.walk (identParse (identOf 2).payload).uid = some (recAt 9 1 2 0 0) := by decide
/-- An arm that has numbered cells 70 on P1 and 71 on P2, and 72 below 70 with its secondary link to 71. -/
def lostArm : State := modPair (modWalk (modTrr armBase fun t => { t with nodeId := some 5 }) fun w => { w with done := true, arm := true, known := [recAt 1 5 1 5 0, recAt 2 70 0 5 1, recAt 3 71 0 5 2, { recAt 4 72 0 70 2 with second := some (71, 3) }] }) fun p => { p with active := true }
theorem wit_repair : roleOf lostArm = .arm ∧ (lostArm.trr.walk.known.filter fun x => x.parent == 70 && x.node != 70 && !x.alt) = [{ recAt 4 72 0 70 2 with second := some (71, 3) }] ∧
    lostArm.trr.walk.ents = [] ∧ rb lostArm (trrR 0x480) 31 = false ∧
    recOf lostArm.trr.walk 71 = some (recAt 3 71 0 5 2) ∧ nodeId lostArm = 5 := by decide
theorem test_identNumbers : (portOf (after (.identRx (identOf 2)) inHand) 0).q2.map (·.payload) = [[0x20001]] ∧ reg (after (.identRx (identOf 2)) inHand) 0x40030400 = 0x80010001 := by decide
theorem test_repair : reg (after (.routeRepair 70) lostArm) 0x40030480 = 0xC0480048 := by decide
/-- The worked example of the spec: N 311 and a fraction, 307 cells above bin 15 and 45 in it (Tables 5-6, 5-7). -/
theorem test_selection : (selectQuota armBase ⟨0, 0, 0, [(15, 61), (16, 307)]⟩ false 311 26214).1.q = 5 ∧
    (selectQuota armBase ⟨0, 0, 0, [(15, 61), (16, 307)]⟩ false 311 26214).1.bin = 15 := by decide +kernel
theorem test_split : splitQ [(4, 14), (5, 16), (2, 16), (3, 15)] 5 true = [(4, 5, true), (5, 0, false), (2, 0, false), (3, 0, false)] := by decide
/-- A cell with P0 up and P2 down ACTIVE, no other port. -/
def treeCell : State := setReg (setReg (setReg liveCell (trlCfg 3) 0) (trlCfg 4) 0) (trlCfg 5) 0
def rakeCell (f : Rdl → Rdl) : State := modRdl treeCell f
def rakeArm (f : Rdl → Rdl) : State := modRdl (modPort (setReg armBase (trlCfg 2) 0x0081001B) 2 fun t => { t with stage := .active }) f
theorem wit_rake : dirOf treeCell 2 = 3 ∧ isActive treeCell 2 = true ∧ rakeSent treeCell true = false ∧ rakePort treeCell false = some 0 ∧ rakeExpected treeCell false = [] ∧
    isCell treeCell = true ∧ rakeExpected (rakeCell fun r => { r with prev := [2] }) false = [2] ∧ phaseOf treeCell < rf treeCell (rdlR 0x028) 14 0 ∧
    rf treeCell (rdlR 0x028) 14 0 ≤ phaseOf (modTmk treeCell fun t => { t with phase := 600 }) ∧ roleOf (rakeArm id) = .arm ∧ armPlane (rakeArm id) = false ∧
    rakeExpected (rakeArm fun r => { r with prev := [2], heldRun := [(2, 2)] }) false = [2] ∧ holdLimit (rakeArm id) = 3 ∧ notInjecting treeCell = true ∧ packetOk ⟨0, 0, 0x10, 1, 0, [0x00005000, 3, 7]⟩ = true ∧ tt8 treeCell = 0 := by decide
theorem test_rakeRx : ((after (.rakeRx 2 ⟨0, 0, 0x10, 1, 0, [0x00005000, 3, 7]⟩ .good) treeCell).rdl.inp.map fun e => (e.1, e.2.map fun h => (h.held, h.c2x, kget 0 h.cnt 0))) = [(2, some (5, 3, 7))] := by decide +kernel
theorem test_rakeOut : (portOf (after (.rakeOutputStart false) (rakeCell fun r => { r with cls := 1, bin := 3 })) 0).q1.map (fun k => (k.typ, k.len)) = [(0x10, 26)] := by decide +kernel
/-- The ARM part with a histogram, GO with N = 2 and a share of it on P2. -/
def selArm (w : Nat) (f : Rdl → Rdl) : State := setReg (rakeArm fun r => f { r with hist := some ⟨0, 0, 0, [(3, 4)]⟩, inp := [(2, some ⟨0, 0, 0, [(3, 4)]⟩)] }) (rdlR 0x01C) (wd w)
def activeSel : State := modPair (inMode .run (setReg (selArm 0x80028000 id) (trlCfg 0) 0)) fun p => { p with active := true }
def selCfg : State := setReg (setReg (setReg (setReg activeSel (trlCfg 1) 0) (trlCfg 3) 0) (trlCfg 4) 0) (trlCfg 5) 0
theorem wit_select : roleOf selCfg = .arm ∧ reachable selCfg (rdlR 0) = true ∧ reachable selCfg (rdlR 0x01C) = true ∧ selCfg.rdl.selDone = false ∧ selCfg.rdl.hist.isSome = true ∧
    rb selCfg (rdlR 0x01C) 31 = true ∧ levelN selCfg = 2 ∧ downPorts selCfg = [2] ∧ isActive selCfg 2 = true ∧ partnerPort selCfg = none ∧ running selCfg = true ∧ armPlane selCfg = false ∧
    rf selCfg (rdlR 0x028) 30 16 ≤ phaseOf (modTmk selCfg fun t => { t with phase := 600 }) ∧ notInjecting selCfg = true ∧ (selArm 0 id).sys.pair.gap = false := by decide
theorem test_selection_sends : (portOf (after (.selectionRun) selCfg) 2).q1.map (fun k => (k.typ, k.payload.getD 0 0 &&& 0x3FF00FFF)) = [(0x12, 0x0A300003), (0x11, 0)] := by decide +kernel
theorem test_levelLate : rb (after .levelDeadline (modTmk (selArm 0 id) fun t => { t with phase := 600 })) (rdlR 0x004) 2 = true := by decide +kernel
def leafCell (f : Rdl → Rdl) : State := modRdl (inMode .run (setReg treeCell (trlCfg 2) 0)) f
theorem wit_descent : isCell (leafCell id) = true ∧ downPorts (leafCell id) = [] ∧ isActive (leafCell id) 0 = true ∧ dirOf (leafCell id) 0 = 1 ∧ running (leafCell id) = true ∧
    phaseOf (leafCell id) ≤ firstEdge (leafCell id) ∧ (leafCell id).rdl.gotDesc = false ∧ (leafCell id).rdl.state ≠ .bypassed ∧ downPorts treeCell = [2] ∧ isActive treeCell 2 = true ∧
    quarHeld treeCell = false ∧ deblockAdmit treeCell (enChans treeCell) = true ∧ deblockAdmit (modSup treeCell fun u => { u with head := -1 }) [] = false ∧
    firstEdge (leafCell id) ≤ phaseOf (modTmk (leafCell id) fun t => { t with phase := 900, ticked := true }) ∧ packetOk ⟨0, 0, 0x12, 1, 0, [0x02F00001, 0x66660000]⟩ = true ∧ notInjecting (leafCell id) = true := by decide
/-- Bin 15 is the boundary with one unit and FRAC at a duty of 26,214 of 10 µs: 4 µs. -/
theorem test_descent : (after (.descentRx 0 ⟨0, 0, 0x12, 1, 0, [0x02F00001, 0x66660000]⟩) (leafCell fun r => { r with cls := 0, bin := 15 })).rdl.dec = some ⟨.plus, true, 2000⟩ := by decide +kernel
theorem test_binsRx : (after (.binsRx 0 ⟨0, 0, 0x11, 1, 1, [0x5546000D, 0x30000000]⟩) treeCell).rdl.binsNew = some ⟨21830, 13, 3⟩ := by decide
def edgeCell (f : Rdl → Rdl) : State := { modTmk (leafCell fun r => f { r with gotDesc := true }) fun t => { t with phase := 900, lastPs := 0 } with lt := 5000 }
def forceCell (f : Rdl → Rdl) : State := modTrr (inMode .ready (edgeCell f)) fun t => { t with nodeId := some 5 }
theorem wit_edge : edgePhase (edgeCell id) ≤ phaseOf (edgeCell id) ∧ running (edgeCell id) = true ∧ minOn (edgeCell id) ≤ 3000 ∧ (pulseShape (edgeCell id) (edgePhase (edgeCell id)) 2000).isSome = true ∧
    edgePhase (edgeCell id) + legGap (edgeCell id) ≤ phaseOf (edgeCell id) ∧ (edgeCell id).swg.gcmd = 0 ∧ modeOf (forceCell id) = .ready ∧ isCell (forceCell id) = true ∧
    rb (setReg (forceCell id) (rdlR 0x054) 1) (rdlR 0x054) 0 = true ∧ insertCell (fld 0x20000300#32 31 29) = some .plus ∧ fld 0x20000300#32 15 8 = 3 ∧
    deblockAdmit (forceCell id) ((stateChans (fullBridge (forceCell id)) .plus).filter (chOn (forceCell id))) = true ∧ notInjecting (edgeCell id) = true := by decide +kernel
def upCell : State := modSwg (setReg (edgeCell fun r => { r with dec := some ⟨.plus, false, 0⟩ }) (swgCfg 0) 0x803E8032) fun g => { g with softoff := false, armed := 3 }
theorem test_edge_rises : mayRiseCh upCell 0 = true ∧ (after .edgeInstant upCell).swg.gcmd = 1 := by decide +kernel
theorem test_legB : legWant (after .legBEdge (setReg (edgeCell fun r => { r with legB := some .minus }) (rdlR 0) 4)) 1 = (true, false) := by decide +kernel
theorem test_fracOff : rf (after .fracOffEdge (edgeCell fun r => { r with state := .plus, fracNow := true, pulse := some ⟨5000, 2018, false, true⟩ })) edgeStat 31 16 = 2018 := by decide +kernel
theorem wit_insert : isOwn (forceCell id) 320 = true ∧ packetOk ⟨320, 0, 0x13, 1, 0, [0x20000300]⟩ = true ∧ epOf 320 = 0 ∧ isOwn (forceCell id) 384 = false := by decide +kernel
theorem test_insert : (after (.insertRx ⟨320, 0, 0x13, 1, 0, [0x20000300]⟩) (setReg (forceCell id) (rdlR 0x054) 1)).rdl.forceNew = some ⟨.plus, 3⟩ := by decide +kernel

/-- A cell with channel m enabled and the guard in a given state. -/
def gateCell (f : Swg → Swg) : State := { modSwg (setReg (modSup (inMode .run liveCell) fun u => { u with stage := 8 }) (swgCfg 0) 0x803E8032) (fun g => f { g with softoff := false, armed := 3 }) with lt := 20000 }
theorem wit_guard : isCell (gateCell id) = true ∧ chOn (gateCell id) 0 = true ∧ running (gateCell id) = true ∧ mayRiseCh (gateCell id) 0 = true ∧ 0 + blank (gateCell id) 0 ≤ now (gateCell id) ∧
    gfbOf (gateCell id) 0 true = true ∧ isLive (gateCell id) 0 = true ∧ (gateCell id).sup.stage.getLsbD 3 = true ∧ (gateCell id).swg.seqAt = none ∧ (gateCell id).sys.barred = false ∧ has8 (gateCell id).swg.mute 0 = false ∧ rb (gateCell id) (swgStat 0) 5 = false ∧
    eRes cellBase = 0xFFFFFFFF ∧ eRes (setReg cellBase (supR 0x110) 0) = 0 := by decide +kernel
theorem test_deadtime : (after (.deadtimeTurnOn 0) (gateCell fun g => { g with waitOn := 1, want := 1 })).swg.gcmd = 1 := by decide +kernel
theorem test_desat : modeOf (after (.desatDetect 0) (gateCell fun g => { g with gcmd := 1, desat := 1 })) = .safe := by decide +kernel
theorem test_fbCheck : (after (.fbCheck 0 false) (gateCell fun g => { g with gcmd := 1, fbDue := [(0, some 19000)] })).swg.gcmd = 0 := by decide +kernel
theorem test_uvTrip : ((after (.uvTrip 0) (gateCell fun g => { g with gcmd := 1 })).sent.map fun x => match x with | .cayenne p sc h _ => (p.val, sc.toNat, h.toNat) | _ => (9, 9, 9)) = [(0, 0, 0), (2, 0, 0)] := by decide +kernel
def offCell (f : Swg → Swg) : State := gateCell fun g => f { g with softoff := true, seqAt := some 1000, offChk := true }
theorem wit_off : 1000 + softHold (offCell id) ≤ now (offCell id) ∧ 1000 + softHold (offCell id) + fbTmo (offCell id) ≤ now (offCell id) ∧ (offCell id).swg.seqAt = some 1000 ∧ chOn (offCell id) 0 = true ∧
    gfbOf (offCell id) 0 (has8 1 0) = true ∧ gfbOf (offCell id) 0 (has8 0 0) = false ∧ chOn (offCell id) 1 = false ∧ now (offCell id) ≤ kget 0 (offCell fun g => { g with offLt := [(0, 19999)], desat := 1 }).swg.offLt 0 + 2 := by decide +kernel
theorem test_offFail : rb (after (.offCheck 1) (offCell id)) (swgStat 0) 5 = true := by decide +kernel
/-- A part whose SAR group holds channel 3 alone, whose sigma-delta channel 0 and limit checker 0 run. -/
def senseArm (f : Sns → Sns) : State := modSns (setReg (setReg (setReg (setReg { alignedArm with lt := 4900 } (snsR 0) 3) (snsR 0x040) 0x80000003) (snsR 0x10) 200) (snsCfgR 3) 0x20000000) f
def sdArm (f : Sns → Sns) : State := modSns (setReg (setReg (setReg (setReg alignedArm (sdCfg 0) 0x80000040) (snsR 0x300) 0x80000014) (fltR 0x300) 0x80100000) (fltR 0x304) 100) f
def pulseArm (m : Nat) (f : Sns → Sns) : State := modSns (setReg { alignedArm with lt := 2000000 } (snsR 0x500) (wd (0x80000000 + m * 0x1000000 + 0x20000))) f
theorem wit_sense : tgEntries (senseArm id) = [(0, 3)] ∧ expectedLt (senseArm id) ≤ now (senseArm id) + rf (senseArm id) (snsR 0x010) 14 0 ∧ nextScan (senseArm id) 0 = some 3 ∧
    rb (sdArm id) (sdCfg 0) 31 = true ∧ rb (sdArm id) (snsR (0x300 + 4 * rf (sdArm id) (sdCfg 0) 27 26)) 31 = true ∧ (∀ m : Fin 8, rb (sdArm id) (fltR (0x300 + 8 * m)) 31 = decide (m = 0)) ∧
    rf (sdArm id) (fltR 0x300) 26 24 = 0 ∧ rf (pulseArm 1 id) (snsR 0x500) 25 24 = 1 ∧ rf (pulseArm 2 id) (snsR 0x500) 25 24 = 2 ∧ 0 + ms (Nat.max 1 (rf (pulseArm 1 id) (snsR 0x500) 23 16)) ≤ now (pulseArm 1 id) := by decide +kernel
theorem test_conversion : reg (after (.sarConversionDone 3 0x2000) (setReg (senseArm fun q => { q with running := true }) (snsCfgR 3 + 4) 4096)) (snsRes 3) = 0x20002000 := by decide +kernel
/-- 64 ones from rest give 64 * 65 * 66 / 6 = 45,760 of 262,144 (R230). -/
theorem test_sd : reg (after (.sdResult 0 (0#256 - 1)) (sdArm id)) (sdRes 0) = 0xFFACB000 := by decide +kernel
theorem test_pulse : reg (after (.pulseEdge true false) (pulseArm 0 id)) (snsR 0x504) = 1 := by decide +kernel
def preCell (f : Sns → Sns) : State := modSns (setReg (setReg { modTmk cellBase (fun t => { t with ticked := false }) with lt := 10000 } (snsR 0x040) 0x80000000) (snsR 0x044) 0x80000010) f
theorem wit_pre : now (preCell id) % 5000 = 0 ∧ inTg (preCell id) 0 = true ∧ inTg (preCell id) 16 = true ∧ (preCell id).tmk.ticked = false ∧ isCell (preCell id) = true ∧ notInjecting (preCell id) = true ∧
    rb (setReg (preCell id) (snsR 0) 1) (snsR 0) 0 = true ∧ kget 0 (preCell fun q => { q with done := [(0, some 21840)], doneLt := [(0, 9000)] }).sns.doneLt 0 < 10000 ∧ (preCell id).swg.seqAt = none ∧ running (inMode .run (preCell id)) = true := by decide +kernel
theorem test_pre_snapshot : reg (after .preTickSnapshot (setReg (preCell fun q => { q with done := [(0, some 21840)], doneLt := [(0, 9000)] }) (snsR 0) 1)) (snsSnap 0) = 21840 := by decide +kernel
theorem test_reserve : modeOf (after .preTickSnapshot (inMode .run (preCell id))) = .safe := by decide +kernel
/-- An instance of the ARM part in a state, in RUN, with an SFRI measurement and its job due; its measurement is valid unless `k` is 15. -/
def loopArm (k : Nat) (f : Inst → Inst) : State :=
  modInst (setReg (setReg (inMode .run (modTmk alignedArm fun t => { t with phase := 900 })) (siCtrl 0) 1) (lpeR 0x120) (wd (k * 4096))) 0 f
theorem wit_loop : running (loopArm 5 id) = true ∧ rf (loopArm 5 id) (siPhase 0) 14 0 ≤ phaseOf (loopArm 5 id) ∧ lpeCheck (loopArm 5 id) 0 (rf (loopArm 5 id) (siCtrl 0) 23 16) = true ∧
    srcValid (loopArm 5 id) none (lpeByte (loopArm 5 id) 0x010 0) 5 0 (srcRaw (loopArm 5 id) none 5 0) = true ∧ srcValid (loopArm 6 id) none (lpeByte (loopArm 6 id) 0x010 0) 6 0 (srcRaw (loopArm 6 id) none 6 0) = false ∧ (loopArm 5 id).sys.barred = false ∧
    lpeByte (loopArm 5 id) 0x004 0 = 3 ∧ rb alignedArm (siCtrl 0) 0 = false ∧ lpeCheck alignedArm 0 0 = true ∧ notInjecting (loopArm 5 id) = true := by decide +kernel
theorem test_job_coast : (instOf (after (.classSJob 0) (loopArm 6 fun x => { x with st := .normal })) 0).st = .coast := by decide +kernel
theorem test_job_normal : (instOf (after (.classSJob 0) (loopArm 5 fun x => { x with st := .coast })) 0).st = .normal := by decide +kernel
theorem test_job_lost : modeOf (after (.classSJob 0) (loopArm 6 fun x => { x with st := .hold, runCnt := 500 })) = .safe := by decide +kernel
/-- Cascade 0 of the ARM part: one section, at phase 0, on LPE_SFRI word 0; section 0 passes its input. -/
def cascArm (x : Word) : State := setReg (setReg (setReg (setReg alignedArm (qcR 0 0) 0x80000100) (qcR 0 4) 0x5000) (secR 0 0) 0x3F800000) (lpeR 0x600) x
def cascDue (x : Word) : State := modLpe (cascArm x) fun l => { l with hreg := [(0, x)], pend := [⟨0, none⟩] }
theorem wit_cascade : (cascDue 0).lpe.pend.find? (·.c == 0) = some ⟨0, none⟩ ∧ rb (cascArm 0) (qcR 0 0) 31 = true ∧ qFrozen (cascArm 0) 0 = false ∧ fld (reg (cascArm 0) (qcR 0 0)) 13 8 = 1 ∧
    srcValid (cascDue 0) none 0 5 0 (srcRaw (cascDue 0) none 5 0) = true ∧ srcValid (cascDue 0x7F800000) none 0 5 0 (srcRaw (cascDue 0x7F800000) none 5 0) = false ∧
    isOwn (modTrr alignedArm fun t => { t with nodeId := some 5 }) 352 = true ∧ packetOk ⟨352, 0, 0x19, 2, 0, [1]⟩ = true ∧ epOf 352 = 32 ∧
    qOk (fun q => if q = 0 then 0x80000100 else reg alignedArm (qcR q 0)) alignedArm alignedArm.tmk.period = true ∧
    qOk (fun q => if q = 0 then 0x80002100 else reg alignedArm (qcR q 0)) alignedArm alignedArm.tmk.period = false := by decide +kernel
theorem test_cascade : (after (.cascadeRun 0) (cascDue 0x40490FDB)).lpe.runs.map (fun r => (r.till, r.out)) = [(24, 0x40490FDB)] := by decide +kernel
def loadCell : State := modTbl cellBase fun t => { t with busyTil := some 10000 }
def flashArm (a : Nat) : State := setReg armBase (sysR 0x104) (wd a)
def lateArm : State := { modSys (modTmk alignedArm (fun t => { t with phase := 4500 })) (fun y => { y with bootOk := true }) with cores := [(0, zCore)] }
theorem wit_tables : isCell cellBase = true ∧ modeOf cellBase = .boot ∧ cellBase.sys.tbl.busyTil = none ∧ headerOk loadCell = false ∧ rf (flashArm 0x10000) (sysR 0x104) 25 0 = 0x10000 ∧
    (flashArm 0).sys.bootOk = false ∧ anyTickRuns lateArm = true ∧ phaseOf lateArm = Nat.min (rf lateArm (sysR 0x020) 14 0) (periodLt lateArm - 50) ∧ lateArm.sys.lateTold = false := by decide +kernel
/-- A whole set of no records: header of 8 words, terminator, CRC. -/
def tblHeader : List Word := [0x54424C53, 0x1000000A, 0, 0xFF00FF00, 0, 0, 0x12345678, 0]
def tblSet : List Word := tblHeader ++ [0] ++ [wd (crc32c (leBytes (tblHeader ++ [0])))]
def stagedCell : State := (List.range 10).foldl (fun s k => setReg s (sysR (0x8000 + 4 * k)) (tblSet.getD k 0)) (setReg (setReg (setReg (setReg (setReg loadCell (snsR 0x010) 300) (snsR 0x040) 0x80000000) (snsR 0x044) 0x80000010) (swgCfg 0) 0x803E8032) (swgCfg 1) 0x803E8032)
theorem wit_tableLoads : pass1 stagedCell = .ok [] ∧ tableChecks stagedCell = (true, true, true, true) ∧ stagedCell.sys.inReset = false := by decide +kernel
theorem wit_tableFails : pass1 (setReg stagedCell (swgCfg 0) 0) = .ok [] ∧ tableChecks (setReg stagedCell (swgCfg 0) 0) ≠ (true, true, true, true) := by decide +kernel
theorem test_tableLoaded : (after .tableLoadDone stagedCell).sys.tbl.setId = 0x12345678 := by decide +kernel
theorem test_tableRejected : (after .tableLoadDone loadCell).sys.tbl.result = 3 := by decide +kernel
theorem test_qspiErase : (after (.qspiErase .xhp) (flashArm 0x10000)).sys.qspi = some (2, 0x10000) := by decide +kernel
theorem test_tpLate : rb (after .tpBudgetCheck lateArm) (sysR 0x024) 1 = true := by decide +kernel
/-- The STATION part with E0 enabled and linked. -/
def portStation (f : Stp → Stp) : State := modStp (setReg { stationBase with lt := 1000000 } (stpR 0) 0x806) fun t => f { t with link := 1 }
def subStation (f : Stp → Stp) : State := setReg (setReg (portStation f) (stpSub 0 0) 0x81114000) (stpSub 0 8) 100
def redStation (m : Nat) : State := modStp (setReg (portStation id) (stpR 0) (wd (0x816 + 256 * m))) fun t => { t with link := 3 }
def ethFrame : EthFrame := ⟨true, List.replicate 60 0⟩
/-- Sampled values of APPID 0x4000; a frame with an HSR tag, and one with a PRP trailer, of sequence number 9. -/
def svRaw : EthFrame := ⟨true, List.replicate 12 0 ++ [0x88, 0xBA, 0x40, 0] ++ List.replicate 44 0⟩
def hsrRaw : EthFrame := ⟨true, List.replicate 11 1 ++ [7, 0x89, 0x2F, 0, 0, 0, 9, 8, 0] ++ List.replicate 40 0⟩
def prpRaw : EthFrame := ⟨true, List.replicate 11 1 ++ [7, 8, 0] ++ List.replicate 40 0 ++ [0, 9, 0, 0, 0x88, 0xFB]⟩
/-- A Sync. -/
def syncFrame : List Byte := List.replicate 12 1 ++ [0x88, 0xF7] ++ List.replicate 44 0
/-- An ARP request for 10.0.0.1. -/
def arpRaw : EthFrame := ⟨true, List.replicate 12 0xFF ++ [8, 6, 0, 1, 8, 0, 6, 4, 0, 1, 2, 3, 4, 5, 6, 7, 10, 0, 0, 2, 0, 0, 0, 0, 0, 0, 10, 0, 0, 1] ++ List.replicate 18 0⟩
def svFrame : SvFrame := ⟨true, 1, 17, 2, [(0x1234, 0)]⟩
theorem wit_station : ethOn (portStation id) 0 = true ∧ ethUp (portStation id) 0 = true ∧ lchBlocks (portStation id) 0 = false ∧ redMode (portStation id) = 0 ∧
    redMode (redStation 1) = 1 ∧ ethUp (redStation 1) 0 = true ∧ arpReply (portStation id) ethFrame.bytes = none ∧ redMode (redStation 2) = 2 ∧ ethUp (redStation 2) 1 = true ∧
    ethSeq (redStation 1) prpRaw.bytes = some 9 ∧ ethSeq (redStation 2) hsrRaw.bytes = some 9 ∧ ethSource hsrRaw.bytes = 0x010101010107 ∧ ptpAt hsrRaw.bytes = none ∧
    ptpAt syncFrame = some 14 ∧ ptpType syncFrame 14 = 0 ∧ 14 + 44 ≤ syncFrame.length ∧ ptpEvent ethFrame.bytes = none ∧ ptpEvent syncFrame = some 14 ∧
    echoReply (portStation id) ethFrame.bytes = none ∧ ethConsumed (portStation id) ethFrame.bytes = false ∧ stpOn (portStation id) = true ∧ bitOf (reg (subStation id) (stpSub 0 0)) 31 = true ∧
    svMatch (subStation id) 0 svRaw.bytes = true ∧ (arpReply (setReg (portStation id) (stpR 0x010) 0x0A000001) arpRaw.bytes).isSome = true ∧
    fld (reg (subStation id) (stpSub 0 0)) 19 16 = 1 ∧ fld (reg (subStation id) (stpSub 0 0)) 28 24 = 1 ∧ 0 + us (rf (subStation id) (stpSub 0 8) 15 0) < now (subStation id) ∧
    fld 0x81100000#32 28 24 = 1 ∧ ethPorts (portStation id) = [0] ∧ notInjecting (portStation id) = true := by decide +kernel
theorem test_ethRx : (after (.ethFrameRx 0 ethFrame 0) (portStation id)).stp.ring = [⟨ethFrame.bytes, none⟩] := by decide +kernel
theorem test_hsrForward : (kget [] (after (.ethFrameRx 0 hsrRaw 0) (redStation 2)).stp.txq 1).map (·.len) = [64] := by decide +kernel
theorem test_ethTx : (after (.ethFrameTx 0 none) (portStation fun t => { t with txq := [(0, [⟨5, 64, none, [1], none⟩, ⟨3, 80, none, [2], none⟩])] })).sent = [.eth 0 ⟨3, 80, none, [2], none⟩] := by decide +kernel
theorem test_svRx : (kget default (after (.svFrameRx 0 svRaw 0 svFrame) (subStation id)).stp.svNow 0).cnt = 17 := by decide +kernel
theorem test_svPublish : ((kget [] (after (.svPublish 0) (setReg (portStation id) (stpPub 0 0) 0x81100000)).stp.txq 0).map (·.len)) = [72] := by decide +kernel
/-- E0 up, XHP enabled at 10.0.0.1 for the host 10.0.0.2. -/
def hostStation (f : Stp → Stp) : State := setReg (setReg (portStation f) (stpR 0x010) 0x0A000001) (stpR 0x018) 0x0A000002
def echoBytes : List Byte := [0x58, 0x48, 1, 7, 0, 0, 0, 5, 0, 0, 0, 0, 0, 0, 0, 1, 1, 2, 3, 4]
/-- The echo as a UDP datagram from 10.0.0.2 port 4000 to 10.0.0.1 and the port of STP_XHP_PORT. -/
def echoRaw : EthFrame := ⟨true, List.replicate 12 0 ++ [8, 0, 0x45, 0, 0, 48, 0, 0, 0, 0, 64, 17, 0, 0, 10, 0, 0, 2, 10, 0, 0, 1, 0x0F, 0xA0] ++ (natLe 2 (rf (hostStation id) (stpR 0x014) 15 0)).reverse ++
  [0, 28, 0, 0] ++ echoBytes⟩
def netStation (f : Stp → Stp) : State := setReg (setReg (modPort (modTrr (hostStation f) fun t => { t with nodeId := some 0 }) 0 fun t => { t with stage := .active }) (trlCfg 0) 0x0081001B) (trrR 0x400) 0x80500010
def hostCmd (op : Nat) (d : List Word) : State := hostStation fun t => { t with xq := [⟨0x0A000002, 4000, op, 5, d⟩] }
theorem wit_host : xhpOn (hostStation id) = true ∧ reg (hostStation id) (stpR 0x018) = 0x0A000002 ∧ beAt echoBytes 0 2 = 0x5848 ∧ xhpFormOk (byteAt echoBytes 3) (bytesWords (echoBytes.drop 16)) = true ∧
    echoBytes.length = 16 + 4 * beAt echoBytes 14 2 ∧ inSram 0x20000010 = true ∧ reachable (hostStation id) (stpGp 0 0) = true ∧ rb (hostStation id) (stpGp 0 0) 31 = false ∧
    rb (setReg (hostStation id) (stpGs 0 0) 0x80000000) (stpGs 0 0) 31 = true ∧ 0 + 500000 ≤ now (hostStation id) ∧ xhpGram (hostStation id) echoRaw.bytes = some (0x0A000002, 4000, echoBytes) ∧ echoRaw.len ≤ 1528 ∧
    gooseMatch (setReg (hostStation id) (stpGs 0 0) 0x80000000) 0 (List.replicate 12 0 ++ [0x88, 0xB8] ++ List.replicate 46 0) = true ∧
    isOwn (hostStation id) (BitVec.ofNat 20 (fld 0x1040#32 19 0)) = false ∧ outPort (netStation id) none (nodeOf 0x1040) = some 0 ∧ isOwn (netStation id) 0x1040 = false ∧  xMay (hostStation id) ⟨0x0A000002, 4000, 3, 5, [0x1040, 0x20000000, 1]⟩ = true := by decide +kernel
theorem test_echo : ((kget [] (after .xhpEcho (hostCmd 7 [0x01020304])).stp.txq 0).map fun f => f.what.drop 12) = [[0, 0, 0, 1, 1, 2, 3, 4]] := by decide +kernel
theorem test_xhpWrite : bytesGet (after .xhpWrite (hostCmd 2 [0x20000010, 0x11223344])).mem 0x20000010 4 = 0x11223344 := by decide +kernel
theorem test_xhpRx : (after (.xhpCommandRx 0 echoRaw 0x0A000002 4000 echoBytes) (hostStation id)).stp.xq = [⟨0x0A000002, 4000, 7, 5, [0x01020304]⟩] := by decide +kernel
theorem test_goose : (kget [] (after (.gooseChange .xhp 0) (hostStation id)).stp.txq 0).map (·.what.take 5) = [[0, 0, 0, 0, 1]] := by decide +kernel
/-- A capture of one constant channel (kind 9 on SYS_ID) of the ARM part, with PRE 4 and POST 2. -/
def capArmPart (f : Cap → Cap) : State := modCap (setReg (setReg (setReg (setReg (setReg alignedArm (capR 0x00C) 4) (capR 0x010) 2) (capR 0x014) 1) (capR 0x100) 0x9000) (capR 0x104) 0x40000020) f
def capGoing (st : CapSt) (f : Cap → Cap) : State := capArmPart fun c => f { c with st := st }
theorem wit_capture : reachable (capArmPart id) (capR 0) = true ∧ capErr (genWrite (capArmPart id) .xhp (capR 0) (setBit 0 31 true)) = 0 ∧ capErr (genWrite alignedArm .xhp (capR 0) (setBit 0 31 true)) ≠ 0 ∧
    (capGoing .pre id).tmk.ticked = true ∧ rb (capGoing .pre id) (capR 0) 4 = false ∧ rf (capGoing .pre id) (capR 0x018) 7 0 = 0 ∧ capPre (capGoing .pre id) = 4 ∧ capPost (capGoing .pre id) = 2 ∧
    (0x200#11).toNat / 256 ≠ 0 ∧ capHeld (capGoing .stream id).cap + 19 ≤ 524288 ∧ 1 < capBlkRows (capGoing .stream id) ∧ reachable (capArmPart id) (capRec 0 0) = true ∧ (capArmPart id).hwSet = [] ∧
    xhpOn (hostStation id) = true ∧ relays (netStation id) = true ∧ isOwn (netStation id) 48 = true ∧ packetOk ⟨48, 70, 0x20, 3, 0, [1]⟩ = true ∧ phaseOf (capGoing .pre id) = 0 ∧ (capGoing .pre id).swSet = [] ∧ rb (setReg (netStation id) (capR 0) 0x20) (capR 0) 5 = true ∧ rf (setReg (netStation id) (capR 0x028) 0x1040) (capR 0x028) 19 0 = 0x1040 := by decide +kernel
theorem test_capArm : (after (.capArm .xhp 0) (capArmPart id)).cap.st = .pre := by decide +kernel
theorem test_capRow : bytesGet (after .capRow (capGoing .pre fun c => { c with preCnt := 5 })).mem 0x30000004 4 = 0x00021194 := by decide +kernel
theorem test_capDone : rb (after .capRow (capGoing .post fun c => { c with postCnt := 1, preCnt := 4 })) (capRec 0 0) 31 = true := by decide +kernel
theorem test_capFree : rb (after (.capSlotFree .xhp 0) (setReg (capArmPart id) (capRec 0 0) 0x80000007)) (capRec 0 0) 31 = false := by decide +kernel
def hubArm (f : Flt → Flt) : State := modFlt { alignedArm with lt := 100000 } f
/-- A message of source 256, ETH_LINK, whose source is set for SEV_MIN 5 with IRQ by reset. -/
def hubRaw : BitVec 64 := faultMsg 256 .ethLink 0x40080004 false
theorem wit_hub : (hubRead hubRaw).src = 256 ∧ (hubRead hubRaw).sev = 3 ∧ fld (reg (hubArm id) (fltR (0x800 + 4 * 256))) 31 29 = 5 ∧ rb (hubArm id) (fltR 0x09C) 31 = false ∧ (hubArm id).flt.bus = [] ∧
    fld (reg (hubArm id) (fltR (0x800 + 4 * 256))) 28 19 = 1 ∧ (hubRead (faultMsg 480 .tempTrip 0 false)).sev = 7 ∧ fld (reg (setReg (hubArm id) (fltR (0x800 + 4 * 480)) 0xE0000000) (fltR (0x800 + 4 * 480))) 28 19 = 0 ∧
    rf (setReg (hubArm id) (fltR 0x088) 0x21) (fltR 0x088) 3 0 = 2 ^ (0 : Fin 4).val ∧ 0 + Nat.max 1 2 * 50000 ≤ now (hubArm id) ∧ rwlOpen (unlocked armBase) = true ∧ logIsFull armBase = false ∧
    rwlOpen armBase = false ∧ now (hubArm id) % 50000 = 0 ∧ (hubArm id).flt.lastEdge < now (hubArm id) ∧ (hubArm id).sys.barred = false ∧
    isOwn (modTrr (hubArm id) fun t => { t with nodeId := some 5 }) 376 = true ∧ packetOk ⟨376, 56, 0x21, 2, 0, [1, 2]⟩ = true ∧ epOf 376 = 56 ∧ (hubArm id).flt.capLt = none ∧ (hubArm id).hwSet = [] := by decide +kernel
theorem test_capture : rb (after (.faultMsgCapture [hubRaw]) (hubArm id)) (fltR (0x100 + 32)) 0 = true ∧ rb (after (.faultMsgCapture [hubRaw]) (hubArm id)) (fltR 0x014) 31 = true := by decide +kernel
theorem test_degrades : modeOf (after (.faultMsgCapture [hubRaw]) (inMode .run (setReg (hubArm id) (fltR (0x800 + 4 * 256)) 0x68000000))) = .degraded := by decide +kernel
theorem test_tempTrip : (after (.tempSample 2 1100) (hubArm fun f => { f with tCnt := [(6, 1)] })).flt.bus = [(100000, faultMsg 482 .tempTrip (fltR 0x208) false)] := by decide +kernel
theorem test_kick : (after .kickWindowExpiry (setReg (hubArm id) (fltR 0x088) 0x21)).flt.bus = [(100000, faultMsg 321 .aliveKick (fltR 0x088) false)] := by decide +kernel
def safArm (m : Mode) (g : Saf → Saf) : State := modSaf { inMode m (setReg alignedArm (safR 0x004) 3) with lt := 1000000 } g
def safCell (g : Saf → Saf) : State := setReg (modSys (safArm .ready g) fun y => { y with strap := 0 }) (safR 0x004) 3
theorem wit_saffron : rb (safArm .run id) (safR 0x004) 1 = true ∧ rb (safArm .run id) (safR 0x004) 0 = true ∧ (safArm .run id).saf.demand = 0 ∧ (safArm .run id).saf.act = none ∧ isUpper (safArm .run id) = true ∧
    isCell (safCell id) = true ∧ 0 + us (fbDly (safArm .run id)) ≤ now (safArm .run id) ∧ 0xB75A0000#32 = wd (0xB75A0000 + (nodeId (safCell id)).toNat) ∧ eRes (setReg (safCell id) (supR 0x110) 0) = 0 ∧
    testMode (safArm .run id) = true ∧ 0 + 150000 ≤ now (safArm .run id) ∧ stepPass (safArm .run fun g => { g with outA := true }) 1 true false 0 = true ∧ stepPass (safArm .run id) 1 true false 0 = false ∧
    rf (safCell id) (safR 0x01C) 15 8 < 0xFF ∧ (safArm .run id).sys.barred = false ∧ (safArm .run id).sys.undo = none ∧ now (safArm .run id) - 600000 + Nat.max 1 (rf (safArm .run id) (safR 0x010) 31 24) * 500 ≤ now (safArm .run id) ∧
    0 + us (fbDly (safArm .run id)) < now (safArm .run id) ∧ now (safArm .run id) - 500000 + us (fbDly (safArm .run id)) < now (safArm .run id) ∧ (modSaf { safArm .run id with lt := 6000000 } fun g => { g with lowA := some 5 }).saf.inChg + 5000000 < 6000000 ∧ (safCell id).sup.low = false ∧ rwlOpen (safArm .run id) = false ∧ notInjecting (safCell id) = true ∧
    0 + 2 * tpInt (modSaf { safArm .run id with lt := 600000000000 } id) ≤ now { safArm .run id with lt := 600000000000 } := by decide +kernel
theorem test_demand : modeOf (after (.demandInput 0 900000) (safArm .run id)) = .safe := by decide +kernel
theorem test_actuation : (after (.demandInput 1 900000) (safCell fun g => { g with testRun := true })).saf.outA = true := by decide +kernel
theorem test_bypassed : (after .actTimeEnd (safCell fun g => { g with act := some 1000000 })).nv.bypassed = true := by decide +kernel
theorem test_testNow : (after (.testNow .xhp 3) (safArm .run id)).saf.test = some (1, false, 1010000) := by decide +kernel
def lockCell (g : Saf → Saf) : State := modSys (modSaf (inMode .safe { unlocked cellBase with lt := 1000 }) g) fun y => { y with strap := 0 }
/-- The factory password 00 00 00 00 00 00 00 00 opens the part at reset. -/
theorem wit_lock : sha256 (pwBytes 0 0) = State.reset.nv.digest ∧ modeOf (lockCell id) = .safe ∧ (lockCell id).nv.unack < 248 ∧ isCell (lockCell id) = true ∧ rwlOpen (lockCell id) = true ∧ rwlOpen cellBase = false ∧
    (lockCell id).saf.unlocked = true ∧ (lockCell id).saf.lockAt ≤ now (lockCell id) ∧ sha256 (pwBytes 0 1) ≠ State.reset.nv.digest ∧ ((5 : Word) - 3).toNat ≤ 2 := by decide +kernel
theorem test_unlock : (after (.unlockAttempt .xhp 0) { armBase with lt := 1000 }).saf.unlocked = true := by decide +kernel
theorem test_wrongPassword : (after (.unlockAttempt .xhp 1) { armBase with lt := 1000 }).nv.fails = 1 := by decide +kernel
theorem test_service : (after (.serviceRecord .xhp 7) (modNv (lockCell id) fun v => { v with bypassed := true })).nv.bypassed = false := by decide +kernel
/-- A paired ARM part with P5 to its partner, active or standby. -/
def pairArm (m : Mode) (f : Pair → Pair) : State := modPair (inMode m (setReg (setReg (modPort { alignedArm with lt := 100000 } 5 fun t => { t with stage := .active }) (trlCfg 5) 0x0081001C) pairCfg 0x80000000)) f
theorem wit_pair : paired (pairArm .run id) = true ∧ partnerPort (pairArm .run id) = some 5 ∧ isActive (pairArm .run id) 5 = true ∧ allNormal (pairArm .run id) = true ∧
    rb (setReg (pairArm .run id) pairCfg 0xC0000000) pairCfg 30 = true ∧ (pairArm .run id).sys.discLt = none ∧ phaseOf (pairArm .run id) + 100 ≤ periodLt (pairArm .run id) ∧
    rb (setReg (pairArm .run id) (fltR 0x014) 0x80000000) (fltR 0x014) 31 = true ∧ rf (pairArm .run id) pairCfg 26 24 ≤ 7 ∧ rf (setReg (pairArm .run id) (fltR 0x008) 0xE000) (fltR 0x008) 15 13 = 7 ∧
    (imageAddrs (pairArm .run id)).length = 2 ∧ paired alignedArm = false ∧ isMirror ⟨0, 0, 0x11, 1, 1, [0]⟩ = true ∧ notInjecting (pairArm .run id) = true := by decide +kernel
theorem test_yield : (after .yieldDrop (modTmk (pairArm .run fun f => { f with active := true, intlOut := true, yieldTk := some 0 }) fun t => { t with tick := 1 })).sys.pair.active = false := by decide +kernel
theorem test_contend : rb (after (.intlRecheck true) (setReg (pairArm .run fun f => { f with active := true, recheck := some 0 }) pairCfg 0xC0000000)) pairStat 2 = true := by decide +kernel
theorem test_image : (portOf (after .stateImageSend (pairArm .run fun f => { f with active := true, imgTick := true })) 5).q2.map (·.len) = [3] := by decide +kernel
def canArm (g : Svb → Svb) : State := modSvb (setReg alignedArm canCtrl 0) g
def panelStation (g : Svb → Svb) : State := modSvb { stationBase with lt := 20000000000 } g
theorem wit_service : reachable (canArm id) canCtrl = true ∧ rb alignedArm canCtrl 31 = true ∧ canRatesOk alignedArm true = true ∧ canRatesOk alignedArm false = false ∧ blockOn (roleOf (canArm id)) 13 = true ∧ reachable (canArm id) (mbCtrl 0) = true ∧
    rb (canArm id) canCtrl 31 = false ∧ rf (canArm id) canCtrl 7 0 = 0 ∧ rf (setReg (canArm id) canCtrl 1) canCtrl 7 0 < rf (setReg (canArm id) (mbCtrl 0) 0x20000) (mbCtrl 0) 23 16 + 1 ∧
    reachable (canArm id) (svbR 0x014) = true ∧ reachable (canArm id) (svbR 0x01C) = true ∧ panelOn (panelStation id) = true ∧ touchedOf (panelStation id) 1 = false ∧ (canArm id).swSet = [] ∧ (canArm id).svb.idleAt ≤ now (canArm id) ∧ keyDeb (panelStation id) ≤ now (panelStation id) ∧
    (mbFrame (setReg (setReg (canArm id) canCtrl 0x70000000) (mbCtrl 0) 0xC0) 0).brs = true ∧ rb (setReg (canArm id) canCtrl 0x70000000) canCtrl 28 = true ∧ 0 + 15000000000 ≤ now (panelStation id) ∧
    canPassive (canArm fun g => { g with tec := 200 }).svb = true ∧ canRatesOk (setReg alignedArm (svbR 0x008) 0) false = false ∧ roleOf alignedArm ≠ .station := by decide +kernel
theorem test_arbitration : mbBest (setReg (setReg (canArm fun g => { g with pend := 0x84 }) (svbR (0x104 + 0x50 * 2)) 0x10000000) (svbR (0x104 + 0x50 * 7)) 0x04000000) = some 7 := by decide +kernel
theorem test_busOff : (after (.canAttemptEnd .error) (canArm fun g => { g with cur := some 0, tec := 248 })).svb.busOff = true := by decide +kernel
theorem test_key : rb (after (.keyAccept 3 true) (panelStation fun g => { g with rawKey := 8 })) (svbR 0x800) 3 = true := by decide +kernel
theorem test_touch : touchedOf (after (.touchMeasure 1 100) (panelStation fun g => { g with tcnt := [(1, 2)], base := [(1, 5000)] })) 1 = true := by decide +kernel
theorem wit_gates : LegsApart upCell ∧ TurnOffLow upCell ∧ (∃ t, step { upCell with pending := [.edgeInstant] } = .next t) := by
  refine ⟨by unfold LegsApart; decide +kernel, by unfold TurnOffLow; decide +kernel, ⟨_, rfl⟩⟩
theorem wit_memory : MemoryOk (hostCmd 2 [0x20000010, 0x11223344]) ∧ MemoryOk (after .xhpWrite (hostCmd 2 [0x20000010, 0x11223344])) := by
  refine ⟨by unfold MemoryOk; decide +kernel, by unfold MemoryOk; decide +kernel⟩

/-! Ill-formed operands are refused, one for each check. -/

theorem test_illFormed_caps : (Instr.capsBlockRx 0 [1, 2, 3]).wellFormed = false := by decide
theorem test_illFormed_eye : (Instr.eyePointDone 4294967295).wellFormed = false := by decide
theorem test_illFormed_packet : (Instr.eventRx ⟨0, 0, 0x21, 2, 0, List.replicate 256 0⟩).wellFormed = false := by decide +kernel
theorem test_illFormed_udp : (Instr.xhpCommandRx 0 default 0 0 (List.replicate 1463 0)).wellFormed = false := by decide +kernel
theorem test_illFormed_canId : (Instr.canFrameRx (.valid { (default : CanFrame) with ident := 1 })).wellFormed = false := by decide
theorem test_illFormed_canRemote : (Instr.canFrameRx (.valid { (default : CanFrame) with rtr := true, fdf := true })).wellFormed = false := by decide
theorem test_illFormed_canData : (Instr.canFrameRx (.valid { (default : CanFrame) with dlc := 2, data := [1] })).wellFormed = false := by decide
theorem test_wellFormed : (Instr.canFrameRx (.valid { (default : CanFrame) with ide := true, ident := 1, fdf := true, dlc := 9, data := List.replicate 12 7 })).wellFormed = true ∧
    Instr.preTickSnapshot.wellFormed = true := by decide

/-! Worked examples of the spec. -/

/-- 06, fractional cell EDGE_POS 243: the edge instant 2,012 ns and the final T_on of 4,036 ns, by reset values. -/
theorem test_example_fractional :
    edgePhase (setReg State.reset (rdlR 0x04C) (reg State.reset (rdlR 0x04C) ||| 243)) * 2 = 2012 ∧ tOn State.reset 26214 * 2 = 4000 ∧
      pulseShape State.reset 1006 2000 = some (2018, false, true) := by decide +kernel

/-- 05, the next bins with MARGIN 8 on a histogram of bins 8 to 24. -/
theorem test_example_zoom :
    zoom (setReg (setReg armBase (rdlR 0x010) 0x5550000C) (rdlR 0x00C) 0x800) ⟨0, 0, 0, [(8, 1), (24, 2)]⟩ = (21830, 13) := by decide +kernel

/-- 08, SDD1: 990,000 and 1,000,000 with DELAY 38 ns of 5,000 ns give 999,924. -/
theorem test_example_delay : rdivUp (1000000 * 5000 + (990000 - 1000000) * 38) 5000 = 999924 := by decide

/-- 10, Table 10-9: x = 6,860,000 x 630 / 13,860,000 = 311.8182, so N is 311. -/
theorem test_example_level : (fpToInt .floor (fpDiv (fpMul 0x4AD159C0 0x441D8000).1 0x4B537CA0).1).1 = 311 := by decide +kernel

/-- 14, HARD_SHORT on G0: CRC-8 0x09, and the message of Table 14-6. -/
theorem test_example_crc : crc8 0x5044E040050108 = 9 := by decide +kernel

/-- 18: the reset rates are 80 quanta of 1 Mbit/s and 10 of 8 Mbit/s. -/
theorem test_example_rates : (nomQuanta armBase, datQuanta armBase) = (80, 10) := by decide +kernel

/-- A cell with a bootstrap channel by the values of 07, Table 7-7: C_BS 10 µF, IQ 4.00 mA, QG 10 µC, UV_TH 12.0 V at 12.796 V with G0 on. -/
def bsCell : State :=
  modSwg (setReg (setReg (setReg (setReg (setReg State.reset (swgCfg 0) 0x41000000) (swgTh 0) 0x00007800) (supR 0x140) 0x06432190) (snsSnap 8) 12796) (snsR 0x040) 0x80000008) fun g =>
    { g with armed := 1, gcmd := 1 }

/-- 07, Table 7-7: T_REM is 199 at 12.796 V. -/
theorem test_example_remaining : reg (bsStep bsCell 0) (supR 0x144) = 0x00C731FC := by decide +kernel

/-- An instance with the nonzero words of 09, Table 9-6. -/
def regulator : State :=
  [(0, 0x3F7FFEB0), (256, 0x3951B717), (384, 0x3F800000), (512, 0x3F000000), (640, 0x43FA0000), (641, 0xBF800000), (768, 0x43FA0000), (832, 0x3ECCCCCD),
   (848, 0xC6C35000), (856, 0x46C35000), (864, 0xC59C4000), (872, 0x459C4000), (880, 0x42480000), (888, 0x3F800000), (904, 0x3F800000)].foldl
    (fun s (e : Nat × Word) => setReg s (lpeR (0x8000 + 4 * e.1)) e.2) (setReg (setReg (inMode .run alignedArm) (lpeMem 0 0) 0x44450000) (lpeMem 0 1) 0x41400000)

/-- 09, tick k of the circulating-current regulator: e0 -8.75, u0 -3,863.0, z0 8.5. -/
theorem test_example_regulator :
    let j := jobRun regulator 0 .normal ⟨1, 1, 1, 1, 1⟩ [0x44458000] [true] [(0x44435000, true)] false
    (j.e, j.u, j.z) = ([0xC10C0000], [0xC5717000], [0x41080000]) := by decide +kernel

end Sys2Proof.Tests
end

section
/-! SUPPORT. What leaves the shared memories as they are: the memory frame of every operation of the model. -/

namespace Sys2Proof.Machine

open Sys2Proof

/-! The memory frame of each operation: all but those of the next section leave the shared memories as they are. The lemmas
stand in the order of the model's files and rewrite `(f s).mem` to `s.mem`, so that one about an operation takes those about
the operations it calls. `simp` keeps the proofs of its `rfl` steps here (`-implicitDefEqProofs`): without them the kernel
would compare two states by evaluating both. -/

/-! A choice between states, and an operation over a list. -/

@[simp] theorem mem_ite (c : Prop) [Decidable c] (a b : State) : (if c then a else b).mem = if c then a.mem else b.mem :=
  apply_ite State.mem c a b

@[simp] theorem mem_dite (c : Prop) [Decidable c] (a : c → State) (b : ¬ c → State) :
    (dite c a b).mem = if h : c then (a h).mem else (b h).mem := apply_dite State.mem c a b

@[simp] theorem foldl_mem {α : Type} (f : State → α → State) (h : ∀ s a, (f s a).mem = s.mem) (l : List α) (s : State) :
    (l.foldl f s).mem = s.mem := by
  induction l generalizing s with
  | nil => rfl
  | cons a l ih => exact (ih _).trans (h s a)

/-- The same, of an operation that carries a result along. -/
@[simp] theorem foldl_fst_mem {α β : Type} (f : State × β → α → State × β) (h : ∀ r a, (f r a).1.mem = r.1.mem) (l : List α)
    (r : State × β) : (l.foldl f r).1.mem = r.1.mem := by
  induction l generalizing r with
  | nil => rfl
  | cons a l ih => exact (ih _).trans (h r a)

/-! The operations of `Machine/Ops.lean`. -/

@[simp] theorem live_mem (s : State) (f : State → State) (h : (f s).mem = s.mem) : (live s f).mem = s.mem := by simp -implicitDefEqProofs [live, h]

@[simp] theorem whenB_mem (b : Bool) (f : State → State) (s : State) (h : (f s).mem = s.mem) : (whenB b f s).mem = s.mem := by
  simp -implicitDefEqProofs [whenB, h]

@[simp] theorem swMark_mem (s : State) (a m : Nat) : (swMark s a m).mem = s.mem := by simp -implicitDefEqProofs [swMark]

@[simp] theorem actionEnd_mem (s : State) (a m : Nat) (again : State → State) (h : ∀ s, (again s).mem = s.mem) :
    (actionEnd s a m again).mem = s.mem := by simp -implicitDefEqProofs [actionEnd, h]

@[simp] theorem countUp_mem (s : State) (a hi lo : Nat) : (countUp s a hi lo).mem = s.mem := by simp -implicitDefEqProofs [countUp]

@[simp] theorem report_mem (s : State) (src : Nat) (k : Kind) (addr : Nat) : (report s src k addr).mem = s.mem := by
  simp -implicitDefEqProofs [report]

@[simp] theorem accessFault_mem (s : State) (a : Nat) : (accessFault s a).mem = s.mem := by simp -implicitDefEqProofs [accessFault]

@[simp] theorem discard_mem (s : State) (cause src blk : Nat) (work : Bool) : (discard s cause src blk work).mem = s.mem := by
  simp -implicitDefEqProofs [discard]

@[simp] theorem safLog_mem (s : State) (typ : Nat) (node : BitVec 14) (addr : Nat) (old new : Word) :
    (safLog s typ node addr old new).mem = s.mem := by simp -implicitDefEqProofs [safLog]

@[simp] theorem logFull_mem (s : State) : (logFull s).mem = s.mem := by simp -implicitDefEqProofs [logFull]

@[simp] theorem regWrite_mem (s : State) (o : Origin) (a : Nat) (r : RegRow) (val : Word) : (regWrite s o a r val).mem = s.mem := by
  simp -implicitDefEqProofs [regWrite]

/-- The row is a search by a difference with a large literal, which the kernel must not unfold: the equation is taken between
functions. -/
@[simp] theorem genWrite_mem (s : State) (o : Origin) (a : Nat) (val : Word) : (genWrite s o a val).mem = s.mem := by
  generalize hg : genWrite = g; delta genWrite at hg; subst hg
  cases h : rowOf a <;> simp -implicitDefEqProofs [h]

@[simp] theorem gate_mem (s : State) (a : Nat) (f : State → State) (h : (f s).mem = s.mem) : (gate s a f).mem = s.mem := by
  simp -implicitDefEqProofs [gate, h]

@[simp] theorem enqueue_mem (s : State) (p : Nat) (pk : Packet) (data : Bool) : (enqueue s p pk data).mem = s.mem := by
  simp -implicitDefEqProofs [enqueue]

@[simp] theorem dropWork_mem (s : State) : (dropWork s).mem = s.mem := by simp -implicitDefEqProofs [dropWork]

@[simp] theorem turnOffAt_mem (s : State) (origin : Nat) : (turnOffAt s origin).mem = s.mem := by simp -implicitDefEqProofs [turnOffAt]

@[simp] theorem turnOff_mem (s : State) : (turnOff s).mem = s.mem := by simp -implicitDefEqProofs [turnOff]

@[simp] theorem partnerCmd_mem (s : State) (val : Word) : (partnerCmd s val).mem = s.mem := by unfold partnerCmd; split <;> simp -implicitDefEqProofs

@[simp] theorem peerTell_mem (s : State) (v : Bool) : (peerTell s v).mem = s.mem := by simp -implicitDefEqProofs [peerTell]

@[simp] theorem intlDrop_mem (s : State) : (intlDrop s).mem = s.mem := by simp -implicitDefEqProofs [intlDrop]

@[simp] theorem undoMark_mem (s : State) : (undoMark s).mem = s.mem := by simp -implicitDefEqProofs [undoMark]

@[simp] theorem wordsBack_mem (w : List Word) (s : State) : (wordsBack w s).mem = s.mem := by simp -implicitDefEqProofs [wordsBack]

@[simp] theorem transBack_mem (u : Undo) (s : State) : (transBack u s).mem = s.mem := by simp -implicitDefEqProofs [transBack]

@[simp] theorem dropTrans_mem (s : State) : (dropTrans s).mem = s.mem := by unfold dropTrans; split <;> simp -implicitDefEqProofs

@[simp] theorem aliveBegin_mem (s : State) : (aliveBegin s).mem = s.mem := by simp -implicitDefEqProofs [aliveBegin]

@[simp] theorem testLeave_mem (s : State) : (testLeave s).mem = s.mem := by simp -implicitDefEqProofs [testLeave]

@[simp] theorem safeEffects_mem (s : State) : (safeEffects s).mem = s.mem := by simp -implicitDefEqProofs [safeEffects]

@[simp] theorem safeCore_mem (s : State) (bit : Nat) (src : Option Nat) : (safeCore s bit src).mem = s.mem := by
  (unfold safeCore; dsimp only; repeat' split) <;> simp -implicitDefEqProofs

@[simp] theorem testAbort_mem (s : State) : (testAbort s).mem = s.mem := by simp -implicitDefEqProofs [testAbort]

@[simp] theorem demandOut_mem (s : State) : (demandOut s).mem = s.mem := by simp -implicitDefEqProofs [demandOut]

@[simp] theorem demandCore_mem (s : State) (bit : Nat) : (demandCore s bit).mem = s.mem := by simp -implicitDefEqProofs [demandCore]

@[simp] theorem enterSafe_mem (s : State) (bit : Nat) (src : Option Nat) : (enterSafe s bit src).mem = s.mem := by
  simp -implicitDefEqProofs [enterSafe]

@[simp] theorem cayLeave_mem (s : State) (p : Nat) (sc : BitVec 2) (hops dep : Nat) : (cayLeave s p sc hops dep).mem = s.mem := by
  simp -implicitDefEqProofs [cayLeave]

@[simp] theorem caySend_mem (s : State) (ps : List Nat) (sc : BitVec 2) (hops : Nat) (dep : Nat → Nat) : (caySend s ps sc hops dep).mem = s.mem := by
  simp -implicitDefEqProofs [caySend]

@[simp] theorem cayApply_mem (s : State) (sc : BitVec 2) (loc : Bool) (hops ports at_ : Nat) : (cayApply s sc loc hops ports at_).mem = s.mem := by
  simp -implicitDefEqProofs [cayApply]

@[simp] theorem cayLaunch_mem (s : State) (sc : BitVec 2) : (cayLaunch s sc).mem = s.mem := by simp -implicitDefEqProofs [cayLaunch]

@[simp] theorem safDemand_mem (s : State) (bit : Nat) : (safDemand s bit).mem = s.mem := by simp -implicitDefEqProofs [safDemand]

@[simp] theorem ledgerRefuse_mem (s : State) : (ledgerRefuse s).mem = s.mem := by simp -implicitDefEqProofs [ledgerRefuse]

@[simp] theorem bypassAsk_mem (s : State) : (bypassAsk s).mem = s.mem := by simp -implicitDefEqProofs [bypassAsk]

@[simp] theorem guardTrip_mem (s : State) (src : Nat) : (guardTrip s src).mem = s.mem := by simp -implicitDefEqProofs [guardTrip]

@[simp] theorem ownIn_mem (s : State) (typs : List Nat) (pk : Packet) (f : State → State) (h : (f s).mem = s.mem) :
    (ownIn s typs pk f).mem = s.mem := by simp -implicitDefEqProofs [ownIn, h]

@[simp] theorem hopIn_mem (s : State) (typ : Nat) (pk : Packet) (f : State → State) (h : (f s).mem = s.mem) : (hopIn s typ pk f).mem = s.mem := by
  simp -implicitDefEqProofs [hopIn, h]

/-! The operations of `Machine/Mem.lean`. -/

@[simp] theorem eccRead_mem (s : State) (t a : Nat) : (eccRead s t a).1.mem = s.mem := by
  (unfold eccRead; dsimp only; repeat' split) <;> simp -implicitDefEqProofs

@[simp] theorem memRead_mem (s : State) (a n : Nat) : (memRead s a n).1.mem = s.mem := by unfold memRead; split <;> simp -implicitDefEqProofs

/-! The operations of `Machine/Lanes.lean`. -/

@[simp] theorem eyeStart_mem (s : State) : (eyeStart s).mem = s.mem := by simp -implicitDefEqProofs [eyeStart]

@[simp] theorem eyeEnd_mem (s : State) (st : Nat) : (eyeEnd s st).mem = s.mem := by simp -implicitDefEqProofs [eyeEnd]

@[simp] theorem eyeAbortOn_mem (s : State) (p : Nat) : (eyeAbortOn s p).mem = s.mem := by simp -implicitDefEqProofs [eyeAbortOn]

@[simp] theorem linkDrop_mem (s : State) (p : Nat) : (linkDrop s p).mem = s.mem := by simp -implicitDefEqProofs [linkDrop]

@[simp] theorem toDetect_mem (s : State) (p : Nat) (loss : Bool) : (toDetect s p loss).mem = s.mem := by simp -implicitDefEqProofs [toDetect]

@[simp] theorem retrain_mem (s : State) (p : Nat) : (retrain s p).mem = s.mem := by simp -implicitDefEqProofs [retrain]

@[simp] theorem followDir_mem (s : State) (p : Nat) (old : Nat) : (followDir s p old).mem = s.mem := by simp -implicitDefEqProofs [followDir]

@[simp] theorem portCfg_mem (s : State) (o : Origin) (p : Nat) (val : Word) : (portCfg s o p val).mem = s.mem := by
  simp -implicitDefEqProofs [portCfg]

@[simp] theorem stageOut_mem (s : State) (p : Nat) : (stageOut s p).mem = s.mem := by unfold stageOut; dsimp only; split <;> simp -implicitDefEqProofs

@[simp] theorem idleExit_mem (s : State) (p : Port) : (idleExit s p).mem = s.mem := by simp -implicitDefEqProofs [idleExit]

@[simp] theorem eyeWrite_mem (s : State) (o : Origin) (val : Word) : (eyeWrite s o val).mem = s.mem := by
  (unfold eyeWrite; dsimp only; repeat' split) <;> simp -implicitDefEqProofs

/-! The operations of `Machine/Reset.lean`. -/

@[simp] theorem safLock_mem (s : State) (node : BitVec 14) : (safLock s node).mem = s.mem := by simp -implicitDefEqProofs [safLock]

@[simp] theorem clearRegs_mem (s : State) (b : Nat) (keep : Nat → Bool) : (clearRegs s b keep).mem = s.mem := by simp -implicitDefEqProofs [clearRegs]

@[simp] theorem capDrop_mem (s : State) : (capDrop s).mem = s.mem := by simp -implicitDefEqProofs [capDrop]

@[simp] theorem coreForget_mem (s : State) (n : Nat) : (coreForget s n).mem = s.mem := by simp -implicitDefEqProofs [coreForget]

@[simp] theorem coreReset_mem (s : State) (n : Nat) : (coreReset s n).mem = s.mem := by simp -implicitDefEqProofs [coreReset]

@[simp] theorem xhpDrop_mem (s : State) (src : Nat) : (xhpDrop s src).mem = s.mem := by simp -implicitDefEqProofs [xhpDrop]

@[simp] theorem blockInit_mem (s : State) (b : Nat) : (blockInit s b).mem = s.mem := by unfold blockInit; split <;> simp -implicitDefEqProofs

@[simp] theorem blockReset_mem (s : State) (src : Nat) : (blockReset s src).mem = s.mem := by simp -implicitDefEqProofs [blockReset]

@[simp] theorem prune_mem (s : State) (src : Nat) : (prune s src).mem = s.mem := by simp -implicitDefEqProofs [prune]

/-! The operations of `Machine/Faults.lean`. -/

@[simp] theorem countNoRoute_mem (s : State) : (countNoRoute s).mem = s.mem := by simp -implicitDefEqProofs [countNoRoute]

@[simp] theorem noRoute_mem (s : State) (src : Option Nat) : (noRoute s src).mem = s.mem := by simp -implicitDefEqProofs [noRoute]

@[simp] theorem logWrite_mem (s : State) (m : HubMsg) (remote : Bool) (node : BitVec 14) : (logWrite s m remote node).mem = s.mem := by
  simp -implicitDefEqProofs [logWrite]

@[simp] theorem eventIn_mem (s : State) (pk : Packet) : (eventIn s pk).mem = s.mem := by simp -implicitDefEqProofs [eventIn]

@[simp] theorem raiseEv_mem (s : State) (n : Nat) (m : Nat) : (raiseEv s n m).mem = s.mem := by simp -implicitDefEqProofs [raiseEv]

@[simp] theorem coreRx_mem (s : State) (n : Nat) (pk : Packet) : (coreRx s n pk).mem = s.mem := by simp -implicitDefEqProofs [coreRx]

@[simp] theorem toCore_mem (s : State) (pk : Packet) : (toCore s pk).mem = s.mem := by simp -implicitDefEqProofs [toCore]

@[simp] theorem eventSend_mem (s : State) (m : HubMsg) : (eventSend s m).mem = s.mem := by
  (unfold eventSend; dsimp only; repeat' split) <;> simp -implicitDefEqProofs

@[simp] theorem record_mem (s : State) (m : HubMsg) : (record s m).mem = s.mem := by simp -implicitDefEqProofs [record]

@[simp] theorem firstFault_mem (s : State) (ms : List HubMsg) (lt : Nat) : (firstFault s ms lt).mem = s.mem := by
  unfold firstFault; dsimp only; split <;> simp -implicitDefEqProofs

@[simp] theorem yieldMark_mem (s : State) : (yieldMark s).mem = s.mem := by simp -implicitDefEqProofs [yieldMark]

@[simp] theorem degrade_mem (s : State) (m : HubMsg) : (degrade s m).mem = s.mem := by unfold degrade; split <;> simp -implicitDefEqProofs

@[simp] theorem aliveStop_mem (s : State) : (aliveStop s).mem = s.mem := by simp -implicitDefEqProofs [aliveStop]

@[simp] theorem nmt_mem (s : State) (m : HubMsg) : (nmt s m).mem = s.mem := by simp -implicitDefEqProofs [nmt]

@[simp] theorem degradedExit_mem (s : State) : (degradedExit s).mem = s.mem := by simp -implicitDefEqProofs [degradedExit]

@[simp] theorem pendWrite_mem (s : State) (o : Origin) (k : Nat) (val : Word) : (pendWrite s o k val).mem = s.mem := by
  simp -implicitDefEqProofs [pendWrite]

@[simp] theorem firstWrite_mem (s : State) (val : Word) : (firstWrite s val).mem = s.mem := by simp -implicitDefEqProofs [firstWrite]

@[simp] theorem injWrite_mem (s : State) (o : Origin) (val : Word) : (injWrite s o val).mem = s.mem := by simp -implicitDefEqProofs [injWrite]

@[simp] theorem reactWrite_mem (s : State) (o : Origin) (a : Nat) (val : Word) : (reactWrite s o a val).mem = s.mem := by
  simp -implicitDefEqProofs [reactWrite]

@[simp] theorem kickWrite_mem (s : State) (o : Origin) : (kickWrite s o).mem = s.mem := by unfold kickWrite; split <;> simp -implicitDefEqProofs

@[simp] theorem aliveWrite_mem (s : State) (o : Origin) (val : Word) : (aliveWrite s o val).mem = s.mem := by simp -implicitDefEqProofs [aliveWrite]

@[simp] theorem kickEnd_mem (s : State) (n : Nat) : (kickEnd s n).mem = s.mem := by simp -implicitDefEqProofs [kickEnd]

@[simp] theorem tempLimit_mem (s : State) (i key : Nat) (t lim : Int) (k : Kind) : (tempLimit s i key t lim k).mem = s.mem := by
  simp -implicitDefEqProofs [tempLimit]

@[simp] theorem bankSample_mem (s : State) (r mv pct : Nat) : (bankSample s r mv pct).mem = s.mem := by simp -implicitDefEqProofs [bankSample]

@[simp] theorem railLimit_mem (s : State) (r key mv pct : Nat) (k : Kind) : (railLimit s r key mv pct k).mem = s.mem := by
  simp -implicitDefEqProofs [railLimit]

@[simp] theorem logStatWrite_mem (s : State) (val : Word) : (logStatWrite s val).mem = s.mem := by simp -implicitDefEqProofs [logStatWrite]

@[simp] theorem limitCheck_mem (s : State) (k : Nat) (n : Nat) (v : Int) : (limitCheck s k n v).mem = s.mem := by
  simp -implicitDefEqProofs [limitCheck]

/-! The operations of `Machine/TickBase.lean`. -/

@[simp] theorem creditSend_mem (s : State) (p c2 c3d c3m : Nat) : (creditSend s p c2 c3d c3m).mem = s.mem := by simp -implicitDefEqProofs [creditSend]

@[simp] theorem creditBack_mem (s : State) (p : Nat) (pk : Packet) : (creditBack s p pk).mem = s.mem := by simp -implicitDefEqProofs [creditBack]

@[simp] theorem alignSend_mem (s : State) (p : Nat) : (alignSend s p).mem = s.mem := by simp -implicitDefEqProofs [alignSend]

@[simp] theorem alignSync_mem (s : State) : (alignSync s).mem = s.mem := by simp -implicitDefEqProofs [alignSync]

@[simp] theorem tickSend_mem (s : State) (ps : List Nat) (no : BitVec 40) (dly : Nat) (at_ : Nat → Nat) : (tickSend s ps no dly at_).mem = s.mem := by
  simp -implicitDefEqProofs [tickSend]

@[simp] theorem ticknoReq_mem (s : State) : (ticknoReq s).mem = s.mem := by unfold ticknoReq; split <;> simp -implicitDefEqProofs

@[simp] theorem numberLost_mem (s : State) : (numberLost s).mem = s.mem := by simp -implicitDefEqProofs [numberLost]

@[simp] theorem tmkFlag_mem (s : State) (bit : Nat) (k : Kind) : (tmkFlag s bit k).mem = s.mem := by simp -implicitDefEqProofs [tmkFlag]

@[simp] theorem tickAdvance_mem (s : State) (inst : Nat) : (tickAdvance s inst).mem = s.mem := by simp -implicitDefEqProofs [tickAdvance]

@[simp] theorem setCmp_mem (s : State) (m st : Nat) : (setCmp s m st).mem = s.mem := by simp -implicitDefEqProofs [setCmp]

@[simp] theorem raiseEvAll_mem (s : State) (m : Nat) : (raiseEvAll s m).mem = s.mem := by simp -implicitDefEqProofs [raiseEvAll]

@[simp] theorem capTrig_mem (s : State) (src : Nat) : (capTrig s src).mem = s.mem := by simp -implicitDefEqProofs [capTrig]

@[simp] theorem cmpFire_mem (s : State) (m st : Nat) : (cmpFire s m st).mem = s.mem := by simp -implicitDefEqProofs [cmpFire]

@[simp] theorem cmpStepped_mem (s : State) (m : Nat) : (cmpStepped s m).mem = s.mem := by simp -implicitDefEqProofs [cmpStepped]

@[simp] theorem cancelTT_mem (s : State) : (cancelTT s).mem = s.mem := by simp -implicitDefEqProofs [cancelTT]

/-! The operations of `Machine/Saffron.lean`. -/

@[simp] theorem firstRise_mem (s : State) : (firstRise s).mem = s.mem := by simp -implicitDefEqProofs [firstRise]

@[simp] theorem outReturn_mem (s : State) : (outReturn s).mem = s.mem := by simp -implicitDefEqProofs [outReturn]

@[simp] theorem latchSet_mem (s : State) (k : Kind) : (latchSet s k).mem = s.mem := by simp -implicitDefEqProofs [latchSet]

@[simp] theorem inTake_mem (s : State) (ch : Nat) : (inTake s ch).mem = s.mem := by simp -implicitDefEqProofs [inTake]

@[simp] theorem bypassWrite_mem (s : State) (o : Origin) (val : Word) : (bypassWrite s o val).mem = s.mem := by
  simp -implicitDefEqProofs [bypassWrite]

@[simp] theorem testBegin_mem (s : State) : (testBegin s).mem = s.mem := by simp -implicitDefEqProofs [testBegin]

@[simp] theorem testNowDo_mem (s : State) : (testNowDo s).mem = s.mem := by simp -implicitDefEqProofs [testNowDo]

@[simp] theorem safCtrlWrite_mem (s : State) (o : Origin) (val : Word) : (safCtrlWrite s o val).mem = s.mem := by
  simp -implicitDefEqProofs [safCtrlWrite]

@[simp] theorem testEnd_mem (s : State) (pass : Bool) (ch : Nat) : (testEnd s pass ch).mem = s.mem := by simp -implicitDefEqProofs [testEnd]

@[simp] theorem unlockTry_mem (s : State) (o : Origin) (lo : Word) : (unlockTry s o lo).mem = s.mem := by simp -implicitDefEqProofs [unlockTry]

@[simp] theorem passwordTake_mem (s : State) (o : Origin) : (passwordTake s o).mem = s.mem := by simp -implicitDefEqProofs [passwordTake]

@[simp] theorem safLockWrite_mem (s : State) (o : Origin) (val : Word) : (safLockWrite s o val).mem = s.mem := by
  simp -implicitDefEqProofs [safLockWrite]

@[simp] theorem serviceWrite_mem (s : State) (o : Origin) (val : Word) : (serviceWrite s o val).mem = s.mem := by
  simp -implicitDefEqProofs [serviceWrite]

@[simp] theorem logAckWrite_mem (s : State) (val : Word) : (logAckWrite s val).mem = s.mem := by simp -implicitDefEqProofs [logAckWrite]

/-! The operations of `Machine/Modes.lean`. -/

@[simp] theorem settle_mem (s : State) (i : Nat) : (settle s i).mem = s.mem := by simp -implicitDefEqProofs [settle]

@[simp] theorem settleAll_mem (s : State) : (settleAll s).mem = s.mem := by simp -implicitDefEqProofs [settleAll]

@[simp] theorem testDue_mem (s : State) : (testDue s).mem = s.mem := by simp -implicitDefEqProofs [testDue]

@[simp] theorem forcedEnd_mem (s : State) : (forcedEnd s).mem = s.mem := by simp -implicitDefEqProofs [forcedEnd]

@[simp] theorem rdlStart_mem (s : State) : (rdlStart s).mem = s.mem := by simp -implicitDefEqProofs [rdlStart]

@[simp] theorem setMode_mem (s : State) (m : Mode) : (setMode s m).mem = s.mem := by simp -implicitDefEqProofs [setMode]

@[simp] theorem quarantine_mem (s : State) (bit : Nat) : (quarantine s bit).mem = s.mem := by simp -implicitDefEqProofs [quarantine]

@[simp] theorem refuse_mem (s : State) (code : Nat) : (refuse s code).mem = s.mem := by simp -implicitDefEqProofs [refuse]

@[simp] theorem cmdEffect_mem (s : State) : (cmdEffect s).mem = s.mem := by unfold cmdEffect; split <;> simp -implicitDefEqProofs

@[simp] theorem cellPrecharge_mem (s : State) : (cellPrecharge s).mem = s.mem := by simp -implicitDefEqProofs [cellPrecharge]

@[simp] theorem feedGates_mem (s : State) : (feedGates s).mem = s.mem := by simp -implicitDefEqProofs [feedGates]

/-! The operations of `Machine/Time.lean`. -/

@[simp] theorem lowRead_mem (s : State) (a : Nat) : (lowRead s a).mem = s.mem := by simp -implicitDefEqProofs [lowRead]

@[simp] theorem tickLaunch_mem (s : State) : (tickLaunch s).mem = s.mem := by simp -implicitDefEqProofs [tickLaunch]

@[simp] theorem symbolIn_mem (s : State) (p : Nat) (tt dly : Nat) (at_ : Nat) : (symbolIn s p tt dly at_).mem = s.mem := by
  simp -implicitDefEqProofs [symbolIn]

@[simp] theorem selectParent_mem (s : State) (second : Bool) : (selectParent s second).mem = s.mem := by simp -implicitDefEqProofs [selectParent]

@[simp] theorem primaryDown_mem (s : State) : (primaryDown s).mem = s.mem := by simp -implicitDefEqProofs [primaryDown]

theorem symbolTick_mem (s : State) (u : State) (h : symbolTick s = some u) : u.mem = s.mem := by
  unfold symbolTick at h; (repeat' split at h) <;> simp -implicitDefEqProofs at h <;> simp -implicitDefEqProofs [← h]

theorem missedTick_mem (s : State) (u : State) (h : missedTick s = some u) : u.mem = s.mem := by
  unfold missedTick at h; grind [primaryDown_mem, tickAdvance_mem, tmkFlag_mem, report_mem, modTmk_mem]

theorem stationTick_mem (s : State) (u : State) (h : stationTick s = some u) : u.mem = s.mem := by
  unfold stationTick at h
  split at h
  · cases h
  · cases h; simp -implicitDefEqProofs

@[simp] theorem annSend_mem (a : Announce) (s : State) (p : Nat) : (annSend a s p).mem = s.mem := by simp -implicitDefEqProofs [annSend]

@[simp] theorem announce_mem (s : State) (a : Announce) : (announce s a).mem = s.mem := by simp -implicitDefEqProofs [announce]

@[simp] theorem periodBoundary_mem (s : State) : (periodBoundary s).mem = s.mem := by unfold periodBoundary; split <;> simp -implicitDefEqProofs

@[simp] theorem renumberBoundary_mem (s : State) : (renumberBoundary s).mem = s.mem := by
  (simp only [renumberBoundary]; repeat' split) <;> simp -implicitDefEqProofs

@[simp] theorem ticknoAnswer_mem (s : State) (p : Nat) : (ticknoAnswer s p).mem = s.mem := by
  (unfold ticknoAnswer; dsimp only; repeat' split) <;> simp -implicitDefEqProofs

@[simp] theorem coupleTry_mem (s : State) : (coupleTry s).mem = s.mem := by simp -implicitDefEqProofs [coupleTry]

@[simp] theorem remeasureAll_mem (s : State) : (remeasureAll s).mem = s.mem := by simp -implicitDefEqProofs [remeasureAll]

@[simp] theorem tmkCtrlWrite_mem (s : State) (o : Origin) (val : Word) : (tmkCtrlWrite s o val).mem = s.mem := by
  simp -implicitDefEqProofs [tmkCtrlWrite]

@[simp] theorem cmpArm_mem (s : State) (o : Origin) (m : Nat) (val : Word) : (cmpArm s o m val).mem = s.mem := by simp -implicitDefEqProofs [cmpArm]

@[simp] theorem cmpTry_mem (s : State) (m : Nat) : (cmpTry s m).mem = s.mem := by simp -implicitDefEqProofs [cmpTry]

@[simp] theorem cmpCtrl_mem (s : State) (o : Origin) (m : Nat) (val : Word) : (cmpCtrl s o m val).mem = s.mem := by
  simp -implicitDefEqProofs [cmpCtrl]

@[simp] theorem daccSet_mem (s : State) (p d : Nat) : (daccSet s p d).mem = s.mem := by simp -implicitDefEqProofs [daccSet]

@[simp] theorem exchange_mem (s : State) (p : Nat) (t1 t2 t3 t4 : Nat) : (exchange s p t1 t2 t3 t4).mem = s.mem := by
  simp -implicitDefEqProofs [exchange]

/-! The operations of `Machine/LinkUp.lean`. -/

@[simp] theorem peerStore_mem (s : State) (p : Nat) (b : List Byte) : (peerStore s p b).mem = s.mem := by simp -implicitDefEqProofs [peerStore]

@[simp] theorem capsTick_mem (s : State) (p : Nat) (b : List Byte) : (capsTick s p b).mem = s.mem := by simp -implicitDefEqProofs [capsTick]

@[simp] theorem capsJudge_mem (s : State) (p : Nat) (b : List Byte) : (capsJudge s p b).mem = s.mem := by simp -implicitDefEqProofs [capsJudge]

@[simp] theorem capsRepeat_mem (s : State) (p : Port) : (capsRepeat s p).mem = s.mem := by simp -implicitDefEqProofs [capsRepeat]

@[simp] theorem capsIn_mem (s : State) (p : Port) (b : List Byte) : (capsIn s p b).mem = s.mem := by simp -implicitDefEqProofs [capsIn]

@[simp] theorem activeAlign_mem (s : State) (p : Nat) : (activeAlign s p).mem = s.mem := by simp -implicitDefEqProofs [activeAlign]

/-! The operations of `Machine/Fabric.lean`. -/

@[simp] theorem portActive_mem (s : State) (p : Port) : (portActive s p).mem = s.mem := by simp -implicitDefEqProofs [portActive]

@[simp] theorem txPacket_mem (s : State) (p : Port) (pk : Packet) : (txPacket s p pk).mem = s.mem := by simp -implicitDefEqProofs [txPacket]

theorem txAbort_mem (s : State) (p : Port) (cls at_ : Nat) (u : State) (h : txAbort s p cls at_ = some u) : u.mem = s.mem := by
  obtain ⟨k, -, rfl⟩ := Option.map_eq_some_iff.mp h
  simp -implicitDefEqProofs

theorem txC1_mem (s : State) (p : Port) (at_ : Nat) (u : State) (h : txC1 s p at_ = some u) : u.mem = s.mem := by
  unfold txC1 at h
  split at h
  · cases h; exact txAbort_mem _ _ _ _ _ ‹_›
  · cases h; simp -implicitDefEqProofs
  · cases h

@[simp] theorem txCut_mem (s : State) (p : Port) : (txCut s p).mem = s.mem := by
  unfold txCut; dsimp only
  split
  · rfl
  · split
    · rfl
    · split
      · simp -implicitDefEqProofs [txC1_mem _ _ _ _ ‹_›]
      · rfl

@[simp] theorem txResume_mem (s : State) (p : Port) (c : Resume) : (txResume s p c).mem = s.mem := by simp -implicitDefEqProofs [txResume]

@[simp] theorem txNext_mem (s : State) (p : Port) : (txNext s p).mem = s.mem := by unfold txNext; grind [txAbort_mem, txPacket_mem, modPort_mem]

@[simp] theorem txStart_mem (s : State) (p : Port) : (txStart s p).mem = s.mem := by
  unfold txStart; grind [txC1_mem, txCut_mem, txResume_mem, txNext_mem, idleExit_mem, modPort_mem]

@[simp] theorem allPorts_mem (s : State) (f : State → Port → State) (h : ∀ s p, (f s p).mem = s.mem) : (allPorts s f).mem = s.mem := by
  simp -implicitDefEqProofs [allPorts, h]

@[simp] theorem countAbort_mem (s : State) : (countAbort s).mem = s.mem := by simp -implicitDefEqProofs [countAbort]

@[simp] theorem sendPacket_mem (s : State) (pk : Packet) : (sendPacket s pk).1.mem = s.mem := by
  unfold sendPacket; split <;> simp -implicitDefEqProofs

@[simp] theorem emit_mem (s : State) (pk : Packet) : (emit s pk).mem = s.mem := by simp -implicitDefEqProofs [emit]

@[simp] theorem forward_mem (s : State) (src : Option Nat) (pk : Packet) (arr : Arrival) : (forward s src pk arr).mem = s.mem := by
  (unfold forward; dsimp only; repeat' split) <;> simp -implicitDefEqProofs

@[simp] theorem orphansRoute_mem (s : State) : (orphansRoute s).mem = s.mem := by
  unfold orphansRoute
  rw [foldl_mem]
  · rfl
  · intro s e
    dsimp only
    (repeat' split) <;> simp -implicitDefEqProofs

@[simp] theorem untrack_mem (s : State) (ep : Fin 3) (seq : BitVec 8) : (untrack s ep seq).1.mem = s.mem := by
  unfold untrack; split <;> simp -implicitDefEqProofs

@[simp] theorem cayCtrlWrite_mem (s : State) (o : Origin) (val : Word) : (cayCtrlWrite s o val).mem = s.mem := by
  simp -implicitDefEqProofs [cayCtrlWrite]

@[simp] theorem cayReceive_mem (s : State) (ports scope hops at_ : Nat) : (cayReceive s ports scope hops at_).mem = s.mem := by
  (unfold cayReceive; dsimp only; repeat' split) <;> simp -implicitDefEqProofs

@[simp] theorem cayStatWrite_mem (s : State) (val : Word) : (cayStatWrite s val).mem = s.mem := by simp -implicitDefEqProofs [cayStatWrite]

/-! The operations of `Machine/Guard.lean`. -/

@[simp] theorem chFall_mem (s : State) (m : Nat) : (chFall s m).mem = s.mem := by simp -implicitDefEqProofs [chFall]

@[simp] theorem chRise_mem (s : State) (m : Nat) : (chRise s m).mem = s.mem := by simp -implicitDefEqProofs [chRise]

@[simp] theorem legSet_mem (s : State) (l : Nat) (up lo : Bool) : (legSet s l up lo).mem = s.mem := by simp -implicitDefEqProofs [legSet]

@[simp] theorem detect_mem (s : State) (m : Nat) (bit : Nat) (k : Kind) : (detect s m bit k).mem = s.mem := by simp -implicitDefEqProofs [detect]

@[simp] theorem gfbSet_mem (s : State) (m : Nat) (v : Bool) : (gfbSet s m v).mem = s.mem := by simp -implicitDefEqProofs [gfbSet]

/-! The operations of `Machine/Sense.lean`. -/

@[simp] theorem ditherEnd_mem (s : State) (c : Nat) : (ditherEnd s c).mem = s.mem := by simp -implicitDefEqProofs [ditherEnd]

@[simp] theorem ditherSample_mem (s : State) (c : Nat) (raw : Nat) (d : Bool) : (ditherSample s c raw d).mem = s.mem := by
  simp -implicitDefEqProofs [ditherSample]

@[simp] theorem sarTake_mem (s : State) (c raw : Nat) : (sarTake s c raw).mem = s.mem := by simp -implicitDefEqProofs [sarTake]

@[simp] theorem sarLatch_mem (late : KV (Option Word)) (s : State) (c : Nat) : (sarLatch late s c).mem = s.mem := by
  (unfold sarLatch; dsimp only; repeat' split) <;> simp -implicitDefEqProofs

@[simp] theorem snsLatch_mem (s : State) : (snsLatch s).mem = s.mem := by simp -implicitDefEqProofs [snsLatch]

@[simp] theorem qTrigger_mem (s : State) (c : Nat) (hit : Option (Nat × Word)) : (qTrigger s c hit).mem = s.mem := by
  simp -implicitDefEqProofs [qTrigger]

@[simp] theorem qTriggers_mem (s : State) (trig ix : Nat) (hit : Option (Nat × Word)) : (qTriggers s trig ix hit).mem = s.mem := by
  simp -implicitDefEqProofs [qTriggers]

@[simp] theorem sdDeliver_mem (s : State) (n : Nat) (frm : Nat) (v : Int) : (sdDeliver s n frm v).mem = s.mem := by
  simp -implicitDefEqProofs [sdDeliver]

@[simp] theorem pulseMark_mem (s : State) (old : Word) : (pulseMark s old).mem = s.mem := by simp -implicitDefEqProofs [pulseMark]

@[simp] theorem pulseStep_mem (s : State) (a b : Bool) (t : Nat) : (pulseStep s a b t).mem = s.mem := by
  (unfold pulseStep; dsimp only; repeat' split) <;> simp -implicitDefEqProofs

@[simp] theorem pulseAccept_mem (s : State) : (pulseAccept s).mem = s.mem := by unfold pulseAccept; dsimp only; split <;> simp -implicitDefEqProofs

@[simp] theorem snsWrite_mem (s : State) (o : Origin) (a : Nat) (val : Word) : (snsWrite s o a val).mem = s.mem := by
  simp -implicitDefEqProofs [snsWrite]

/-! The operations of `Machine/Ledger.lean`. -/

@[simp] theorem wakeStep_mem (s : State) : (wakeStep s).mem = s.mem := by (unfold wakeStep; dsimp only; repeat' split) <;> simp -implicitDefEqProofs

@[simp] theorem bsStep_mem (s : State) (m : Nat) : (bsStep s m).mem = s.mem := by simp -implicitDefEqProofs [bsStep]

@[simp] theorem ledger_mem (s : State) : (ledger s).mem = s.mem := by simp -implicitDefEqProofs [ledger]

@[simp] theorem ledgerMeasure_mem (s : State) (mw : Nat) : (ledgerMeasure s mw).mem = s.mem := by simp -implicitDefEqProofs [ledgerMeasure]

@[simp] theorem ledgerNewTick_mem (s : State) : (ledgerNewTick s).mem = s.mem := by simp -implicitDefEqProofs [ledgerNewTick]

@[simp] theorem holdupCheck_mem (s : State) : (holdupCheck s).mem = s.mem := by simp -implicitDefEqProofs [holdupCheck]

/-! The operations of `Machine/Riddle.lean`. -/

@[simp] theorem rdlTick_mem (s : State) : (rdlTick s).mem = s.mem := by simp -implicitDefEqProofs [rdlTick]

@[simp] theorem rakeIn_mem (s : State) (p : Nat) (pk : Packet) (arr : Arrival) : (rakeIn s p pk arr).mem = s.mem := by
  simp -implicitDefEqProofs [rakeIn]

@[simp] theorem histStore_mem (s : State) (h : Hist) : (histStore s h).mem = s.mem := by
  simp -implicitDefEqProofs only [histStore, setReg_mem, foldl_mem, implies_true]

@[simp] theorem histDone_mem (s : State) (h : Hist) : (histDone s h).mem = s.mem := by simp -implicitDefEqProofs [histDone]

@[simp] theorem rakeStart_mem (s : State) (planeB : Bool) : (rakeStart s planeB).mem = s.mem := by
  (unfold rakeStart; dsimp only; repeat' split) <;> simp -implicitDefEqProofs

@[simp] theorem rakeOutput_mem (s : State) (planeB : Bool) : (rakeOutput s planeB).mem = s.mem := by simp -implicitDefEqProofs [rakeOutput]

@[simp] theorem descSend_mem (s : State) (p : Nat) (q : Quota) : (descSend s p q).mem = s.mem := by simp -implicitDefEqProofs [descSend]

@[simp] theorem holdSend_mem (s : State) (q : Quota) : (holdSend s q).mem = s.mem := by simp -implicitDefEqProofs [holdSend]

@[simp] theorem splitSend_mem (s : State) (q : Quota) : (splitSend s q).1.mem = s.mem := by simp -implicitDefEqProofs [splitSend]

@[simp] theorem mirrorSend_mem (s : State) (pk : Packet) : (mirrorSend s pk).mem = s.mem := by unfold mirrorSend; split <;> simp -implicitDefEqProofs

@[simp] theorem binsSend_mem (s : State) : (binsSend s).mem = s.mem := by simp -implicitDefEqProofs [binsSend]

@[simp] theorem rdlFlag_mem (s : State) (bit : Nat) (k : Kind) : (rdlFlag s bit k).mem = s.mem := by simp -implicitDefEqProofs [rdlFlag]

@[simp] theorem selectRun_mem (s : State) (n0 : Int) (fduty : Nat) : (selectRun s n0 fduty).mem = s.mem := by
  unfold selectRun; split <;> simp -implicitDefEqProofs

@[simp] theorem selectTry_mem (s : State) : (selectTry s).mem = s.mem := by simp -implicitDefEqProofs [selectTry]

@[simp] theorem levelLate_mem (s : State) : (levelLate s).mem = s.mem := by simp -implicitDefEqProofs [levelLate]

@[simp] theorem levelWrite_mem (s : State) (o : Origin) (val : Word) : (levelWrite s o val).mem = s.mem := by simp -implicitDefEqProofs [levelWrite]

@[simp] theorem rdlCtrlWrite_mem (s : State) (o : Origin) (val : Word) : (rdlCtrlWrite s o val).mem = s.mem := by
  simp -implicitDefEqProofs [rdlCtrlWrite]

@[simp] theorem binsIn_mem (s : State) (p : Nat) (pk : Packet) : (binsIn s p pk).mem = s.mem := by simp -implicitDefEqProofs [binsIn]

@[simp] theorem holdTick_mem (s : State) : (holdTick s).mem = s.mem := by simp -implicitDefEqProofs [holdTick]

@[simp] theorem deblock_mem (s : State) : (deblock s).mem = s.mem := by simp -implicitDefEqProofs [deblock]

@[simp] theorem descentIn_mem (s : State) (p : Nat) (pk : Packet) : (descentIn s p pk).mem = s.mem := by simp -implicitDefEqProofs [descentIn]

@[simp] theorem descentMissed_mem (s : State) : (descentMissed s).mem = s.mem := by simp -implicitDefEqProofs [descentMissed]

/-! The operations of `Machine/Insertion.lean`. -/

@[simp] theorem edgeCfgFault_mem (s : State) : (edgeCfgFault s).mem = s.mem := by simp -implicitDefEqProofs [edgeCfgFault]

@[simp] theorem cellTake_mem (s : State) (c : Cell) (fr : Bool) : (cellTake s c fr).mem = s.mem := by simp -implicitDefEqProofs [cellTake]

@[simp] theorem edgeTake_mem (s : State) (d : Decision) : (edgeTake s d).mem = s.mem := by
  (unfold edgeTake; dsimp only; repeat' split) <;> simp -implicitDefEqProofs

@[simp] theorem forcedEdge_mem (s : State) : (forcedEdge s).mem = s.mem := by unfold forcedEdge; split <;> simp -implicitDefEqProofs

@[simp] theorem edgeInstant_mem (s : State) : (edgeInstant s).mem = s.mem := by
  (unfold edgeInstant; dsimp only; repeat' split) <;> simp -implicitDefEqProofs

@[simp] theorem insertRefuse_mem (s : State) : (insertRefuse s).mem = s.mem := by simp -implicitDefEqProofs [insertRefuse]

@[simp] theorem insertIn_mem (s : State) (pk : Packet) : (insertIn s pk).mem = s.mem := by
  (unfold insertIn; dsimp only; repeat' split) <;> simp -implicitDefEqProofs

@[simp] theorem cellCfgWrite_mem (s : State) (o : Origin) (val : Word) : (cellCfgWrite s o val).mem = s.mem := by
  simp -implicitDefEqProofs [cellCfgWrite]

/-! The operations of `Machine/Loop.lean`. -/

@[simp] theorem modInst_mem (s : State) (i : Nat) (f : Inst → Inst) : (modInst s i f).mem = s.mem := by simp -implicitDefEqProofs [modInst]

@[simp] theorem lpeCfgFault_mem (s : State) (a : Nat) : (lpeCfgFault s a).mem = s.mem := by simp -implicitDefEqProofs [lpeCfgFault]

@[simp] theorem putWords_mem (s : State) (a : Nat) (ws : List Word) : (putWords s a ws).mem = s.mem := by simp -implicitDefEqProofs [putWords]

@[simp] theorem followErr_mem (s : State) (i : Nat) (z : Sizes) (st : LoopSt) : (followErr s i z st).mem = s.mem := by
  simp -implicitDefEqProofs [followErr]

@[simp] theorem feedbackLost_mem (s : State) (i : Nat) : (feedbackLost s i).mem = s.mem := by simp -implicitDefEqProofs [feedbackLost]

@[simp] theorem lpeEvent_mem (s : State) : (lpeEvent s).mem = s.mem := by simp -implicitDefEqProofs [lpeEvent]

@[simp] theorem classS_mem (s : State) (i : Nat) : (classS s i).mem = s.mem := by simp -implicitDefEqProofs [classS]

@[simp] theorem siCtrlWrite_mem (s : State) (o : Origin) (i : Nat) (val : Word) : (siCtrlWrite s o i val).mem = s.mem := by
  simp -implicitDefEqProofs [siCtrlWrite]

@[simp] theorem qStop_mem (s : State) (c : Nat) : (qStop s c).mem = s.mem := by simp -implicitDefEqProofs [qStop]

@[simp] theorem qCtrlWrite_mem (s : State) (o : Origin) (c : Nat) (val : Word) : (qCtrlWrite s o c val).mem = s.mem := by
  simp -implicitDefEqProofs [qCtrlWrite]

@[simp] theorem cascadeOne_mem (s : State) (c : Nat) (hit : Option (Nat × Word)) : (cascadeOne s c hit).mem = s.mem := by
  simp -implicitDefEqProofs [cascadeOne]

@[simp] theorem chainOver_mem (s : State) (c : Nat) : (chainOver s c).mem = s.mem := by simp -implicitDefEqProofs [chainOver]

@[simp] theorem cascadeRun_mem (n : Nat) (s : State) (c : Nat) (hit : Option (Nat × Word)) : (cascadeRun n s c hit).mem = s.mem := by
  induction n generalizing s c with
  | zero => rfl
  | succ k ih => simp -implicitDefEqProofs [cascadeRun, ih]

@[simp] theorem qFinish_mem (s : State) (r : QRun) : (qFinish s r).mem = s.mem := by simp -implicitDefEqProofs [qFinish]

@[simp] theorem lpeClock_mem (s : State) : (lpeClock s).mem = s.mem := by simp -implicitDefEqProofs [lpeClock]

@[simp] theorem takeTrigger_mem (s : State) (c : Nat) : (takeTrigger s c).mem = s.mem := by simp -implicitDefEqProofs [takeTrigger]

@[simp] theorem lpeIdleWrite_mem (s : State) (o : Origin) (i a : Nat) (val : Word) : (lpeIdleWrite s o i a val).mem = s.mem := by
  simp -implicitDefEqProofs [lpeIdleWrite]

@[simp] theorem lpeWrite_mem (s : State) (o : Origin) (off : Nat) (val : Word) : (lpeWrite s o off val).mem = s.mem := by
  simp -implicitDefEqProofs [lpeWrite]

@[simp] theorem referenceIn_mem (s : State) (pk : Packet) : (referenceIn s pk).mem = s.mem := by simp -implicitDefEqProofs [referenceIn]

@[simp] theorem referenceLatch_mem (s : State) : (referenceLatch s).mem = s.mem := by unfold referenceLatch; split <;> simp -implicitDefEqProofs

@[simp] theorem lpeTick_mem (s : State) : (lpeTick s).mem = s.mem := by simp -implicitDefEqProofs [lpeTick]

/-! The operations of `Machine/Period.lean`. -/

@[simp] theorem periodCheck_mem (s : State) (units : Nat) : (periodCheck s units).mem = s.mem := by simp -implicitDefEqProofs [periodCheck]

@[simp] theorem periodWrite_mem (s : State) (o : Origin) (val : Word) : (periodWrite s o val).mem = s.mem := by
  simp -implicitDefEqProofs [periodWrite]

@[simp] theorem announceIn_mem (s : State) (p : Nat) (a : Announce) : (announceIn s p a).mem = s.mem := by
  unfold announceIn; split <;> simp -implicitDefEqProofs

/-! The operations of `Machine/Station.lean`. -/

@[simp] theorem ethQueue_mem (s : State) (e : Nat) (f : EthTx) : (ethQueue s e f).mem = s.mem := by simp -implicitDefEqProofs [ethQueue]

@[simp] theorem ethOrig_mem (s : State) (ps : List Nat) (f : EthTx) : (ethOrig s ps f).mem = s.mem := by simp -implicitDefEqProofs [ethOrig]

@[simp] theorem ethSend_mem (s : State) (f : EthTx) : (ethSend s f).mem = s.mem := by simp -implicitDefEqProofs [ethSend]

@[simp] theorem ethFrom_mem (s : State) (e : Nat) (f : EthTx) : (ethFrom s e f).mem = s.mem := by simp -implicitDefEqProofs [ethFrom]

@[simp] theorem ethStart_mem (s : State) (e : Fin 2) (at_ : Nat) (n : Option Nat) (f : EthTx) : (ethStart s e at_ n f).mem = s.mem := by
  simp -implicitDefEqProofs [ethStart]

@[simp] theorem supervise_mem (s : State) : (supervise s).mem = s.mem := by simp -implicitDefEqProofs [supervise]

@[simp] theorem ethFirmware_mem (s : State) (e : Nat) (desc : Option (BitVec 8)) : (ethFirmware s e desc).mem = s.mem := by
  unfold ethFirmware; split <;> simp -implicitDefEqProofs

@[simp] theorem ethTx_mem (s : State) (e : Fin 2) (desc : Option (BitVec 8)) : (ethTx s e desc).mem = s.mem := by
  (unfold ethTx; dsimp only; repeat' split) <;> simp -implicitDefEqProofs

@[simp] theorem ethStamp_mem (s : State) (e : Nat) (l : List Byte) : (ethStamp s e l).mem = s.mem := by
  unfold ethStamp; split <;> simp -implicitDefEqProofs

@[simp] theorem ethForward_mem (s : State) (e : Nat) (l : List Byte) : (ethForward s e l).mem = s.mem := by
  (unfold ethForward; dsimp only; repeat' split) <;> simp -implicitDefEqProofs

@[simp] theorem ethTake_mem (s : State) (e : Nat) (f : EthFrame) : (ethTake s e f).1.mem = s.mem := by
  (unfold ethTake; dsimp only; repeat' split) <;> simp -implicitDefEqProofs

@[simp] theorem ethFrameIn_mem (s : State) (e : Nat) (f : EthFrame) (freed : Nat) : (ethFrameIn s e f freed).mem = s.mem := by
  (unfold ethFrameIn; dsimp only; repeat' split) <;> simp -implicitDefEqProofs

@[simp] theorem ethFirst_mem (s : State) (e : Nat) (f : EthFrame) (g : State → List Byte → State) (h : ∀ s l, (g s l).mem = s.mem) :
    (ethFirst s e f g).mem = s.mem := by simp -implicitDefEqProofs [ethFirst, h]

@[simp] theorem subCfgWrite_mem (s : State) (o : Origin) (k : Nat) (val : Word) : (subCfgWrite s o k val).mem = s.mem := by
  simp -implicitDefEqProofs [subCfgWrite]

@[simp] theorem svFrameIn_mem (s : State) (k : Nat) (f : SvFrame) : (svFrameIn s k f).mem = s.mem := by simp -implicitDefEqProofs [svFrameIn]

@[simp] theorem svTick_mem (s : State) : (svTick s).mem = s.mem := by simp -implicitDefEqProofs [svTick]

@[simp] theorem svPublish_mem (s : State) (k : Nat) : (svPublish s k).mem = s.mem := by simp -implicitDefEqProofs [svPublish]

@[simp] theorem gooseSend_mem (s : State) (g : Nat) : (gooseSend s g).mem = s.mem := by simp -implicitDefEqProofs [gooseSend]

@[simp] theorem gooseChange_mem (s : State) (g : Nat) : (gooseChange s g).mem = s.mem := by simp -implicitDefEqProofs [gooseChange]

@[simp] theorem gpubWrite_mem (s : State) (o : Origin) (g : Nat) (val : Word) : (gpubWrite s o g val).mem = s.mem := by
  simp -implicitDefEqProofs [gpubWrite]

@[simp] theorem gooseIn_mem (s : State) (g : Nat) (f : GooseFrame) : (gooseIn s g f).mem = s.mem := by simp -implicitDefEqProofs [gooseIn]

@[simp] theorem gsubWrite_mem (s : State) (o : Origin) (g : Nat) (val : Word) : (gsubWrite s o g val).mem = s.mem := by
  simp -implicitDefEqProofs [gsubWrite]

@[simp] theorem xhpSend_mem (s : State) (ip : Word) (port : BitVec 16) (op : Nat) (tag : Word) (status : Nat) (data : List Word) :
    (xhpSend s ip port op tag status data).mem = s.mem := by simp -implicitDefEqProofs [xhpSend]

@[simp] theorem xhpReply_mem (s : State) (c : XCmd) (status : Nat) (data : List Word) : (xhpReply s c status data).mem = s.mem := by
  simp -implicitDefEqProofs [xhpReply]

@[simp] theorem xhpIn_mem (s : State) (ip : Word) (port : BitVec 16) (b : List Byte) : (xhpIn s ip port b).mem = s.mem := by
  simp -implicitDefEqProofs [xhpIn]

@[simp] theorem setLch_mem (s : State) (j st : Nat) : (setLch s j st).mem = s.mem := by simp -implicitDefEqProofs [setLch]

@[simp] theorem lchArm_mem (s : State) (o : Origin) (j : Nat) (val : Word) : (lchArm s o j val).mem = s.mem := by simp -implicitDefEqProofs [lchArm]

@[simp] theorem lchSend_mem (s : State) (j st : Nat) : (lchSend s j st).mem = s.mem := by simp -implicitDefEqProofs [lchSend]

@[simp] theorem lchTry_mem (s : State) (j : Nat) : (lchTry s j).mem = s.mem := by simp -implicitDefEqProofs [lchTry]

@[simp] theorem lchStepped_mem (s : State) (j : Nat) : (lchStepped s j).mem = s.mem := by simp -implicitDefEqProofs [lchStepped]

@[simp] theorem ptChange_mem (s : State) (n : Nat) (v : Nat) : (ptChange s n v).mem = s.mem := by simp -implicitDefEqProofs [ptChange]

@[simp] theorem ptStep_mem (s : State) (n : Nat) (val : Word) : (ptStep s n val).mem = s.mem := by simp -implicitDefEqProofs [ptStep]

@[simp] theorem ptWrite_mem (s : State) (n off : Nat) (val : Word) : (ptWrite s n off val).mem = s.mem := by
  unfold ptWrite; split <;> simp -implicitDefEqProofs

@[simp] theorem ptDomainWrite_mem (s : State) (o : Origin) (n : Nat) (val : Word) : (ptDomainWrite s o n val).mem = s.mem := by
  simp -implicitDefEqProofs [ptDomainWrite]

/-! The operations of `Machine/Capture.lean`. -/

@[simp] theorem capStart_mem (s : State) : (capStart s).mem = s.mem := by simp -implicitDefEqProofs [capStart]

@[simp] theorem capArm_mem (s : State) : (capArm s).mem = s.mem := by unfold capArm; split <;> simp -implicitDefEqProofs

@[simp] theorem capCtrlWrite_mem (s : State) (o : Origin) (val : Word) : (capCtrlWrite s o val).mem = s.mem := by
  simp -implicitDefEqProofs [capCtrlWrite]

@[simp] theorem capWrite_mem (s : State) (o : Origin) (a : Nat) (val : Word) : (capWrite s o a val).mem = s.mem := by
  simp -implicitDefEqProofs [capWrite]

@[simp] theorem capCompareAll_mem (s : State) : (capCompareAll s).1.mem = s.mem := by
  unfold capCompareAll
  refine foldl_fst_mem _ (fun r m => ?_) _ _
  split <;> rfl

@[simp] theorem capQueue_mem (s : State) (kind : Nat) (stamp : List Word) (count src : Nat) (data : List Word) :
    (capQueue s kind stamp count src data).mem = s.mem := by simp -implicitDefEqProofs [capQueue]

@[simp] theorem capClose_mem (s : State) : (capClose s).mem = s.mem := by simp -implicitDefEqProofs [capClose]

@[simp] theorem capEnd_mem (s : State) : (capEnd s).mem = s.mem := by simp -implicitDefEqProofs [capEnd]

@[simp] theorem capStreamRow_mem (s : State) (stamp : List Word) (row : List Word) (src : Nat) : (capStreamRow s stamp row src).mem = s.mem := by
  simp -implicitDefEqProofs [capStreamRow]

@[simp] theorem capFinish_mem (s : State) (stopped : Bool) : (capFinish s stopped).mem = s.mem := by simp -implicitDefEqProofs [capFinish]

@[simp] theorem capMissed_mem (s : State) (stamp : List Word) : (capMissed s stamp).mem = s.mem := by simp -implicitDefEqProofs [capMissed]

@[simp] theorem capRearm_mem (s : State) : (capRearm s).mem = s.mem := by (simp only [capRearm]; repeat' split) <;> simp -implicitDefEqProofs

@[simp] theorem capStreamSend_mem (s : State) : (capStreamSend s).mem = s.mem := by
  (unfold capStreamSend; dsimp only; repeat' split) <;> simp -implicitDefEqProofs

@[simp] theorem streamIn_mem (s : State) (pk : Packet) : (streamIn s pk).mem = s.mem := by simp -implicitDefEqProofs [streamIn]

/-! The operations of `Machine/Pair.lean`. -/

@[simp] theorem pairCfgWrite_mem (s : State) (o : Origin) (val : Word) : (pairCfgWrite s o val).mem = s.mem := by
  simp -implicitDefEqProofs [pairCfgWrite]

@[simp] theorem yieldReq_mem (s : State) : (yieldReq s).mem = s.mem := by simp -implicitDefEqProofs [yieldReq]

@[simp] theorem relinquish_mem (s : State) : (relinquish s).mem = s.mem := by simp -implicitDefEqProofs [relinquish]

@[simp] theorem peerUpd_mem (s : State) (v : Bool) : (peerUpd s v).mem = s.mem := by simp -implicitDefEqProofs [peerUpd]

@[simp] theorem syncReq_mem (s : State) : (syncReq s).mem = s.mem := by simp -implicitDefEqProofs [syncReq]

@[simp] theorem pairCmdWrite_mem (s : State) (x0 : Origin) (val : Word) : (pairCmdWrite s x0 val).mem = s.mem := by
  simp -implicitDefEqProofs [pairCmdWrite]

@[simp] theorem yieldDrop_mem (s : State) : (yieldDrop s).mem = s.mem := by unfold yieldDrop; split <;> simp -implicitDefEqProofs

@[simp] theorem intlRecheck_mem (s : State) (level : Bool) : (intlRecheck s level).mem = s.mem := by
  unfold intlRecheck; split <;> simp -implicitDefEqProofs

@[simp] theorem passMark_mem (s : State) (pk : Packet) : (passMark s pk).mem = s.mem := by simp -implicitDefEqProofs [passMark]

@[simp] theorem mirrorIn_mem (s : State) (pk : Packet) : (mirrorIn s pk).mem = s.mem := by simp -implicitDefEqProofs [mirrorIn]

@[simp] theorem pairSend_mem (s : State) (pk : Packet) : (pairSend s pk).mem = s.mem := by simp -implicitDefEqProofs [pairSend]

@[simp] theorem pairCompare_mem (s : State) : (pairCompare s).mem = s.mem := by unfold pairCompare; dsimp only; split <;> simp -implicitDefEqProofs

@[simp] theorem imageSend_mem (s : State) : (imageSend s).mem = s.mem := by
  (unfold imageSend; dsimp only; repeat' split) <;> simp -implicitDefEqProofs

@[simp] theorem imageIn_mem (s : State) (ws : List (Word × Word)) (last : Bool) : (imageIn s ws last).mem = s.mem := by
  simp -implicitDefEqProofs [imageIn]

@[simp] theorem imagePacketIn_mem (s : State) (ws : List Word) : (imagePacketIn s ws).mem = s.mem := by simp -implicitDefEqProofs [imagePacketIn]

@[simp] theorem imageLoad_mem (s : State) : (imageLoad s).mem = s.mem := by simp -implicitDefEqProofs [imageLoad]

@[simp] theorem interlock_mem (s : State) (level : Bool) : (interlock s level).mem = s.mem := by simp -implicitDefEqProofs [interlock]

@[simp] theorem pairTick_mem (s : State) (level : Bool) : (pairTick s level).mem = s.mem := by simp -implicitDefEqProofs [pairTick]

/-! The operations of `Machine/Panel.lean`. -/

@[simp] theorem mbStart_mem (s : State) (n : Nat) : (mbStart s n).mem = s.mem := by simp -implicitDefEqProofs [mbStart]

@[simp] theorem mbDone_mem (s : State) (n res : Nat) : (mbDone s n res).mem = s.mem := by simp -implicitDefEqProofs [mbDone]

@[simp] theorem attemptsEnd_mem (s : State) : (attemptsEnd s).mem = s.mem := by simp -implicitDefEqProofs [attemptsEnd]

@[simp] theorem canCtrlWrite_mem (s : State) (o : Origin) (val : Word) : (canCtrlWrite s o val).mem = s.mem := by
  simp -implicitDefEqProofs [canCtrlWrite]

@[simp] theorem mbCancel_mem (s : State) (n : Nat) : (mbCancel s n).mem = s.mem := by simp -implicitDefEqProofs [mbCancel]

@[simp] theorem mbCtrlWrite_mem (s : State) (n : Nat) (val : Word) : (mbCtrlWrite s n val).mem = s.mem := by simp -implicitDefEqProofs [mbCtrlWrite]

@[simp] theorem tdcMeasure_mem (s : State) (delay : Nat) : (tdcMeasure s delay).mem = s.mem := by
  unfold tdcMeasure; split <;> simp -implicitDefEqProofs

@[simp] theorem intermission_mem (s : State) : (intermission s).mem = s.mem := by simp -implicitDefEqProofs [intermission]

@[simp] theorem attemptFail_mem (s : State) (n : Nat) (tec : Nat) : (attemptFail s n tec).mem = s.mem := by simp -implicitDefEqProofs [attemptFail]

@[simp] theorem recoverWrite_mem (s : State) (val : Word) : (recoverWrite s val).mem = s.mem := by simp -implicitDefEqProofs [recoverWrite]

@[simp] theorem rxStore_mem (s : State) (f : CanFrame) : (rxStore s f).mem = s.mem := by simp -implicitDefEqProofs [rxStore]

@[simp] theorem rxPop_mem (s : State) : (rxPop s).mem = s.mem := by (unfold rxPop; dsimp only; repeat' split) <;> simp -implicitDefEqProofs

@[simp] theorem keyTake_mem (s : State) (k : Nat) : (keyTake s k).mem = s.mem := by simp -implicitDefEqProofs [keyTake]

@[simp] theorem ledSet_mem (s : State) (l : Nat) : (ledSet s l).mem = s.mem := by simp -implicitDefEqProofs [ledSet]

@[simp] theorem svbWrite_mem (s : State) (o : Origin) (a : Nat) (val : Word) : (svbWrite s o a val).mem = s.mem := by
  simp -implicitDefEqProofs [svbWrite]

/-! The operations of `Machine/CoreCtl.lean`. -/

@[simp] theorem setG_mem (s : State) (n r : Nat) (v : Word) : (setG s n r v).mem = s.mem := by simp -implicitDefEqProofs [setG]

@[simp] theorem setP_mem (s : State) (n r : Nat) (v : Bool) : (setP s n r v).mem = s.mem := by simp -implicitDefEqProofs [setP]

@[simp] theorem setF_mem (s : State) (n m : Nat) : (setF s n m).mem = s.mem := by simp -implicitDefEqProofs [setF]

@[simp] theorem finish_mem (s : State) (n cyc : Nat) : (finish s n cyc).mem = s.mem := by simp -implicitDefEqProofs [finish]

@[simp] theorem finishAt_mem (s : State) (n cyc : Nat) (target : Word) : (finishAt s n cyc target).mem = s.mem := by
  simp -implicitDefEqProofs [finishAt]

@[simp] theorem trapEnter_mem (s : State) (n cause : Nat) (epc : Word) (nested : Bool) : (trapEnter s n cause epc nested).mem = s.mem := by
  simp -implicitDefEqProofs [trapEnter]

@[simp] theorem trap_mem (s : State) (n cause : Nat) (epc : Word) : (trap s n cause epc).mem = s.mem := by simp -implicitDefEqProofs [trap]

@[simp] theorem trapHere_mem (s : State) (n cause : Nat) : (trapHere s n cause).mem = s.mem := by simp -implicitDefEqProofs [trapHere]

@[simp] theorem accessTrap_mem (s : State) (n a : Nat) : (accessTrap s n a).mem = s.mem := by simp -implicitDefEqProofs [accessTrap]

@[simp] theorem nmtEnter_mem (s : State) (n : Nat) : (nmtEnter s n).mem = s.mem := by simp -implicitDefEqProofs [nmtEnter]

@[simp] theorem irqEnter_mem (s : State) (n : Nat) : (irqEnter s n).mem = s.mem := by simp -implicitDefEqProofs [irqEnter]

@[simp] theorem coreStop_mem (s : State) (n : Nat) : (coreStop s n).mem = s.mem := by simp -implicitDefEqProofs [coreStop]

@[simp] theorem coreBoundary_mem (s : State) (n : Nat) : (coreBoundary s n).mem = s.mem := by simp -implicitDefEqProofs [coreBoundary]

@[simp] theorem fetchRun_mem (s : State) (n : Nat) (q : Pred) (f : State → State) (h : ∀ s, (f s).mem = s.mem) : (fetchRun s n q f).mem = s.mem := by
  simp -implicitDefEqProofs [fetchRun, h]

@[simp] theorem issue_mem (s : State) (n : Nat) (q : Pred) (f : State → State) (h : ∀ s, (f s).mem = s.mem) : (issue s n q f).mem = s.mem := by
  simp -implicitDefEqProofs [issue, h]

@[simp] theorem illegal_mem (s : State) (n : Nat) : (illegal s n).mem = s.mem := by simp -implicitDefEqProofs [illegal]

@[simp] theorem coreCtrlWrite_mem (s : State) (o : Origin) (n : Nat) (val : Word) : (coreCtrlWrite s o n val).mem = s.mem := by
  simp -implicitDefEqProofs [coreCtrlWrite]

@[simp] theorem scrPut_mem (s : State) (n a : Nat) (bs : List Byte) : (scrPut s n a bs).mem = s.mem := by
  simp -implicitDefEqProofs [scrPut, eccWrite_mem]

@[simp] theorem window_mem (s : State) (n : Nat) (wr : Option Word) : (window s n wr).1.mem = s.mem := by
  (unfold window; dsimp only; repeat' split) <;> simp -implicitDefEqProofs

/-- The registers are told apart by their offset; as in `genWrite_mem` the equation is taken between functions. -/
@[simp] theorem zccWrite_mem (s : State) (o : Origin) (a : Nat) (val : Word) : (zccWrite s o a val).mem = s.mem := by
  generalize hg : zccWrite = g; delta zccWrite at hg
  have e := congrFun (congr_fun₃ hg s o a) val
  dsimp only at e
  rw [← e]
  generalize a - zccR 0 = off
  (repeat' split) <;> simp -implicitDefEqProofs

/-! The operations of `Machine/Walk.lean`. -/

@[simp] theorem modWalk_mem (s : State) (f : Walk → Walk) : (modWalk s f).mem = s.mem := by simp -implicitDefEqProofs [modWalk]

@[simp] theorem discReport_mem (s : State) (k : Kind) : (discReport s k).mem = s.mem := by simp -implicitDefEqProofs [discReport]

@[simp] theorem setRec_mem (s : State) (n : BitVec 14) (f : NodeRec → NodeRec) : (setRec s n f).mem = s.mem := by simp -implicitDefEqProofs [setRec]

@[simp] theorem walkRequest_mem (s : State) (node : BitVec 14) (ws : List Word) : (walkRequest s node ws).mem = s.mem := by
  simp -implicitDefEqProofs [walkRequest]

@[simp] theorem entWrite_mem (s : State) (e : Ent) (valid : Bool) : (entWrite s e valid).mem = s.mem := by simp -implicitDefEqProofs [entWrite]

@[simp] theorem entNew_mem (s : State) (node : BitVec 14) (port : Nat) (lo hi : BitVec 14) (alt repair : Bool) :
    (entNew s node port lo hi alt repair).mem = s.mem := by unfold entNew; dsimp only; split <;> simp -implicitDefEqProofs

@[simp] theorem entGrow_mem (s : State) (node : BitVec 14) (port : Nat) (sel : Ent → Bool) (lo hi : BitVec 14) (alt : Bool) :
    (entGrow s node port sel lo hi alt).mem = s.mem := by unfold entGrow; split <;> simp -implicitDefEqProofs

@[simp] theorem climb_mem (m : Nat) (s : State) (a : BitVec 14) (b : Option (BitVec 14)) (r : NodeRec) : (climb m s a b r).mem = s.mem := by
  induction m generalizing s a b r with
  | zero => rfl
  | succ k ih => (unfold climb; dsimp only; repeat' split) <;> simp -implicitDefEqProofs [ih]

@[simp] theorem climbBlock_mem (m : Nat) (s : State) (a b : BitVec 14) (r : NodeRec) : (climbBlock m s a b r).mem = s.mem := by
  induction m generalizing s a b r with
  | zero => rfl
  | succ k ih => (unfold climbBlock; dsimp only; repeat' split) <;> simp -implicitDefEqProofs [ih]

@[simp] theorem assignSend_mem (s : State) (n : BitVec 14) (p : Nat) (id : BitVec 14) (role : Nat) (quar : Bool) :
    (assignSend s n p id role quar).mem = s.mem := by simp -implicitDefEqProofs [assignSend]

@[simp] theorem probeSend_mem (s : State) (x : BitVec 14 × Nat) : (probeSend s x).mem = s.mem := by simp -implicitDefEqProofs [probeSend]

@[simp] theorem walkEnd_mem (s : State) : (walkEnd s).mem = s.mem := by simp -implicitDefEqProofs [walkEnd]

@[simp] theorem walkNext_mem (n : Nat) (s : State) : (walkNext n s).mem = s.mem := by
  induction n generalizing s with
  | zero => rfl
  | succ k ih => (unfold walkNext; dsimp only; repeat' split) <;> simp -implicitDefEqProofs [ih]

@[simp] theorem walkOn_mem (s : State) : (walkOn s).mem = s.mem := by simp -implicitDefEqProofs [walkOn]

@[simp] theorem topoBreak_mem (s : State) : (topoBreak s).mem = s.mem := by simp -implicitDefEqProofs [topoBreak]

@[simp] theorem delegateBlock_mem (s : State) (r : NodeRec) : (delegateBlock s r).mem = s.mem := by simp -implicitDefEqProofs [delegateBlock]

@[simp] theorem numberPeer_mem (s : State) (n : NodeRec) (pc : Nat) (i : Ident) (expect : Nat) (alt : Bool) :
    (numberPeer s n pc i expect alt).mem = s.mem := by (unfold numberPeer; dsimp only; repeat' split) <;> simp -implicitDefEqProofs

@[simp] theorem knownPeer_mem (s : State) (n : NodeRec) (pc : Nat) (k : NodeRec) (link : Nat) : (knownPeer s n pc k link).mem = s.mem := by
  (unfold knownPeer; dsimp only; repeat' split) <;> simp -implicitDefEqProofs

@[simp] theorem partnerTake_mem (s : State) (n : NodeRec) (pc : Nat) (i : Ident) : (partnerTake s n pc i).mem = s.mem := by
  simp -implicitDefEqProofs [partnerTake]

@[simp] theorem identTake_mem (s : State) (link expect : Nat) (i : Ident) : (identTake s link expect i).mem = s.mem := by
  (unfold identTake; dsimp only; repeat' split) <;> simp -implicitDefEqProofs

@[simp] theorem discBegin_mem (s : State) : (discBegin s).mem = s.mem := by simp -implicitDefEqProofs [discBegin]

@[simp] theorem discStart_mem (s : State) (o : Origin) (val : Word) : (discStart s o val).mem = s.mem := by simp -implicitDefEqProofs [discStart]

@[simp] theorem walkAgain_mem (f : State → State) (s : State) (h : (f s).mem = s.mem) : (walkAgain f s).mem = s.mem := by
  simp -implicitDefEqProofs [walkAgain, h]

@[simp] theorem probeAnswer_mem (s : State) (p : Nat) : (probeAnswer s p).mem = s.mem := by simp -implicitDefEqProofs [probeAnswer]

@[simp] theorem creditC2_mem (s : State) (p : Nat) : (creditC2 s p).mem = s.mem := by simp -implicitDefEqProofs [creditC2]

@[simp] theorem identIn_mem (s : State) (pk : Packet) : (identIn s pk).mem = s.mem := by unfold identIn; split <;> simp -implicitDefEqProofs

@[simp] theorem probeVia_mem (s : State) (pk : Packet) : (probeVia s pk).mem = s.mem := by simp -implicitDefEqProofs [probeVia]

@[simp] theorem probeTimeout_mem (s : State) : (probeTimeout s).mem = s.mem := by unfold probeTimeout; dsimp only; split <;> simp -implicitDefEqProofs

@[simp] theorem assignIn_mem (s : State) (p : Nat) (pk : Packet) : (assignIn s p pk).mem = s.mem := by simp -implicitDefEqProofs [assignIn]

@[simp] theorem delegateIn_mem (s : State) (pk : Packet) : (delegateIn s pk).mem = s.mem := by simp -implicitDefEqProofs [delegateIn]

@[simp] theorem delegateReturn_mem (s : State) (src : BitVec 20) (cells : Nat) : (delegateReturn s src cells).mem = s.mem := by
  simp -implicitDefEqProofs [delegateReturn]

@[simp] theorem newPath_mem (m : Nat) (s : State) (a b : BitVec 14) (r : NodeRec) : (newPath m s a b r).mem = s.mem := by
  induction m generalizing s a b r with
  | zero => rfl
  | succ k ih => (unfold newPath; dsimp only; repeat' split) <;> simp -implicitDefEqProofs [ih]

@[simp] theorem knownLink_mem (s : State) (reporter : BitVec 14) (p : Nat) (k : NodeRec) : (knownLink s reporter p k).mem = s.mem := by
  simp -implicitDefEqProofs [knownLink]

@[simp] theorem freshLink_mem (s : State) (n : NodeRec) (p : Nat) (i : Ident) (want : Nat) (partner : Bool) :
    (freshLink s n p i want partner).mem = s.mem := by (unfold freshLink; dsimp only; repeat' split) <;> simp -implicitDefEqProofs

@[simp] theorem newLink_mem (s : State) (reporter : BitVec 14) (p expect : Nat) (i : Ident) : (newLink s reporter p expect i).mem = s.mem := by
  (unfold newLink; dsimp only; repeat' split) <;> simp -implicitDefEqProofs

@[simp] theorem repairUp_mem (n : Nat) (s : State) (l : List (BitVec 14)) (c x : NodeRec) : (repairUp n s l c x).mem = s.mem := by
  induction n generalizing s x with
  | zero => rfl
  | succ k ih => (unfold repairUp; dsimp only; repeat' split) <;> simp -implicitDefEqProofs [ih]

@[simp] theorem repair_mem (s : State) (lost : BitVec 14) : (repair s lost).mem = s.mem := by
  unfold repair; dsimp only
  split
  · rfl
  · refine foldl_mem _ (fun s c => ?_) _ s
    (repeat' split) <;> simp -implicitDefEqProofs

/-! The operations of `Machine/Images.lean`. -/

@[simp] theorem coresStart_mem (s : State) (b : Bool) : (coresStart s b).mem = s.mem := by simp -implicitDefEqProofs [coresStart]

@[simp] theorem bootCell_mem (s : State) : (bootCell s).mem = s.mem := by unfold bootCell; dsimp only; split <;> simp -implicitDefEqProofs

@[simp] theorem qspiWrite_mem (s : State) (o : Origin) (val : Word) : (qspiWrite s o val).mem = s.mem := by simp -implicitDefEqProofs [qspiWrite]

/-! The operations of `Machine/Bus.lean`. -/

@[simp] theorem tblBufWrite_mem (s : State) (o : Origin) (a : Nat) (val : Word) : (tblBufWrite s o a val).mem = s.mem := by
  simp -implicitDefEqProofs [tblBufWrite]

/-- The registers are told apart by their offset; as in `genWrite_mem` the equation is taken between functions. -/
@[simp] theorem tmkWrite_mem (s : State) (o : Origin) (a : Nat) (val : Word) : (tmkWrite s o a val).mem = s.mem := by
  generalize hg : tmkWrite = g; delta tmkWrite at hg
  have e := congrFun (congr_fun₃ hg s o a) val
  dsimp only at e
  rw [← e]
  generalize a - tmkR 0 = off
  (repeat' split) <;> simp -implicitDefEqProofs

@[simp] theorem trlWrite_mem (s : State) (o : Origin) (a : Nat) (val : Word) : (trlWrite s o a val).mem = s.mem := by
  simp -implicitDefEqProofs [trlWrite]

/-- The registers are told apart by their offset; as in `genWrite_mem` the equation is taken between functions. -/
@[simp] theorem trrWrite_mem (s : State) (o : Origin) (a : Nat) (val : Word) : (trrWrite s o a val).mem = s.mem := by
  generalize hg : trrWrite = g; delta trrWrite at hg
  have e := congrFun (congr_fun₃ hg s o a) val
  rw [← e]
  generalize a - trrR 0 = off
  split <;> simp -implicitDefEqProofs

/-- The registers are told apart by their offset; as in `genWrite_mem` the equation is taken between functions. -/
@[simp] theorem rdlWrite_mem (s : State) (o : Origin) (a : Nat) (val : Word) : (rdlWrite s o a val).mem = s.mem := by
  generalize hg : rdlWrite = g; delta rdlWrite at hg
  have e := congrFun (congr_fun₃ hg s o a) val
  rw [← e]
  generalize a - rdlR 0 = off
  split <;> simp -implicitDefEqProofs

@[simp] theorem stpWrite_mem (s : State) (o : Origin) (a : Nat) (val : Word) : (stpWrite s o a val).mem = s.mem := by
  simp -implicitDefEqProofs [stpWrite]

/-- The registers are told apart by their offset; as in `genWrite_mem` the equation is taken between functions. -/
@[simp] theorem fltWrite_mem (s : State) (o : Origin) (a : Nat) (val : Word) : (fltWrite s o a val).mem = s.mem := by
  generalize hg : fltWrite = g; delta fltWrite at hg
  have e := congrFun (congr_fun₃ hg s o a) val
  dsimp only at e
  rw [← e]
  generalize a - fltR 0 = off
  (repeat' split) <;> simp -implicitDefEqProofs

@[simp] theorem tpCfgWrite_mem (s : State) (o : Origin) (a : Nat) (val : Word) : (tpCfgWrite s o a val).mem = s.mem := by
  simp -implicitDefEqProofs [tpCfgWrite]

@[simp] theorem timingWrite_mem (s : State) (o : Origin) (a : Nat) (val : Word) : (timingWrite s o a val).mem = s.mem := by
  simp -implicitDefEqProofs [timingWrite]

/-- The registers are told apart by their offset; as in `genWrite_mem` the equation is taken between functions. -/
@[simp] theorem safWrite_mem (s : State) (o : Origin) (a : Nat) (val : Word) : (safWrite s o a val).mem = s.mem := by
  generalize hg : safWrite = g; delta safWrite at hg
  have e := congrFun (congr_fun₃ hg s o a) val
  rw [← e]
  generalize a - safR 0 = off
  split <;> simp -implicitDefEqProofs

@[simp] theorem regsReset_mem (s : State) (l : List Nat) : (regsReset s l).mem = s.mem := by simp -implicitDefEqProofs [regsReset]

@[simp] theorem unitWrite_mem (s : State) (o : Origin) (a : Nat) (val : Word) : (unitWrite s o a val).mem = s.mem := by
  unfold unitWrite; split <;> simp -implicitDefEqProofs

theorem regsReset_withFlt_mem (s : State) (f : Flt) (l : List Nat) : (regsReset { s with flt := f } l).mem = s.mem := regsReset_mem ..

/-- One register of `regsUnset`. -/
def unsetReg (s : State) (a : Nat) : State :=
  if hasValue a && decide (blockOf a ≠ 0) then unitWrite s .table a (regReset (roleOf s) a) else s

theorem unsetReg_mem (s : State) (a : Nat) : (unsetReg s a).mem = s.mem := by simp -implicitDefEqProofs [unsetReg]

theorem regsUnset_eq (s : State) (l : List Nat) :
    regsUnset s l = regsReset { l.foldl unsetReg s with flt := { (l.foldl unsetReg s).flt with bus := s.flt.bus } } l := rfl

@[simp] theorem regsUnset_mem (s : State) (l : List Nat) : (regsUnset s l).mem = s.mem := by
  rw [regsUnset_eq, regsReset_withFlt_mem, foldl_mem unsetReg unsetReg_mem]

@[simp] theorem commitWrite_mem (s : State) (val : Word) : (commitWrite s val).mem = s.mem := by simp -implicitDefEqProofs [commitWrite]

@[simp] theorem regBusRead_mem (s : State) (a : Nat) : (regBusRead s a).1.mem = s.mem := by
  (unfold regBusRead; dsimp only; repeat' split) <;> simp -implicitDefEqProofs

@[simp] theorem freeVal_mem (s : State) : (freeVal s).1.mem = s.mem := by simp -implicitDefEqProofs [freeVal]

@[simp] theorem memFetch_mem (s : State) (a : Nat) : (memFetch s a).1.mem = s.mem := by
  unfold memFetch; dsimp only; split <;> simp -implicitDefEqProofs

@[simp] theorem busRead_mem (s : State) (flash : Bool) (a : Nat) : (busRead s flash a).1.mem = s.mem := by
  (simp only [busRead]; repeat' split) <;> simp -implicitDefEqProofs

@[simp] theorem busReads_mem (flash : Bool) (n : Nat) (s : State) (a : Nat) : (busReads flash n s a).1.mem = s.mem := by
  induction n generalizing s a with
  | zero => rfl
  | succ k ih => simp -implicitDefEqProofs [busReads, ih]

/-! The operations of `Machine/Tables.lean`. -/

@[simp] theorem tableFaults_mem (c : Bool × Bool × Bool × Bool) (s : State) : (tableFaults c s).mem = s.mem := by
  simp -implicitDefEqProofs [tableFaults]

@[simp] theorem tableReject_mem (s : State) (result record : Nat) : (tableReject s result record).mem = s.mem := by
  simp -implicitDefEqProofs [tableReject]

@[simp] theorem tableUndo_mem (s t : State) (l : List Nat) : (tableUndo s t l).mem = s.mem := by simp -implicitDefEqProofs [tableUndo]

@[simp] theorem tableLoaded_mem (s : State) (l : List Nat) (head : Nat → Word) : (tableLoaded s l head).mem = s.mem := by
  simp -implicitDefEqProofs [tableLoaded]

/-! The operations of `Machine/Tick.lean`. -/

@[simp] theorem overrunTick_mem (s : State) : (overrunTick s).mem = s.mem := by simp -implicitDefEqProofs [overrunTick]

@[simp] theorem coresTick_mem (s : State) : (coresTick s).mem = s.mem := by simp -implicitDefEqProofs [coresTick]

@[simp] theorem cellReady_mem (s : State) : (cellReady s).mem = s.mem := by simp -implicitDefEqProofs [cellReady]

@[simp] theorem alignTick_mem (s : State) : (alignTick s).mem = s.mem := by simp -implicitDefEqProofs [alignTick]

@[simp] theorem applyTick_mem (s : State) (x : TickIn) : (applyTick s x).mem = s.mem := by simp -implicitDefEqProofs [applyTick]

@[simp] theorem tickWhen_mem (t : State → Option State) (x : TickIn) (s : State) (h : ∀ u, t s = some u → u.mem = s.mem) :
    (tickWhen t x s).mem = s.mem := by
  unfold tickWhen
  split
  · exact (applyTick_mem _ _).trans (h _ ‹_›)
  · rfl

@[simp] theorem budgetCheck_mem (s : State) : (budgetCheck s).mem = s.mem := by simp -implicitDefEqProofs [budgetCheck]

/-! The operations of `Machine/Operands.lean`. -/

@[simp] theorem complete_mem (s : State) (n cyc fl : Nat) : (complete s n cyc fl).mem = s.mem := by simp -implicitDefEqProofs [complete]

@[simp] theorem putRes_mem (s : State) (n gd cyc : Nat) (r : FRes) : (putRes s n gd cyc r).mem = s.mem := by simp -implicitDefEqProofs [putRes]

@[simp] theorem regOp_mem (n gd ga gb cyc : Nat) (f : Word → Word → FRes) (s : State) : (regOp n gd ga gb cyc f s).mem = s.mem := by
  simp -implicitDefEqProofs [regOp]

@[simp] theorem unOp_mem (n gd ga cyc : Nat) (f : Word → FRes) (s : State) : (unOp n gd ga cyc f s).mem = s.mem := by simp -implicitDefEqProofs [unOp]

@[simp] theorem accOp_mem (n gd ga gb cyc : Nat) (f : Word → Word → Word → FRes) (s : State) : (accOp n gd ga gb cyc f s).mem = s.mem := by
  simp -implicitDefEqProofs [accOp]

@[simp] theorem setPreds_mem (s : State) (n pd pc cyc : Nat) (r : Option (Bool × Nat)) : (setPreds s n pd pc cyc r).mem = s.mem := by
  unfold setPreds; split <;> simp -implicitDefEqProofs

@[simp] theorem scrCheck_mem (s : State) (t a len : Nat) : (scrCheck s t a len).1.mem = s.mem := by simp -implicitDefEqProofs [scrCheck]

/-! The operations of `Machine/ZynulFp.lean`. -/

@[simp] theorem lut_mem (s : State) (n gd ga gb : Nat) : (lut s n gd ga gb).mem = s.mem := by simp -implicitDefEqProofs [lut]

/-! The operations of `Machine/ZynulMem.lean`. -/

@[simp] theorem openCycles_mem (s : State) (lo span : Nat) : (openCycles s lo span).1.mem = s.mem := by simp -implicitDefEqProofs [openCycles]

@[simp] theorem loadPut_mem (s : State) (n gt : Nat) (sz : Size) (sgn : Bool) (v : Nat) : (loadPut s n gt sz sgn v).mem = s.mem := by
  unfold loadPut; split <;> simp -implicitDefEqProofs

@[simp] theorem finishLive_mem (s : State) (n cyc : Nat) : (finishLive s n cyc).mem = s.mem := by simp -implicitDefEqProofs [finishLive]

/-! The operations of `Machine/ZynulCtl.lean`. -/

@[simp] theorem jump_mem (s : State) (n gd : Nat) (t : Word) : (jump s n gd t).mem = s.mem := by simp -implicitDefEqProofs [jump]

@[simp] theorem loopBegin_mem (s : State) (n ga : Nat) (imm : BitVec 12) : (loopBegin s n ga imm).mem = s.mem := by
  simp -implicitDefEqProofs [loopBegin]

@[simp] theorem waitDone_mem (s : State) (n gd : Nat) (mask : Word) (ended : Bool) : (waitDone s n gd mask ended).mem = s.mem := by
  simp -implicitDefEqProofs [waitDone]

/-! The operations of `Machine/ZynulFab.lean`. -/

@[simp] theorem fsend_mem (s : State) (c : CoreId) (gd ga : Nat) : (fsend s c gd ga).mem = s.mem := by simp -implicitDefEqProofs [fsend]

@[simp] theorem frecv_mem (s : State) (n gd ga : Nat) : (frecv s n gd ga).mem = s.mem := by unfold frecv; split <;> simp -implicitDefEqProofs

/-! The operations of `Machine/Deliver.lean`. -/

@[simp] theorem complIn_mem (s : State) (pk : Packet) : (complIn s pk).mem = s.mem := by
  (unfold complIn; dsimp only; repeat' split) <;> simp -implicitDefEqProofs

@[simp] theorem reply_mem (s : State) (pk : Packet) (typ : Nat) (pay : List Word) : (reply s pk typ pay).mem = s.mem := by
  simp -implicitDefEqProofs [reply]

@[simp] theorem creditIn_mem (s : State) (p : Nat) (ws : List Word) : (creditIn s p ws).mem = s.mem := by simp -implicitDefEqProofs [creditIn]

@[simp] theorem portIn_mem (s : State) (p : Nat) (pk : Packet) : (portIn s p pk).mem = s.mem := by unfold portIn; split <;> simp -implicitDefEqProofs

@[simp] theorem peerLearn_mem (s : State) (src : Option Nat) (pk : Packet) : (peerLearn s src pk).mem = s.mem := by
  unfold peerLearn; split <;> simp -implicitDefEqProofs

theorem xHead_mem (s : State) (op : Nat) (r : XCmd × State) (h : xHead s op = some r) : r.2.mem = s.mem := by
  unfold xHead at h
  split at h
  · split at h
    · cases h; simp -implicitDefEqProofs
    · cases h
  · cases h

/-! The operations of `Machine/Idle.lean`. -/

@[simp] theorem clockTime_mem (s : State) : (clockTime s).mem = s.mem := by simp -implicitDefEqProofs [clockTime]

@[simp] theorem clockCores_mem (s : State) : (clockCores s).mem = s.mem := by simp -implicitDefEqProofs [clockCores]

@[simp] theorem clockSkip_mem (s : State) (p : Port) : (clockSkip s p).mem = s.mem := by simp -implicitDefEqProofs [clockSkip]

@[simp] theorem clockPorts_mem (s : State) : (clockPorts s).mem = s.mem := by simp -implicitDefEqProofs [clockPorts]

@[simp] theorem clock_mem (s : State) : (clock s).mem = s.mem := by simp -implicitDefEqProofs [clock]

end Sys2Proof.Machine
end

section
/-! SUPPORT. What stores to the shared memories: each such operation keeps their canonical form (log entry 3). -/

namespace Sys2Proof.Machine

open Sys2Proof

/-! The form under a memory that stands, takes bytes or loses some, and under an operation over a list. -/

theorem memoryOk_of_mem {s t : State} (e : t.mem = s.mem) (h : MemoryOk s) : MemoryOk t := by rwa [MemoryOk, e]

theorem memoryOk_bytesPut {s t : State} {a : Nat} {bs : List Byte} (e : t.mem = bytesPut s.mem a bs) (h : MemoryOk s) : MemoryOk t := by
  rw [MemoryOk, e]; exact bytesPut_wf bs _ a h

theorem memoryOk_filter {s t : State} {p : Host.Cell → Bool} (e : t.mem = s.mem.filter p) (h : MemoryOk s) : MemoryOk t := by
  rw [MemoryOk, e]; exact kvWf_filter memDefault p _ h

theorem memoryOk_foldl {α : Type} (f : State → α → State) (hf : ∀ s a, MemoryOk s → MemoryOk (f s a)) (l : List α) :
    ∀ {s : State}, MemoryOk s → MemoryOk (l.foldl f s) := by
  induction l with
  | nil => exact id
  | cons a l ih => exact fun h => ih (hf _ a h)

theorem memoryOk_memWrite {s : State} (a : Nat) (bs : List Byte) (h : MemoryOk s) : MemoryOk (memWrite s a bs) := (memWrite_ok s a bs h).1

/-! Resets, and what leads to them. -/

theorem chipReset_mem (s : State) (bit src : Nat) : (chipReset s bit src).mem = keptMem s.mem := by
  simp -implicitDefEqProofs [chipReset]

theorem powerOn_mem (s : State) : (powerOn s).mem = keptMem s.mem := rfl

theorem memoryOk_chipReset {s : State} (bit src : Nat) (h : MemoryOk s) : MemoryOk (chipReset s bit src) :=
  memoryOk_filter (chipReset_mem s bit src) h

theorem memoryOk_powerOn {s : State} (h : MemoryOk s) : MemoryOk (powerOn s) := memoryOk_filter (powerOn_mem s) h

theorem memoryOk_react {s : State} (l : List HubMsg) (h : MemoryOk s) : MemoryOk (react s l) := by
  unfold react
  dsimp only
  split
  · apply memoryOk_chipReset
    refine memoryOk_of_mem ?_ h
    simp -implicitDefEqProofs
  · refine memoryOk_of_mem ?_ h
    simp -implicitDefEqProofs

theorem memoryOk_hubCapture {s : State} (l : List (BitVec 64)) (h : MemoryOk s) : MemoryOk (hubCapture s l) := by
  unfold hubCapture
  dsimp only
  split
  · exact memoryOk_of_mem (modFlt_mem ..) h
  · refine memoryOk_react _ (memoryOk_of_mem ?_ h)
    simp -implicitDefEqProofs

theorem memoryOk_modeCmd {s : State} (o : Origin) (n : Nat) (h : MemoryOk s) : MemoryOk (modeCmd s o n) := by
  unfold modeCmd
  dsimp only
  split
  · exact memoryOk_of_mem (enterSafe_mem ..) h
  · split
    · exact memoryOk_chipReset _ _ h
    · refine memoryOk_of_mem ?_ h
      simp -implicitDefEqProofs

theorem memoryOk_modeCmdWrite {s : State} (o : Origin) (val : Word) (h : MemoryOk s) : MemoryOk (modeCmdWrite s o val) := by
  unfold modeCmdWrite
  split
  · exact memoryOk_modeCmd _ _ h
  · exact memoryOk_of_mem (accessFault_mem ..) h

/-! The rows of a capture. -/

theorem memoryOk_capPut {s : State} (ix : Nat) (row : List Word) (h : MemoryOk s) : MemoryOk (capPut s ix row) :=
  memoryOk_foldl _ (fun _ _ => memoryOk_memWrite _ _) _ h

theorem memoryOk_capPostRow {s : State} (row : List Word) (h : MemoryOk s) : MemoryOk (capPostRow s row) := by
  refine memoryOk_of_mem ?_ (memoryOk_capPut (capPre s + s.cap.postCnt) row h)
  simp -implicitDefEqProofs [capPostRow]

theorem memoryOk_capPreRow {s : State} (row : List Word) (h : MemoryOk s) : MemoryOk (capPreRow s row) := by
  unfold capPreRow
  dsimp only
  split
  · exact h
  · exact memoryOk_of_mem (modCap_mem ..) (memoryOk_capPut _ row h)

theorem memoryOk_capRowAt {s : State} (ph : Nat) (h : MemoryOk s) : MemoryOk (capRowAt s ph) := by
  unfold capRowAt
  extract_lets s1 row stamp x src stop s2 sPost s3
  have h2 : MemoryOk s2 := memoryOk_of_mem (by simp -implicitDefEqProofs [s2, x, s1]) h
  have h3 : MemoryOk s3 := memoryOk_of_mem (by simp -implicitDefEqProofs [s3]) h2
  split
  · exact memoryOk_of_mem (by simp -implicitDefEqProofs) h2
  · split
    · have hPost : MemoryOk sPost := memoryOk_of_mem (modCap_mem ..) h2
      split
      · exact memoryOk_of_mem (by simp -implicitDefEqProofs) (memoryOk_capPut (capPre sPost) row hPost)
      · exact memoryOk_capPostRow row hPost
    · split
      · exact memoryOk_of_mem (capEnd_mem ..) h2
      · exact memoryOk_capPreRow row h2
  · split
    · exact memoryOk_of_mem (by simp -implicitDefEqProofs) h3
    · split
      · exact h3
      · exact memoryOk_capPostRow row h3
  · exact memoryOk_of_mem (by simp -implicitDefEqProofs) h3
  · exact h2

theorem memoryOk_capRow {s : State} (h : MemoryOk s) : MemoryOk (capRow s) := by
  unfold capRow
  split
  · exact memoryOk_capRowAt _ (memoryOk_of_mem (modCap_mem ..) h)
  · exact h

/-! The boot ROM and the flash controller. -/

theorem memoryOk_segmentLoad {s : State} (b : Bool) (k : Nat) (h : MemoryOk s) : MemoryOk (segmentLoad s b k) := by
  unfold segmentLoad
  dsimp only
  split
  · exact memoryOk_of_mem (modCore_mem ..) h
  · split
    · exact memoryOk_of_mem (modCore_mem ..) h
    · exact memoryOk_bytesPut rfl h

theorem memoryOk_bootUpper {s : State} (h : MemoryOk s) : MemoryOk (bootUpper s) := by
  unfold bootUpper
  extract_lets va vb r s1
  split
  · exact memoryOk_of_mem (by simp -implicitDefEqProofs [s1]) h
  · rename_i b fb _
    extract_lets s2 s3 s4 s5 v
    have h3 : MemoryOk s3 := memoryOk_of_mem (by simp -implicitDefEqProofs [s3, s2, s1]) h
    have h4 : MemoryOk s4 := memoryOk_foldl _ (fun _ k => memoryOk_segmentLoad b k) _ h3
    have h5 : MemoryOk s5 := memoryOk_of_mem (by simp -implicitDefEqProofs [s5]) h4
    split
    · exact h5
    · exact memoryOk_of_mem (by simp -implicitDefEqProofs) h5

theorem memoryOk_resetRelease {s : State} (k : BitVec 3) (tm : Bool) (h : MemoryOk s) : MemoryOk (resetRelease s k tm) := by
  unfold resetRelease
  split
  · exact h
  · extract_lets por s1 s2 s3 s4 s5 s6 bar s7 s8 s9
    have h4 : MemoryOk s4 := @memoryOk_filter s s4 _ rfl h
    have h7 : MemoryOk s7 := memoryOk_of_mem (by simp -implicitDefEqProofs [s7, s6, s5]) h4
    split
    · exact memoryOk_of_mem (by simp -implicitDefEqProofs [s8]) h7
    · split
      · exact memoryOk_of_mem (by simp -implicitDefEqProofs [s9]) h7
      · exact memoryOk_bootUpper (memoryOk_of_mem (modSwg_mem ..) h7)

theorem memoryOk_qspiDone {s : State} (h : MemoryOk s) : MemoryOk (qspiDone s) := by
  unfold qspiDone
  split
  · exact h
  · dsimp only
    split
    · exact memoryOk_bytesPut (by simp -implicitDefEqProofs; rfl) h
    · exact memoryOk_filter (by simp -implicitDefEqProofs; rfl) h

/-! Writes over the address map, and table loads. -/

theorem memoryOk_sysWrite {s : State} (o : Origin) (a : Nat) (val : Word) (h : MemoryOk s) : MemoryOk (sysWrite s o a val) := by
  generalize hg : sysWrite = g; delta sysWrite at hg
  have e := congrFun (congr_fun₃ hg s o a) val
  rw [← e]
  generalize a - sysR 0 = off
  split
  case h_1 => exact memoryOk_modeCmdWrite o val h
  all_goals refine memoryOk_of_mem ?_ h; simp -implicitDefEqProofs

theorem memoryOk_blockWrite {s : State} (o : Origin) (a : Nat) (val : Word) (h : MemoryOk s) : MemoryOk (blockWrite s o a val) := by
  unfold blockWrite
  split
  · exact memoryOk_sysWrite o a val h
  · exact memoryOk_of_mem (unitWrite_mem ..) h

theorem memoryOk_regBusWrite {s : State} (o : Origin) (a : Nat) (val : Word) (h : MemoryOk s) : MemoryOk (regBusWrite s o a val) := by
  unfold regBusWrite
  split
  · exact memoryOk_blockWrite o a val h
  · exact memoryOk_of_mem (accessFault_mem ..) h

theorem memoryOk_busWrite {s : State} (o : Origin) (a : Nat) (val : Word) (h : MemoryOk s) : MemoryOk (busWrite s o a val) := by
  unfold busWrite
  split
  · exact memoryOk_of_mem (accessFault_mem ..) h
  · split
    · exact memoryOk_regBusWrite o a val h
    · split
      · exact memoryOk_memWrite _ _ h
      · exact memoryOk_of_mem (accessFault_mem ..) h

theorem memoryOk_regWriteCmd {s : State} (o : Origin) (sz : Size) (a : Nat) (val : Word) (h : MemoryOk s) :
    MemoryOk (regWriteCmd s o sz a val) := by
  unfold regWriteCmd
  split
  · exact memoryOk_busWrite o a val h
  · exact memoryOk_of_mem (accessFault_mem ..) h

theorem memoryOk_busWrites (o : Origin) (l : List Word) : ∀ {s : State} (a : Nat), MemoryOk s → MemoryOk (busWrites o l s a) := by
  induction l with
  | nil => exact fun _ h => h
  | cons w l ih => exact fun _ h => ih _ (memoryOk_busWrite o _ w h)

theorem memoryOk_regRecord (l : List Word) : ∀ {s : State} (a : Nat), MemoryOk s → MemoryOk (regRecord l s a).1 := by
  induction l with
  | nil => exact fun _ h => h
  | cons w l ih =>
    intro s a h
    apply ih
    split
    · exact memoryOk_regBusWrite _ _ _ h
    · exact memoryOk_of_mem (accessFault_mem ..) h

theorem memoryOk_pass2 (l : List TblRec) : ∀ {s : State}, MemoryOk s → MemoryOk (pass2 l s).1 := by
  induction l with
  | nil => exact id
  | cons r l ih =>
    intro s h
    have ht : MemoryOk (regRecord (r.ws.drop 1) s (r.ws.getD 0 0).toNat).1 := memoryOk_regRecord _ _ h
    unfold pass2
    split
    · exact ih (memoryOk_of_mem (modRdl_mem ..) h)
    · dsimp only
      split
      · exact ht
      · split
        · exact ht
        · exact ih ht

theorem memoryOk_tableLoad {s : State} (h : MemoryOk s) : MemoryOk (tableLoad s) := by
  unfold tableLoad
  split
  · exact memoryOk_of_mem (tableReject_mem ..) h
  · rename_i l _
    have ht : MemoryOk (pass2 l s).1 := memoryOk_pass2 l h
    dsimp only
    split
    · exact ht
    · split
      · exact memoryOk_of_mem (by simp -implicitDefEqProofs) h
      · split
        · exact memoryOk_of_mem (tableLoaded_mem ..) ht
        · exact memoryOk_of_mem (by simp -implicitDefEqProofs) h


/-! Loads, stores and AMO of the cores; a load of the flash ends an operation of its controller. -/

theorem memoryOk_loadAt {s : State} (n a : Nat) (sz : Size) (h : MemoryOk s) : MemoryOk (loadAt s n a sz).1 := by
  unfold loadAt
  dsimp only
  split
  case h_7 =>
    split
    · exact memoryOk_of_mem (by simp -implicitDefEqProofs) h
    · exact memoryOk_of_mem (by simp -implicitDefEqProofs) (memoryOk_qspiDone h)
  case h_5 =>
    split
    · exact memoryOk_of_mem (by simp -implicitDefEqProofs) h
    · exact memoryOk_of_mem (by simp -implicitDefEqProofs) h
  all_goals exact memoryOk_of_mem (by simp -implicitDefEqProofs) h

theorem memoryOk_load {s : State} (n gt base : Nat) (sz : Size) (off : BitVec 10) (sgn : Bool) (h : MemoryOk s) :
    MemoryOk (load s n gt base sz off sgn) := by
  unfold load
  split
  · exact memoryOk_of_mem (by simp -implicitDefEqProofs) h
  · dsimp only
    split
    · exact memoryOk_of_mem (by simp -implicitDefEqProofs) h
    · have hr := memoryOk_loadAt n (effAddr s n base sz off) sz h
      split
      · exact memoryOk_of_mem (by simp -implicitDefEqProofs) hr
      · exact memoryOk_of_mem (by simp -implicitDefEqProofs) hr

theorem memoryOk_storeAt {s : State} (c : CoreId) (a : Nat) (sz : Size) (v : Nat) (h : MemoryOk s) : MemoryOk (storeAt s c a sz v) := by
  unfold storeAt
  dsimp only
  split
  · exact memoryOk_of_mem (by simp -implicitDefEqProofs) h
  · exact memoryOk_of_mem (by simp -implicitDefEqProofs) h
  · exact memoryOk_of_mem (finish_mem ..) (memoryOk_memWrite _ _ h)
  · exact memoryOk_of_mem (finish_mem ..) (memoryOk_memWrite _ _ (memoryOk_of_mem (openCycles_mem ..) h))
  · refine memoryOk_of_mem (finishLive_mem ..) ?_
    split
    · exact memoryOk_regBusWrite _ _ _ h
    · exact memoryOk_of_mem (accessFault_mem ..) h
  · exact memoryOk_of_mem (finish_mem ..) (memoryOk_memWrite _ _ h)
  · exact memoryOk_of_mem (by simp -implicitDefEqProofs) h
  · exact memoryOk_of_mem (by simp -implicitDefEqProofs) h

theorem memoryOk_store {s : State} (c : CoreId) (gt base : Nat) (sz : Size) (off : BitVec 10) (h : MemoryOk s) :
    MemoryOk (store s c gt base sz off) := by
  unfold store
  split
  · exact memoryOk_of_mem (illegal_mem ..) h
  · dsimp only
    split
    · exact memoryOk_of_mem (accessTrap_mem ..) h
    · exact memoryOk_storeAt c _ sz _ h

theorem memoryOk_amo {s : State} (n gd ga gb : Nat) (f : Word → Word → Word) (h : MemoryOk s) : MemoryOk (amo s n gd ga gb f) := by
  unfold amo
  dsimp only
  split
  · exact memoryOk_of_mem (accessTrap_mem ..) h
  · split
    · exact memoryOk_of_mem (trapHere_mem ..) h
    · split
      · refine memoryOk_of_mem (finish_mem ..) (memoryOk_of_mem (setG_mem ..) (memoryOk_memWrite _ _ ?_))
        exact memoryOk_of_mem (memRead_mem ..) h
      · exact memoryOk_of_mem (by simp -implicitDefEqProofs) h

/-! Requests and packets. -/

theorem memoryOk_requestIn {s : State} (pk : Packet) (h : MemoryOk s) : MemoryOk (requestIn s pk) := by
  unfold requestIn
  split
  · exact memoryOk_of_mem (by simp -implicitDefEqProofs) h
  · dsimp only
    split
    · have hw := memoryOk_busWrites (.fabric pk.src) (pk.payload.drop 1) (pk.payload.getD 0 0).toNat h
      split
      · exact hw
      · exact memoryOk_of_mem (reply_mem ..) hw
    · exact memoryOk_of_mem (by simp -implicitDefEqProofs) h

theorem memoryOk_deliver {s : State} (src : Option Nat) (pk : Packet) (h : MemoryOk s) : MemoryOk (deliver s src pk) := by
  unfold deliver
  dsimp only
  generalize pk.typ.toNat = typ
  split
  case h_1 | h_2 => exact memoryOk_requestIn pk h
  case h_14 => split <;> exact memoryOk_of_mem (by simp -implicitDefEqProofs) h
  all_goals exact memoryOk_of_mem (by simp -implicitDefEqProofs) h

theorem memoryOk_partnerIn {s : State} (p : Nat) (pk : Packet) (h : MemoryOk s) : MemoryOk (partnerIn s p pk) := by
  unfold partnerIn
  split
  · exact memoryOk_of_mem (mirrorIn_mem ..) h
  · split
    · split
      · exact memoryOk_of_mem (imagePacketIn_mem ..) h
      · split
        · exact memoryOk_of_mem (pairCmdWrite_mem ..) h
        · exact memoryOk_deliver _ pk h
    · exact memoryOk_deliver _ pk h

theorem memoryOk_receive {s : State} (src : Option Nat) (pk : Packet) (arr : Arrival) (h : MemoryOk s) :
    MemoryOk (receive s src pk arr) := by
  unfold receive
  split
  · exact h
  · extract_lets s1 s2 s3 s4
    have h1 : MemoryOk s1 := by
      refine memoryOk_of_mem ?_ h
      cases src <;> simp -implicitDefEqProofs [s1]
    split
    · split
      · exact memoryOk_of_mem (report_mem ..) h1
      · have h2 : MemoryOk s2 := memoryOk_of_mem (peerLearn_mem ..) h1
        split
        · exact memoryOk_partnerIn _ pk h2
        · split
          · exact memoryOk_deliver src pk h2
          · exact memoryOk_of_mem (by simp -implicitDefEqProofs) h2
    · have h4 : MemoryOk s4 := memoryOk_of_mem (by simp -implicitDefEqProofs [s4, s3]) h1
      split
      · split
        · cases src <;> exact memoryOk_of_mem (by simp -implicitDefEqProofs) h4
        · exact h4
      · exact memoryOk_of_mem (forward_mem ..) h4

theorem memoryOk_launch {s : State} (pk : Packet) (h : MemoryOk s) : MemoryOk (launch s pk) := by
  unfold launch
  split
  · exact memoryOk_deliver none pk h
  · split
    · exact memoryOk_of_mem (pairSend_mem ..) h
    · dsimp only
      split
      · exact memoryOk_of_mem (sendPacket_mem ..) h
      · generalize (if isRequest pk then (sendPacket s pk).1.trr.reqs.find? fun q => q.ep.val == epOf pk.src && q.seq == pk.seq else none) = o
        cases o <;> exact memoryOk_of_mem (by simp -implicitDefEqProofs) h

theorem memoryOk_drainCores {s : State} (h : MemoryOk s) : MemoryOk (drainCores s) :=
  memoryOk_foldl _ (fun _ _ h => memoryOk_foldl launch (fun _ pk => memoryOk_launch pk) _ (memoryOk_of_mem (modCore_mem ..) h)) _ h

theorem memoryOk_xIssue {s : State} (op typ : Nat) (h : MemoryOk s) : MemoryOk (xIssue s op typ) := by
  unfold xIssue
  split
  · rename_i c t e
    split
    · exact h
    · refine memoryOk_launch _ (memoryOk_of_mem ?_ h)
      simpa -implicitDefEqProofs using xHead_mem s op _ e
  · exact h

/-! Commands. -/

/-- The commands that may change the shared memories: resets and their release, writes over the address map, stores of the
cores, requests of the fabric and of the host, table loads, the flash controller and the rows of a capture. -/
def mayStore : Instr → Bool
  | .powerOnReset | .resetRelease .. | .rstNLow | .chipReset _ | .faultMsgCapture _ => true
  | .modeCmdPrecharge _ | .modeCmdReady _ | .modeCmdRun _ | .modeCmdSafe _ | .modeCmdChipReset _ => true
  | .registerWrite .. | .tableLoadDone | .qspiOpDone | .capRow => true
  | .ld .. | .ldu .. | .st .. | .amoSwap .. | .amoAdd .. => true
  | .packetTxStart _ | .packetRoute .. | .packetAcceptLocal .. | .wrReqRx _ | .rdReqRx _ | .tblBufWrite _ => true
  | .xhpWrite | .xhpFread | .xhpFwrite => true
  | _ => false

/-- `live_mem` and `gate_mem` for an effect that the kernel must not evaluate: the state after it is named. -/
theorem live_mem_of_eq {s t : State} {f : State → State} (e : f s = t) (h : t.mem = s.mem) : (live s f).mem = s.mem :=
  live_mem s f (e ▸ h)

theorem gate_mem_of_eq {s t : State} {a : Nat} {f : State → State} (e : f s = t) (h : t.mem = s.mem) : (gate s a f).mem = s.mem :=
  gate_mem s a f (e ▸ h)

/-- Every other command leaves the shared memories as they are. -/
theorem exec_mem {c : Instr} {s t : State} (hc : mayStore c = false) (e : exec c s = .next t) : t.mem = s.mem := by
  cases c <;> cases hc <;> cases e
  case stationTickBoundary => exact live_mem _ _ (tickWhen_mem _ _ _ (stationTick_mem s))
  case tickApply => exact live_mem _ _ (tickWhen_mem _ _ _ (symbolTick_mem s))
  case tickExpectedTimeout => exact live_mem _ _ (tickWhen_mem _ _ _ (missedTick_mem s))
  case actFbCheck | actTimeEnd => split <;> simp -implicitDefEqProofs
  case xhpRead | xhpEcho =>
    refine live_mem _ _ ?_
    split
    · simpa -implicitDefEqProofs using xHead_mem s _ _ ‹_›
    · rfl
  case gooseRepeat | gooseTtl | testStart | testStepEnd | testGapEnd | canAttemptEnd | canFrameRx | testCurrentFail | blockResetRelease
    | eyePointDone | cplTimeout | legBEdge | fracOffEdge | softoffRelease | offCheck | cascadeRun =>
    refine live_mem _ _ ?_
    (repeat' split) <;> simp -implicitDefEqProofs
  case fbCheck | waitWake =>
    refine live_mem _ _ ?_
    dsimp only
    (repeat' split) <;> simp -implicitDefEqProofs
  case pendClear => exact live_mem_of_eq rfl (pendWrite_mem ..)
  case capSlotFree => exact live_mem_of_eq rfl (gate_mem_of_eq rfl (capWrite_mem ..))
  all_goals simp -implicitDefEqProofs

theorem memoryOk_live {s : State} {f : State → State} (hf : MemoryOk s → MemoryOk (f s)) (h : MemoryOk s) : MemoryOk (live s f) := by
  unfold live
  split
  · exact h
  · exact hf h

theorem memoryOk_ownIn {s : State} {l : List Nat} {pk : Packet} {f : State → State} (hf : MemoryOk s → MemoryOk (f s)) (h : MemoryOk s) :
    MemoryOk (ownIn s l pk f) := by
  unfold ownIn
  split
  · exact hf h
  · exact h

theorem memoryOk_fetchRun {s : State} {n : Nat} {q : Pred} {f : State → State} (hf : ∀ {s}, MemoryOk s → MemoryOk (f s)) (h : MemoryOk s) :
    MemoryOk (fetchRun s n q f) := by
  unfold fetchRun
  split
  · exact memoryOk_of_mem (trapHere_mem ..) h
  · have hr := memoryOk_of_mem (eccRead_mem s (3 + n) (coreOf s n).pc.toNat) h
    dsimp only
    split
    · exact memoryOk_of_mem (trapHere_mem ..) hr
    · split
      · exact hf hr
      · exact memoryOk_of_mem (finish_mem ..) hr

theorem memoryOk_issue {s : State} {n : Nat} {q : Pred} {f : State → State} (hf : ∀ {s}, MemoryOk s → MemoryOk (f s)) (h : MemoryOk s) :
    MemoryOk (issue s n q f) := by
  unfold issue
  split
  · exact h
  · split
    · exact memoryOk_of_mem (coreBoundary_mem ..) h
    · split
      · exact memoryOk_of_mem (irqEnter_mem ..) h
      · exact memoryOk_fetchRun hf h

theorem memoryOk_exec_of_mayStore {c : Instr} {s t : State} (hc : mayStore c = true) (e : exec c s = .next t) (h : MemoryOk s) : MemoryOk t := by
  cases c <;> cases hc <;> cases e
  case powerOnReset => exact memoryOk_powerOn h
  case resetRelease => exact memoryOk_resetRelease _ _ h
  case rstNLow =>
    split
    · exact memoryOk_of_mem (modSys_mem ..) h
    · split
      · exact memoryOk_of_mem (by simp -implicitDefEqProofs) h
      · exact memoryOk_chipReset _ _ (memoryOk_of_mem (modSys_mem ..) h)
  all_goals refine memoryOk_live (fun h => ?_) h
  case chipReset c =>
    split
    · exact memoryOk_chipReset _ _ h
    · exact memoryOk_chipReset _ _ h
    · split
      · exact h
      · exact memoryOk_chipReset _ _ h
  case registerWrite => exact memoryOk_regWriteCmd _ _ _ _ h
  case modeCmdPrecharge | modeCmdReady | modeCmdRun | modeCmdSafe | modeCmdChipReset => exact memoryOk_modeCmd _ _ h
  case faultMsgCapture => exact memoryOk_hubCapture _ h
  case capRow => exact memoryOk_capRow h
  case qspiOpDone => exact memoryOk_qspiDone h
  case tableLoadDone =>
    split
    · exact memoryOk_tableLoad h
    · exact h
  case ld => exact memoryOk_issue (memoryOk_load _ _ _ _ _ _) h
  case ldu =>
    refine memoryOk_issue (fun h => ?_) h
    split
    · exact memoryOk_load _ _ _ _ _ _ h
    · exact memoryOk_of_mem (illegal_mem ..) h
  case st => exact memoryOk_issue (memoryOk_store _ _ _ _ _) h
  case amoSwap | amoAdd => exact memoryOk_issue (memoryOk_amo _ _ _ _ _) h
  case packetTxStart =>
    have hd := memoryOk_drainCores h
    dsimp only
    split
    · exact hd
    · exact memoryOk_of_mem (txStart_mem ..) hd
  case packetRoute => exact memoryOk_receive _ _ _ h
  case packetAcceptLocal =>
    split
    · exact memoryOk_receive _ _ _ h
    · exact h
  case wrReqRx | rdReqRx => exact memoryOk_ownIn (memoryOk_requestIn _) h
  case tblBufWrite =>
    refine memoryOk_ownIn (fun h => ?_) h
    split
    · exact memoryOk_requestIn _ h
    · exact h
  case xhpWrite =>
    split
    · rename_i c u hx
      have hw := memoryOk_busWrites .xhp (c.data.drop 1) (c.data.getD 0 0).toNat (memoryOk_of_mem (xHead_mem s _ _ hx) h)
      dsimp only
      split
      · exact hw
      · exact memoryOk_of_mem (xhpReply_mem ..) hw
    · exact h
  case xhpFread | xhpFwrite => exact memoryOk_xIssue _ _ h

/-- A step is a clock cycle or the command at the front of the queue. -/
theorem memoryOk_step {s t : State} (h : MemoryOk s) (e : step s = .next t) : MemoryOk t := by
  unfold step at e
  split at e
  · cases e
    exact memoryOk_of_mem (clock_mem s) h
  · rename_i c _ _
    have hp : MemoryOk s.popped := h
    cases hc : mayStore c
    · exact memoryOk_of_mem (exec_mem hc e) hp
    · exact memoryOk_exec_of_mayStore hc e hp

/-- Settles O60: commands outside `mayStore`, and the clock, leave the memories as they are; each of the others keeps their form. -/
theorem memoryFormIsKept : Obligations.MemoryFormIsKept := by
  unfold Obligations.MemoryFormIsKept
  exact fun s t h e => memoryOk_step h e

end Sys2Proof.Machine
end

section
/-! SUPPORT. An entry to SAFE: what it makes true stands until its end, in the upper roles through the demand it raises. -/

namespace Sys2Proof.Machine

open Sys2Proof

/-- The mask register of a word k of SYS_SAFE_MASK. -/
def safeMask (k : Nat) : Nat := sysR (0x200 + 4 * k)

/-- From s to t an entry to SAFE goes on: nothing leaves the part, and what the entry has made true stands. -/
structure SafeOn (s t : State) : Prop where
  sent : t.sent = s.sent
  strap : t.sys.strap = s.sys.strap
  cause : ∀ i, s.sys.cause.getLsbD i = true → t.sys.cause.getLsbD i = true
  cmd : s.sys.cmd = none → t.sys.cmd = none
  intl : s.sys.pair.intlOut = false → t.sys.pair.intlOut = false
  timer : s.flt.degTil = none → t.flt.degTil = none
  mask : ∀ k i, k < 16 → i < 32 → rb s (safeMask k) i = true → rb t (safeMask k) i = true

theorem SafeOn.refl (s : State) : SafeOn s s := ⟨rfl, rfl, fun _ => id, id, id, id, fun _ _ _ _ => id⟩

theorem SafeOn.trans {s t u : State} (a : SafeOn s t) (b : SafeOn t u) : SafeOn s u :=
  ⟨b.sent.trans a.sent, b.strap.trans a.strap, fun i => b.cause i ∘ a.cause i, b.cmd ∘ a.cmd, b.intl ∘ a.intl, b.timer ∘ a.timer,
    fun k i hk hi => b.mask k i hk hi ∘ a.mask k i hk hi⟩

/-- Where the registers, the hub and the state of SYS stand, and nothing leaves. -/
theorem SafeOn.of_same {s t : State} (h : (t.sent, t.sys, t.flt, t.regs) = (s.sent, s.sys, s.flt, s.regs)) : SafeOn s t := by
  simp only [Prod.mk.injEq] at h
  obtain ⟨hsent, hsys, hflt, hregs⟩ := h
  have hreg : ∀ x, reg t x = reg s x := fun x => by rw [reg, reg, roleOf, roleOf, hregs, hsys]
  refine ⟨hsent, by rw [hsys], fun i => by rw [hsys]; exact id, by rw [hsys]; exact id, by rw [hsys]; exact id, by rw [hflt]; exact id, ?_⟩
  intro k i _ _ h
  rwa [rb, hreg]

theorem SafeOn.isCell {s t : State} (h : SafeOn s t) : isCell t = isCell s := by
  rw [Machine.isCell, Machine.isCell, roleOf, roleOf, h.strap]

theorem SafeOn.isUpper {s t : State} (h : SafeOn s t) : isUpper t = isUpper s := by
  rw [Machine.isUpper, Machine.isUpper, roleOf, roleOf, h.strap]

theorem SafeOn.ite {s t u : State} {c : Prop} [Decidable c] (a : SafeOn s t) (b : SafeOn s u) : SafeOn s (if c then t else u) := by
  split
  · exact a
  · exact b

/-- A register outside the masks takes a word. -/
theorem safeOn_setReg (s : State) (a : Nat) (v : Word) (h : ∀ k, k < 16 → safeMask k ≠ a) : SafeOn s (setReg s a v) := by
  refine ⟨rfl, rfl, fun _ => id, id, id, id, fun k i hk _ hm => ?_⟩
  rwa [rb, reg_setReg_other _ _ _ _ (h k hk)]

/-- A bit of a register is set. -/
theorem safeOn_setBit (s : State) (a n : Nat) : SafeOn s (setReg s a (setBit (reg s a) n true)) := by
  refine ⟨rfl, rfl, fun _ => id, id, id, id, fun k i _ hi hm => ?_⟩
  rw [rb, reg_setReg]
  split
  next e =>
    rw [bitOf_setBit _ _ _ _ hi]
    split
    · rfl
    · rw [← e]; exact hm
  next => exact hm

theorem safeMask_ne_low {a : Nat} (h : a < 0x40000200) : ∀ k, k < 16 → safeMask k ≠ a := by
  intro k _; simp only [safeMask, sysR]; omega

theorem safeMask_ne_high {a : Nat} (h : 0x40010000 ≤ a) : ∀ k, k < 16 → safeMask k ≠ a := by
  intro k _; simp only [safeMask, sysR]; omega

theorem safeOn_unflag (s : State) (a m : Nat) (h : ∀ k, k < 16 → safeMask k ≠ a) : SafeOn s (unflag s a m) := safeOn_setReg s a _ h

theorem safeOn_report (s : State) (src : Nat) (k : Kind) (a : Nat) : SafeOn s (report s src k a) := by
  have hbus : ∀ (u : State) (b : List (Nat × BitVec 64)), SafeOn u (modFlt u fun f => { f with bus := b }) := fun u b =>
    ⟨rfl, rfl, fun _ => id, id, id, id, fun _ _ _ _ => id⟩
  refine SafeOn.trans ?_ (hbus _ _)
  unfold whenB
  exact SafeOn.ite (safeOn_unflag s _ _ (safeMask_ne_high (by decide))) (SafeOn.refl s)

theorem safeOn_discard (s : State) (c r b : Nat) (w : Bool) : SafeOn s (discard s c r b w) := by
  have hsys : ∀ (u : State) (d : Option Nat) (p : Nat), SafeOn u (modSys u fun y => { y with discLt := d, discPri := p }) := fun u d p =>
    ⟨rfl, rfl, fun _ => id, id, id, id, fun _ _ _ _ => id⟩
  have h10 : ∀ u v, SafeOn u (setReg u (sysR 0x010) v) := fun u v => safeOn_setReg u _ v (safeMask_ne_low (by decide))
  have h14 : ∀ u v, SafeOn u (setReg u (sysR 0x014) v) := fun u v => safeOn_setReg u _ v (safeMask_ne_low (by decide))
  have h18 : ∀ u v, SafeOn u (setReg u (sysR 0x018) v) := fun u v => safeOn_setReg u _ v (safeMask_ne_low (by decide))
  unfold discard
  generalize (if c = 2 then 4 else if c = 4 then 3 else if c = 3 then 2 else 1) = pri
  dsimp only
  refine SafeOn.trans (h18 s (wd (now s))) ?_
  refine SafeOn.ite (SafeOn.ite ?_ (SafeOn.ite (h14 _ _) (SafeOn.refl _))) ?_
  · exact ((h10 _ _).trans (h14 _ _)).trans (hsys _ _ _)
  · exact ((h10 _ _).trans (h14 _ _)).trans (hsys _ _ _)

/-- What a fold of operations keeps, each of them keeping it. -/
theorem foldl_keeps {α β : Type} (p : State → β) (f : State → α → State) (h : ∀ s a, p (f s a) = p s) (l : List α) (s : State) :
    p (l.foldl f s) = p s := by
  induction l generalizing s with
  | nil => rfl
  | cons a l ih => exact (ih _).trans (h s a)

/-- The parts of the state that neither the fabric's queues nor the loop engine hold. -/
def fixedPart (s : State) := (s.sent, s.sys, s.flt, s.regs, s.saf, s.nv, s.swg, s.rdl)

@[simp] theorem fixedPart_modPort (s : State) (p : Nat) (f : PortSt → PortSt) : fixedPart (modPort s p f) = fixedPart s := rfl
@[simp] theorem fixedPart_modCore (s : State) (n : Nat) (f : Core → Core) : fixedPart (modCore s n f) = fixedPart s := rfl
@[simp] theorem fixedPart_modTrr (s : State) (f : Trr → Trr) : fixedPart (modTrr s f) = fixedPart s := rfl
@[simp] theorem fixedPart_modStp (s : State) (f : Stp → Stp) : fixedPart (modStp s f) = fixedPart s := rfl
@[simp] theorem fixedPart_modLpe (s : State) (f : Lpe → Lpe) : fixedPart (modLpe s f) = fixedPart s := rfl

theorem dropWork_fixed (s : State) : fixedPart (dropWork s) = fixedPart s := by
  unfold dropWork
  rw [fixedPart_modLpe, fixedPart_modStp, fixedPart_modTrr, foldl_keeps fixedPart _ (fun _ _ => fixedPart_modCore ..),
    foldl_keeps fixedPart _ (fun _ _ => fixedPart_modPort ..)]

theorem peerTell_fixed (s : State) (v : Bool) : fixedPart (peerTell s v) = fixedPart s := by
  unfold peerTell partnerCmd
  split
  · split
    · exact fixedPart_modPort ..
    · rfl
  · rfl

theorem safeOn_of_fixed {s t : State} (h : fixedPart t = fixedPart s) : SafeOn s t := by
  simp only [fixedPart, Prod.mk.injEq] at h
  obtain ⟨hsent, hsys, hflt, hregs, -⟩ := h
  exact SafeOn.of_same (by simp only [hsent, hsys, hflt, hregs])

/-- What a switch-over does to the pair: INTL_OUT low, neither active nor synchronised. -/
def pairYield (s : State) : State := modPair s fun p => { p with intlOut := false, active := false, synced := false, yieldTk := none }

/-- INTL_OUT goes low alone, or with the discard of a switch-over, which the partner may be told (R418, R434). -/
theorem intlDrop_cases (s : State) : intlDrop s = modPair s (fun p => { p with intlOut := false }) ∨
    ∃ v, v = discard (pairYield (dropWork s)) 4 0x1FF 0xF (anyWork s) ∧ (intlDrop s = v ∨ intlDrop s = peerTell v false) := by
  unfold intlDrop
  split
  · refine Or.inr ⟨_, rfl, ?_⟩
    dsimp only
    split
    · exact Or.inr rfl
    · exact Or.inl rfl
  · exact Or.inl rfl

/-- INTL_OUT goes low, and the entry goes on (R418). -/
theorem intlDrop_on (s : State) : SafeOn s (intlDrop s) ∧ (intlDrop s).sys.pair.intlOut = false := by
  have hlow : ∀ u : State, SafeOn u (pairYield u) := fun u => ⟨rfl, rfl, fun _ => id, id, fun _ => rfl, id, fun _ _ _ _ => id⟩
  rcases intlDrop_cases s with e | ⟨v, hv, e⟩
  · rw [e]
    exact ⟨⟨rfl, rfl, fun _ => id, id, fun _ => rfl, id, fun _ _ _ _ => id⟩, rfl⟩
  · have hd := safeOn_discard (pairYield (dropWork s)) 4 0x1FF 0xF (anyWork s)
    have hv1 : SafeOn s v := hv ▸ ((safeOn_of_fixed (dropWork_fixed s)).trans (hlow _)).trans hd
    have hv2 : v.sys.pair.intlOut = false := hv ▸ hd.intl rfl
    have hp := safeOn_of_fixed (peerTell_fixed v false)
    rcases e with e | e
    · rw [e]; exact ⟨hv1, hv2⟩
    · rw [e]; exact ⟨hv1.trans hp, hp.intl hv2⟩

/-- The island, its flash, the switch guard and the Riddle take no part in what an entry to SAFE does to the pair. -/
def islandPart (s : State) := (s.saf, s.nv, s.swg, s.rdl)

theorem islandPart_of_fixed {s t : State} (h : fixedPart t = fixedPart s) : islandPart t = islandPart s := by
  simp only [fixedPart, Prod.mk.injEq] at h
  obtain ⟨-, -, -, -, hsaf, hnv, hswg, hrdl⟩ := h
  simp only [islandPart, hsaf, hnv, hswg, hrdl]

@[simp] theorem islandPart_setReg (s : State) (a : Nat) (v : Word) : islandPart (setReg s a v) = islandPart s := rfl
@[simp] theorem islandPart_modSys (s : State) (f : Sys → Sys) : islandPart (modSys s f) = islandPart s := rfl
@[simp] theorem islandPart_modPair (s : State) (f : Pair → Pair) : islandPart (modPair s f) = islandPart s := rfl
@[simp] theorem islandPart_modFlt (s : State) (f : Flt → Flt) : islandPart (modFlt s f) = islandPart s := rfl
@[simp] theorem islandPart_modLpe (s : State) (f : Lpe → Lpe) : islandPart (modLpe s f) = islandPart s := rfl

theorem discard_island (s : State) (c r b : Nat) (w : Bool) : islandPart (discard s c r b w) = islandPart s := by
  unfold discard
  simp only [apply_ite islandPart, islandPart_setReg, islandPart_modSys, ite_self]

theorem intlDrop_island (s : State) : islandPart (intlDrop s) = islandPart s := by
  rcases intlDrop_cases s with e | ⟨v, hv, e⟩
  · rw [e, islandPart_modPair]
  · have hv1 : islandPart v = islandPart s := by
      rw [hv, discard_island, pairYield, islandPart_modPair, islandPart_of_fixed (dropWork_fixed s)]
    rcases e with e | e
    · rw [e, hv1]
    · rw [e, islandPart_of_fixed (peerTell_fixed v false), hv1]

/-! The turn-off and the effects that need no demand. -/

theorem turnOff_same (s : State) : ((turnOff s).sent, (turnOff s).sys, (turnOff s).flt, (turnOff s).regs) = (s.sent, s.sys, s.flt, s.regs) := by
  unfold turnOff turnOffAt
  split
  · rfl
  · split <;> rfl

theorem turnOff_saf_nv (s : State) : ((turnOff s).saf, (turnOff s).nv) = (s.saf, s.nv) := by
  unfold turnOff turnOffAt
  split
  · rfl
  · split <;> rfl

/-- The DEGRADED timer ended and the instances stopped, as an entry to SAFE begins. -/
def safeStop (s : State) : State :=
  modLpe (modFlt s fun f => { f with degTil := none, degSrc := [] }) fun l =>
    { l with inst := (List.range 4).foldl (fun m i => kmod default m i fun x => if x.st = .off then x else { x with st := .stopped }) l.inst }

/-- No turn-on waits and the Riddle is in state B, or X. -/
def safeRiddle (s : State) : State :=
  modRdl (modSwg s fun g => { g with want := 0, waitOn := 0, shoot := 0 }) fun r =>
    { r with state := if r.state = .bypassed then .bypassed else .blocked
             fracNow := false, dec := none, edgeDone := true, legB := none, pulse := none, forced := none, forceNow := none, forceNew := none }

theorem safeEffects_eq (s : State) :
    safeEffects s =
      let u := intlDrop (safeStop s)
      if isCell u then safeRiddle (if u.swg.gcmd ≠ 0 then turnOff u else u) else u := rfl

theorem safeOn_safeStop (s : State) : SafeOn s (safeStop s) := by
  have hflt : SafeOn s (modFlt s fun f => { f with degTil := none, degSrc := [] }) :=
    ⟨rfl, rfl, fun _ => id, id, id, fun _ => rfl, fun _ _ _ _ => id⟩
  have hlpe : ∀ (u : State) (f : Lpe → Lpe), SafeOn u (modLpe u f) := fun u f => SafeOn.of_same rfl
  exact hflt.trans (hlpe _ _)

theorem safeOn_safeRiddle (s : State) : SafeOn s (safeRiddle s) := SafeOn.of_same rfl

theorem safeEffects_on (s : State) :
    SafeOn s (safeEffects s) ∧ (safeEffects s).flt.degTil = none ∧ (safeEffects s).sys.pair.intlOut = false := by
  obtain ⟨hdrop, hlow⟩ := intlDrop_on (safeStop s)
  have hend : SafeOn (intlDrop (safeStop s)) (safeEffects s) := by
    rw [safeEffects_eq]
    generalize intlDrop (safeStop s) = u
    dsimp only
    exact SafeOn.ite (SafeOn.trans (SafeOn.ite (SafeOn.of_same (turnOff_same u)) (SafeOn.refl u)) (safeOn_safeRiddle _)) (SafeOn.refl u)
  exact ⟨((safeOn_safeStop s).trans hdrop).trans hend, (hdrop.trans hend).timer rfl, hend.intl hlow⟩

/-- In the CELL role every gate command is low after it, unless a turn-off that ran had left one high. -/
theorem safeEffects_cell (s : State) (hc : isCell s = true) :
    (TurnOffLow s → (safeEffects s).swg.gcmd = 0) ∧ (safeEffects s).nv = s.nv ∧ (safeEffects s).saf = s.saf := by
  have hi : islandPart (intlDrop (safeStop s)) = islandPart s := by rw [intlDrop_island, safeStop, islandPart_modLpe, islandPart_modFlt]
  have hu : isCell (intlDrop (safeStop s)) = true := by rw [(intlDrop_on (safeStop s)).1.isCell, (safeOn_safeStop s).isCell, hc]
  simp only [islandPart, Prod.mk.injEq] at hi
  obtain ⟨hsaf, hnv, hswg, -⟩ := hi
  rw [safeEffects_eq]
  dsimp only
  rw [if_pos hu]
  generalize intlDrop (safeStop s) = u at *
  have ht := turnOff_saf_nv u
  simp only [Prod.mk.injEq] at ht
  obtain ⟨tsaf, tnv⟩ := ht
  by_cases hg : u.swg.gcmd = 0
  · rw [if_neg (not_not.mpr hg)]
    exact ⟨fun _ => hg, hnv, hsaf⟩
  · rw [if_pos hg]
    refine ⟨fun hlow => ?_, tnv.trans hnv, tsaf.trans hsaf⟩
    have hq : u.swg.seqAt = none := by
      by_contra hq
      exact hg (hswg ▸ hlow (by rwa [← hswg, Option.isSome_iff_ne_none]))
    exact (turnOff_effect u hu hq).1

/-! The core of an entry, and the demand that goes with it in the upper roles. -/

/-- The cause bit and the mask bit of an entry to SAFE. -/
def safeMark (s : State) (bit : Nat) (src : Option Nat) : State :=
  let s := modSys s fun y => { y with cause := y.cause ||| BitVec.ofNat 7 (2 ^ (bit - 16)) }
  match src with
  | some n => setReg s (safeMask (n / 32)) (setBit (reg s (safeMask (n / 32))) (n % 32) true)
  | none => s

/-- What leaves a mode: ALIVE begins at the end of BOOT, and the time without a test stands still. -/
def modeLeave (s : State) : State :=
  modSys (testLeave (if modeOf s = .boot then aliveBegin s else s)) fun y => { y with mode := .safe, cmd := none }

theorem safeCore_eq (s : State) (bit : Nat) (src : Option Nat) (hb : s.sys.barred = false) (hd : dropTrans s = s) :
    safeCore s bit src = if modeOf s = .safe then modSys (safeMark s bit src) fun y => { y with cmd := if y.cmdDue then none else y.cmd }
      else safeEffects (modeLeave (safeMark s bit src)) := by
  unfold safeCore
  rw [if_neg (by simp [hb]), hd]
  cases src <;> rfl

theorem safeOn_safeMark (s : State) (bit : Nat) (src : Option Nat) : SafeOn s (safeMark s bit src) := by
  have hc : SafeOn s (modSys s fun y => { y with cause := y.cause ||| BitVec.ofNat 7 (2 ^ (bit - 16)) }) :=
    ⟨rfl, rfl, fun i h => by simp [modSys, h], id, id, id, fun _ _ _ _ => id⟩
  cases src with
  | none => exact hc
  | some n => exact hc.trans (safeOn_setBit _ _ _)

theorem safeMark_cause (s : State) (b : Fin 7) (src : Option Nat) : (safeMark s (16 + b.val) src).sys.cause.getLsbD b.val = true := by
  have h : (s.sys.cause ||| BitVec.ofNat 7 (2 ^ (16 + b.val - 16))).getLsbD b.val = true := by
    rw [BitVec.getLsbD_or, Nat.add_sub_cancel_left, BitVec.getLsbD_ofNat, Nat.testBit_two_pow_self, decide_eq_true b.isLt]
    simp
  cases src <;> exact h

theorem safeMark_mask (s : State) (bit n : Nat) : rb (safeMark s bit (some n)) (safeMask (n / 32)) (n % 32) = true := by
  unfold safeMark rb
  dsimp only
  rw [reg_setReg_same, bitOf_setBit _ _ _ _ (Nat.mod_lt _ (by decide)), if_pos rfl]

theorem safeOn_modeLeave (s : State) : SafeOn s (modeLeave s) ∧ (modeLeave s).sys.cmd = none := by
  have ha : ∀ u : State, SafeOn u (aliveBegin u) := fun u => ⟨rfl, rfl, fun _ => id, id, id, id, fun _ _ _ _ => id⟩
  have ht : ∀ u : State, SafeOn u (testLeave u) := fun u => SafeOn.ite (SafeOn.of_same rfl) (SafeOn.refl u)
  have hm : ∀ u : State, SafeOn u (modSys u fun y => { y with mode := .safe, cmd := none }) := fun u =>
    ⟨rfl, rfl, fun _ => id, fun _ => rfl, id, id, fun _ _ _ _ => id⟩
  exact ⟨(SafeOn.trans (SafeOn.ite (ha s) (SafeOn.refl s)) (ht _)).trans (hm _), rfl⟩

theorem safeOn_safeCore (s : State) (bit : Nat) (src : Option Nat) (hd : dropTrans s = s) : SafeOn s (safeCore s bit src) := by
  have hcmd : ∀ u : State, SafeOn u (modSys u fun y => { y with cmd := if y.cmdDue then none else y.cmd }) := fun u =>
    ⟨rfl, rfl, fun _ => id, fun h => by simp [modSys, h], id, id, fun _ _ _ _ => id⟩
  by_cases hb : s.sys.barred = true
  · rw [safeCore, if_pos hb]
    exact SafeOn.refl s
  · rw [safeCore_eq s bit src (by simpa using hb) hd]
    exact SafeOn.ite ((safeOn_safeMark s bit src).trans (hcmd _))
      (((safeOn_safeMark s bit src).trans (safeOn_modeLeave _).1).trans (safeEffects_on _).1)

theorem safeOn_modSaf (s : State) (f : Saf → Saf) : SafeOn s (modSaf s f) := SafeOn.of_same rfl

/-- In SAFE a demand leaves the entry as it is (R393). -/
theorem safeOn_demandCore (s : State) (bit : Nat) (h : modeOf s = .safe) : SafeOn s (demandCore s bit) := by
  have habort : ∀ u : State, SafeOn u (testAbort u) := fun u => SafeOn.ite (safeOn_modSaf _ _) (SafeOn.refl u)
  have hout : ∀ u : State, SafeOn u (demandOut u) := fun u => SafeOn.ite (safeOn_modSaf _ _) (safeOn_modSaf _ _)
  unfold demandCore
  rw [dropTrans_safe s h]
  dsimp only
  refine SafeOn.trans (safeOn_modSaf s fun f => { f with demand := f.demand ||| BitVec.ofNat 8 (2 ^ bit) }) ?_
  have hm : modeOf (modSaf s fun f => { f with demand := f.demand ||| BitVec.ofNat 8 (2 ^ bit) }) = .safe := h
  generalize (modSaf s fun f => { f with demand := f.demand ||| BitVec.ofNat 8 (2 ^ bit) }) = u at *
  refine SafeOn.ite (SafeOn.refl u) ?_
  have hv : SafeOn u (modSaf (report (testAbort u) 356 .demand (safR 0x00C)) fun f => { f with leftSafe := false }) :=
    ((habort u).trans (safeOn_report _ _ _ _)).trans (safeOn_modSaf _ _)
  have hvm : modeOf (modSaf (report (testAbort u) 356 .demand (safR 0x00C)) fun f => { f with leftSafe := false }) = .safe := by
    rw [modeOf_modSaf, report_mode, testAbort_mode, hm]
  generalize (modSaf (report (testAbort u) 356 .demand (safR 0x00C)) fun f => { f with leftSafe := false }) = v at *
  have hw : SafeOn v (if v.saf.testRun then demandOut v else v) := SafeOn.ite (hout v) (SafeOn.refl v)
  have hwm : modeOf (if v.saf.testRun then demandOut v else v) = .safe := by
    rw [apply_ite modeOf, demandOut_mode, hvm, ite_self]
  generalize (if v.saf.testRun then demandOut v else v) = w at *
  have hx := safeOn_safeCore w 18 (some 356) (dropTrans_safe w hwm)
  generalize safeCore w 18 (some 356) = x at *
  exact ((hv.trans hw).trans hx).trans (SafeOn.ite (safeOn_modSaf x _) (SafeOn.refl x))

theorem dropTrans_of_none (s : State) (h : s.sys.undo = none) : dropTrans s = s := by simp only [dropTrans, h]

theorem dropTrans_of_some (s : State) (u : Undo) (h : s.sys.undo = some u) :
    dropTrans s = if u.at_lt = now s ∧ modeOf s ≠ .safe then transBack u (wordsBack u.words s) else s := by simp only [dropTrans, h]

/-- A transition that has been dropped is not dropped again. -/
theorem dropTrans_idem (s : State) : dropTrans (dropTrans s) = dropTrans s := by
  cases hu : s.sys.undo with
  | none => rw [dropTrans_of_none s hu, dropTrans_of_none s hu]
  | some u =>
    by_cases h : u.at_lt = now s ∧ modeOf s ≠ .safe
    · rw [dropTrans_of_some s u hu, if_pos h]
      exact dropTrans_of_none _ rfl
    · have e : dropTrans s = s := by rw [dropTrans_of_some s u hu, if_neg h]
      rw [e, e]

/-- No transition of the present cycle stands to be dropped. -/
theorem dropTrans_fresh (s : State) (h : ∀ u, s.sys.undo = some u → u.at_lt ≠ now s) : dropTrans s = s := by
  cases hu : s.sys.undo with
  | none => exact dropTrans_of_none s hu
  | some u => rw [dropTrans_of_some s u hu, if_neg fun c => h u hu c.1]

theorem wordsBack_sent (w : List Word) (s : State) : (wordsBack w s).sent = s.sent := by
  unfold wordsBack
  exact foldl_keeps State.sent (fun s k => setReg s (lpeMem (k / 16) (k % 16)) (w.getD k 0)) (fun _ _ => setReg_sent ..) _ s

theorem transBack_sent (u : Undo) (s : State) : (transBack u s).sent = s.sent := by
  simp -implicitDefEqProofs [transBack]

theorem dropTrans_sent (s : State) : (dropTrans s).sent = s.sent := by
  cases hu : s.sys.undo with
  | none => rw [dropTrans_of_none s hu]
  | some u => rw [dropTrans_of_some s u hu, apply_ite State.sent, transBack_sent, wordsBack_sent, ite_self]

/-- The demand that an entry to SAFE raises in the upper roles leaves what its core has made true. -/
theorem enterSafe_on (s : State) (bit : Nat) (src : Option Nat) : SafeOn (safeCore (dropTrans s) bit src) (enterSafe s bit src) := by
  unfold enterSafe
  dsimp only
  split
  next h =>
    simp only [Bool.and_eq_true, beq_iff_eq] at h
    exact safeOn_demandCore _ 5 h.2
  · exact SafeOn.refl _

/-- The CELL role raises none. -/
theorem enterSafe_cell (s : State) (bit : Nat) (src : Option Nat) (hc : isCell s = true) (hd : dropTrans s = s) :
    enterSafe s bit src = safeCore s bit src := by
  have hu : isUpper (safeCore s bit src) = false := by
    have hr : roleOf s = .cell := by simpa [isCell] using hc
    rw [(safeOn_safeCore s bit src hd).isUpper, isUpper, hr]
    rfl
  unfold enterSafe
  rw [hd]
  simp only [hu, Bool.false_and, Bool.false_eq_true, if_false]

/-- An entry to SAFE shows its cause bit, and its mask bit where a report caused it; nothing leaves the part (R452). -/
theorem enterSafe_shows (s : State) (b : Fin 7) (src : Option Nat) (hb : s.sys.barred = false) :
    (enterSafe s (16 + b.val) src).sys.cause.getLsbD b.val = true ∧ (enterSafe s (16 + b.val) src).sent = s.sent ∧
      ∀ n, src = some n → n < 512 → rb (enterSafe s (16 + b.val) src) (safeMask (n / 32)) (n % 32) = true := by
  have hon := enterSafe_on s (16 + b.val) src
  have hd := dropTrans_idem s
  have hmark : SafeOn (safeMark (dropTrans s) (16 + b.val) src) (safeCore (dropTrans s) (16 + b.val) src) := by
    rw [safeCore_eq _ _ _ ((dropTrans_barred s).trans hb) hd]
    refine SafeOn.ite ⟨rfl, rfl, fun _ => id, fun h => by simp [modSys, h], id, id, fun _ _ _ _ => id⟩ ?_
    exact (safeOn_modeLeave _).1.trans (safeEffects_on _).1
  have hall := hmark.trans hon
  refine ⟨hall.cause _ (safeMark_cause _ b src), ?_, ?_⟩
  · rw [hall.sent, (safeOn_safeMark _ _ _).sent, dropTrans_sent]
  · intro n hn hlt
    subst hn
    exact hall.mask _ _ (by omega) (Nat.mod_lt _ (by decide)) (safeMark_mask _ _ n)

/-- An entry from another mode ends a waiting command and the DEGRADED timer and drops INTL_OUT (R418, R452). -/
theorem enterSafe_ends (s : State) (bit : Nat) (src : Option Nat) (hb : s.sys.barred = false) (hd : dropTrans s = s) (hm : modeOf s ≠ .safe) :
    (enterSafe s bit src).sys.cmd = none ∧ (enterSafe s bit src).flt.degTil = none ∧ (enterSafe s bit src).sys.pair.intlOut = false := by
  have hon := enterSafe_on s bit src
  rw [hd, safeCore_eq s bit src hb hd, if_neg hm] at hon
  obtain ⟨he, htimer, hintl⟩ := safeEffects_on (modeLeave (safeMark s bit src))
  exact ⟨hon.cmd (he.cmd (safeOn_modeLeave _).2), hon.timer htimer, hon.intl hintl⟩

theorem safeMark_island (s : State) (bit : Nat) (src : Option Nat) : islandPart (safeMark s bit src) = islandPart s := by
  cases src <;> rfl

/-- An entry of a cell from another mode puts every gate command low; its island stands where no test was due in the mode it leaves. -/
theorem enterSafe_gates (s : State) (bit : Nat) (src : Option Nat) (hb : s.sys.barred = false) (hd : dropTrans s = s) (hm : modeOf s ≠ .safe)
    (hc : isCell s = true) : (TurnOffLow s → (enterSafe s bit src).swg.gcmd = 0) ∧ (enterSafe s bit src).nv = s.nv ∧
      (testMode s = false → (enterSafe s bit src).saf = s.saf) := by
  have hi := safeMark_island s bit src
  have hs := safeOn_safeMark s bit src
  have hmode : modeOf (safeMark s bit src) = modeOf s := by cases src <;> rfl
  rw [enterSafe_cell s bit src hc hd, safeCore_eq s bit src hb hd, if_neg hm]
  generalize safeMark s bit src = u at *
  simp only [islandPart, Prod.mk.injEq] at hi
  obtain ⟨hsaf, hnv, hswg, -⟩ := hi
  have hleave : (modeLeave u).swg = u.swg ∧ (modeLeave u).nv = u.nv := by
    unfold modeLeave testLeave
    constructor
    · split <;> split <;> rfl
    · split <;> split <;> rfl
  have hcu : isCell (modeLeave u) = true := by rw [(safeOn_modeLeave u).1.isCell, hs.isCell, hc]
  obtain ⟨hg, hn, hf⟩ := safeEffects_cell (modeLeave u) hcu
  refine ⟨fun hl => hg ?_, hn.trans (hleave.2.trans hnv), fun ht => hf.trans ?_⟩
  · unfold TurnOffLow
    rw [hleave.1, hswg]
    exact hl
  · have htu : testMode u = false := by rw [testMode, hmode]; exact ht
    have hta : testMode (if modeOf u = .boot then aliveBegin u else u) = false := by split <;> exact htu
    have ha : (if modeOf u = .boot then aliveBegin u else u).saf = u.saf := by split <;> rfl
    rw [← hsaf, modeLeave, testLeave, hta, if_neg Bool.false_ne_true]
    exact ha

end Sys2Proof.Machine
end

section
/-! SUPPORT. The mode commands at the tick, and what each entry to a mode changes. -/

namespace Sys2Proof.Machine

open Sys2Proof


/-- The state without its registers and loop engine. -/
def offLoop (s : State) : State := { s with regs := [], lpe := default }

@[simp] theorem offLoop_setReg (s : State) (a : Nat) (v : Word) : offLoop (setReg s a v) = offLoop s := rfl
@[simp] theorem offLoop_modLpe (s : State) (f : Lpe → Lpe) : offLoop (modLpe s f) = offLoop s := rfl

theorem settle_offLoop (s : State) (i : Nat) : offLoop (settle s i) = offLoop s := by
  unfold settle
  dsimp only
  rw [offLoop_modLpe]
  exact foldl_keeps offLoop (fun s w => setReg s (lpeMem i w) 0) (fun _ _ => offLoop_setReg ..) _ s

theorem settleAll_offLoop (s : State) : offLoop (settleAll s) = offLoop s := by
  unfold settleAll
  refine foldl_keeps offLoop (fun s i => if (kget default s.lpe.inst i).st = .off then s else settle s i) (fun s i => ?_) _ s
  rw [apply_ite offLoop, settle_offLoop, ite_self]

/-- A transition is marked, and nothing else changes. -/
theorem undoMark_eq (s : State) : ∃ u, undoMark s = modSys s fun y => { y with undo := u } := by
  unfold undoMark
  split
  · exact ⟨s.sys.undo, rfl⟩
  · exact ⟨_, rfl⟩

/-- The part in a mode, with the record of the transition. -/
def entered (s : State) (m : Mode) (u : Option Undo) : State := modSys s fun y => { y with mode := m, undo := u }

/-- The part has left BOOT for PRECHARGE (R447). -/
def precharged (s : State) : State :=
  let s := if isUpper s = true ∧ rb s (sysR 0x050) 31 = false then modPair s fun p => { p with active := true } else s
  modSup (rdlStart (firstRise s)) fun u => { u with wake := true }

theorem setMode_precharge (s : State) (h : modeOf s = .boot) : ∃ u, setMode s .precharge = precharged (aliveBegin (entered s .precharge u)) := by
  obtain ⟨u, e⟩ := undoMark_eq s
  refine ⟨u, ?_⟩
  unfold setMode
  simp only [h, e, reduceCtorEq, if_false, if_true, false_and, and_false, or_self, true_and]
  rfl

theorem setMode_ready (s : State) (h : modeOf s = .precharge) : ∃ u, setMode s .ready = testDue (entered s .ready u) := by
  obtain ⟨u, e⟩ := undoMark_eq s
  refine ⟨u, ?_⟩
  unfold setMode
  simp only [h, e, reduceCtorEq, if_false, if_true, false_and, or_self, not_false_eq_true, true_or, and_self]
  rfl

theorem setMode_run (s : State) (h : modeOf s = .ready) :
    ∃ u, setMode s .run = let v := forcedEnd (entered s .run u); settleAll (safLock v (nodeId v)) := by
  obtain ⟨u, e⟩ := undoMark_eq s
  refine ⟨u, ?_⟩
  unfold setMode
  simp only [h, e, reduceCtorEq, if_false, if_true, false_and, and_false, or_self, not_true, true_or, or_true, and_self]
  rfl

/-- The part has left SAFE for READY: causes and TRIPPED are cleared and the outputs may return (R450). -/
def safeLeft (s : State) : State :=
  outReturn (modSaf (modSwg (modSys s fun y => { y with cause := 0 }) fun g => { g with tripped := false }) fun f => { f with leftSafe := true })

theorem setMode_safe_ready (s : State) (h : modeOf s = .safe) : ∃ u, setMode s .ready = safeLeft (testDue (settleAll (entered s .ready u))) := by
  obtain ⟨u, e⟩ := undoMark_eq s
  refine ⟨u, ?_⟩
  unfold setMode
  simp only [h, e, reduceCtorEq, if_false, if_true, false_and, or_self, not_false_eq_true, true_or, or_true, and_self]
  rfl

/-- The waiting command is done. -/
def cmdDone (s : State) : State := modSys s fun y => { y with cmd := none, cmdDue := false }

/-- An accepted command whose conditions still hold enters its mode at the tick (R449). -/
theorem modeCmd_enters (s : State) (n : Nat) (h : Bool) (hr : s.sys.inReset = false) (hc : s.sys.cmd = some (n, h)) (hd : s.sys.cmdDue = true)
    (hk : refuseCode s h n = 0) : exec .modeCmdTakeEffect s = .next (setMode (cmdDone s) (targetMode n)) := by
  have e : cmdEffect s = setMode (cmdDone s) (targetMode n) := by
    simp only [cmdEffect, hc, hd, hk, Bool.not_true, Bool.false_eq_true, if_false, if_true]
    rfl
  exact congrArg Host.Outcome.next ((live_of_run s cmdEffect hr).trans e)

/-- One whose conditions no longer hold is refused with code 2. -/
theorem modeCmd_refused (s : State) (n : Nat) (h : Bool) (hr : s.sys.inReset = false) (hc : s.sys.cmd = some (n, h)) (hd : s.sys.cmdDue = true)
    (hk : refuseCode s h n ≠ 0) : exec .modeCmdTakeEffect s = .next (refuse (cmdDone s) 2) := by
  have e : cmdEffect s = refuse (cmdDone s) 2 := by
    simp only [cmdEffect, hc, hd, hk, Bool.not_true, Bool.false_eq_true, if_false]
    rfl
  exact congrArg Host.Outcome.next ((live_of_run s cmdEffect hr).trans e)

theorem not_isCell_of_isUpper (s : State) (h : isUpper s = true) : isCell s = false := by
  unfold isUpper at h
  unfold isCell
  cases hr : roleOf s <;> simp_all

theorem firstRise_saf (s : State) : ∃ f, firstRise s = modSaf s f ∧
    (isUpper s = true → mayRise s = true → s.saf.risen = false → (f s.saf).outA = true ∧ (f s.saf).outB = true) := by
  unfold firstRise
  by_cases h : (isUpper s && !s.saf.risen && mayRise s) = true
  · rw [if_pos h]
    exact ⟨_, rfl, fun _ _ _ => ⟨rfl, rfl⟩⟩
  · rw [if_neg h]
    refine ⟨id, rfl, fun hu hm hr => absurd ?_ h⟩
    rw [hu, hm, hr]
    rfl

theorem rdlStart_rdl (s : State) : ∃ f, rdlStart s = modRdl s f := by
  unfold rdlStart
  split
  · exact ⟨_, rfl⟩
  · exact ⟨id, rfl⟩

/-- PRECHARGE changes the pair, the island's outputs, the Riddle's first bins and the wake of the supply, and nothing else. -/
theorem precharged_frame (s : State) : { precharged s with sys := s.sys, saf := s.saf, rdl := s.rdl, sup := s.sup } = s ∧
    ((precharged s).sys.mode, (precharged s).sys.cmd) = (s.sys.mode, s.sys.cmd) ∧
    (isUpper s = true → mayRise s = true → s.saf.risen = false → (precharged s).saf.outA = true ∧ (precharged s).saf.outB = true) := by
  have hp : ∃ p, (if isUpper s = true ∧ rb s (sysR 0x050) 31 = false then modPair s fun p => { p with active := true } else s) = modPair s p := by
    split
    · exact ⟨_, rfl⟩
    · exact ⟨id, rfl⟩
  obtain ⟨p, ep⟩ := hp
  obtain ⟨f, ef, hf⟩ := firstRise_saf (modPair s p)
  obtain ⟨r, er⟩ := rdlStart_rdl (modSaf (modPair s p) f)
  have e : precharged s = modSup (modRdl (modSaf (modPair s p) f) r) fun u => { u with wake := true } := by
    unfold precharged; dsimp only; rw [ep, ef, er]
  rw [e]
  exact ⟨rfl, rfl, hf⟩

theorem safLock_locks (s : State) (n : BitVec 14) :
    { safLock s n with nv := s.nv, saf := s.saf } = s ∧ (safLock s n).saf.unlocked = false := by
  unfold safLock
  split
  · exact ⟨rfl, rfl⟩
  next h => exact ⟨rfl, by simpa using h⟩

theorem forcedEnd_frame (s : State) : { forcedEnd s with swg := s.swg, rdl := s.rdl } = s := by
  unfold forcedEnd
  dsimp only
  split <;> rfl

theorem outReturn_saf (s : State) : ∃ f, outReturn s = modSaf s f := by
  unfold outReturn
  split
  · exact ⟨_, rfl⟩
  · exact ⟨id, rfl⟩

/-! The statement, clause by clause. -/

theorem takeEffect_precharge (s : State) (h : Bool) (hr : s.sys.inReset = false) (hu : isUpper s = true) (hc : s.sys.cmd = some (1, h))
    (hd : s.sys.cmdDue = true) (hm : modeOf s = .boot) (hk : refuseCode s h 1 = 0) :
    Answers .modeCmdTakeEffect s (fun t => modeOf t = .precharge ∧ t.sys.cmd = none ∧ t.flt.running = true ∧
      (mayRise s = true → s.saf.risen = false → t.saf.outA = true ∧ t.saf.outB = true) ∧
      (t.regs, t.mem, t.swg, t.nv) = (s.regs, s.mem, s.swg, s.nv)) := by
  obtain ⟨u, e⟩ := setMode_precharge (cmdDone s) hm
  refine ⟨_, (modeCmd_enters s 1 h hr hc hd hk).trans (congrArg Host.Outcome.next e), ?_⟩
  obtain ⟨hframe, hsys, hout⟩ := precharged_frame (aliveBegin (entered (cmdDone s) .precharge u))
  simp only [Prod.mk.injEq] at hsys
  generalize precharged (aliveBegin (entered (cmdDone s) .precharge u)) = t at *
  have hkept : (t.regs, t.mem, t.swg, t.nv) = (s.regs, s.mem, s.swg, s.nv) := congrArg (fun t => (t.regs, t.mem, t.swg, t.nv)) hframe
  have hrun : t.flt.running = true := congrArg (fun t => t.flt.running) hframe
  exact ⟨hsys.1, hsys.2, hrun, hout hu, hkept⟩

theorem takeEffect_ready (s : State) (h : Bool) (hr : s.sys.inReset = false) (hu : isUpper s = true) (hc : s.sys.cmd = some (2, h))
    (hd : s.sys.cmdDue = true) (hm : modeOf s = .precharge) (ha : ttAlign s = true) :
    Answers .modeCmdTakeEffect s (fun t => modeOf t = .ready ∧ t.sys.cmd = none ∧ t.sys.refuse = s.sys.refuse ∧
      { t with sys := s.sys, saf := s.saf } = s) := by
  have hk : refuseCode s h 2 = 0 := by simp [refuseCode, hm, not_isCell_of_isUpper s hu, ha]
  obtain ⟨u, e⟩ := setMode_ready (cmdDone s) hm
  exact ⟨_, (modeCmd_enters s 2 h hr hc hd hk).trans (congrArg Host.Outcome.next e), rfl, rfl, rfl, rfl⟩

theorem takeEffect_notAligned (s : State) (h : Bool) (hr : s.sys.inReset = false) (hu : isUpper s = true) (hc : s.sys.cmd = some (2, h))
    (hd : s.sys.cmdDue = true) (hm : modeOf s = .precharge) (ha : ttAlign s = false) :
    Answers .modeCmdTakeEffect s (fun t => modeOf t = .precharge ∧ t.sys.cmd = none ∧ t.sys.refuse = 2 ∧ { t with sys := s.sys } = s) := by
  have hk : refuseCode s h 2 ≠ 0 := by simp [refuseCode, hm, not_isCell_of_isUpper s hu, ha]
  exact ⟨_, modeCmd_refused s 2 h hr hc hd hk, hm, rfl, rfl, rfl⟩

theorem takeEffect_run (s : State) (h : Bool) (hr : s.sys.inReset = false) (hc : s.sys.cmd = some (3, h)) (hd : s.sys.cmdDue = true)
    (hm : modeOf s = .ready) (hk : refuseCode s h 3 = 0) :
    Answers .modeCmdTakeEffect s (fun t => modeOf t = .run ∧ t.saf.unlocked = false ∧ (t.mem, t.flt) = (s.mem, s.flt)) := by
  obtain ⟨u, e⟩ := setMode_run (cmdDone s) hm
  refine ⟨_, (modeCmd_enters s 3 h hr hc hd hk).trans (congrArg Host.Outcome.next e), ?_⟩
  have hend := forcedEnd_frame (entered (cmdDone s) .run u)
  dsimp only
  generalize forcedEnd (entered (cmdDone s) .run u) = v at hend
  obtain ⟨hlock, hun⟩ := safLock_locks v (nodeId v)
  generalize safLock v (nodeId v) = w at hlock hun
  have hall := settleAll_offLoop w
  generalize settleAll w = x at hall
  have hsaf : x.saf = w.saf := congrArg (fun t => t.saf) hall
  have hxw : (x.sys, x.mem, x.flt) = (w.sys, w.mem, w.flt) := congrArg (fun t => (t.sys, t.mem, t.flt)) hall
  have hwv : (w.sys, w.mem, w.flt) = (v.sys, v.mem, v.flt) := congrArg (fun t => (t.sys, t.mem, t.flt)) hlock
  have hv : (v.sys.mode, v.mem, v.flt) = (.run, s.mem, s.flt) := congrArg (fun t => (t.sys.mode, t.mem, t.flt)) hend
  have hx := hxw.trans hwv
  simp only [Prod.mk.injEq] at hx hv
  obtain ⟨xsys, xmem, xflt⟩ := hx
  obtain ⟨vmode, vmem, vflt⟩ := hv
  exact ⟨by rw [modeOf, xsys, vmode], by rw [hsaf, hun], by rw [xmem, xflt, vmem, vflt]⟩

theorem takeEffect_leaveSafe (s : State) (h : Bool) (hr : s.sys.inReset = false) (hc : s.sys.cmd = some (2, h)) (hd : s.sys.cmdDue = true)
    (hm : modeOf s = .safe) (hk : refuseCode s h 2 = 0) :
    Answers .modeCmdTakeEffect s (fun t => modeOf t = .ready ∧ t.sys.cmd = none ∧ (t.sys.cause, t.swg.tripped) = (0, false)) := by
  obtain ⟨u, e⟩ := setMode_safe_ready (cmdDone s) hm
  refine ⟨_, (modeCmd_enters s 2 h hr hc hd hk).trans (congrArg Host.Outcome.next e), ?_⟩
  have hall := settleAll_offLoop (entered (cmdDone s) .ready u)
  generalize settleAll (entered (cmdDone s) .ready u) = v at hall
  have hmode : v.sys.mode = .ready := congrArg (fun t => t.sys.mode) hall
  have hcmd : v.sys.cmd = none := congrArg (fun t => t.sys.cmd) hall
  unfold safeLeft
  obtain ⟨f, ef⟩ := outReturn_saf (modSaf (modSwg (modSys (testDue v) fun y => { y with cause := 0 }) fun g => { g with tripped := false })
    fun f => { f with leftSafe := true })
  rw [ef]
  exact ⟨hmode, hcmd, rfl⟩

/-- A command to SAFE is an entry to SAFE of cause 21 in its cycle (R450). -/
theorem modeCmdSafe_enters (o : Origin) (s : State) (hr : s.sys.inReset = false) : exec (.modeCmdSafe o) s = .next (enterSafe s 21 none) :=
  congrArg Host.Outcome.next (live_of_run s (fun s => modeCmd s o 5) hr)

/-- The DEGRADED timer that has expired is an entry of cause 20 (R9). -/
theorem degradedTimer_enters (s : State) (d : Nat) (hr : s.sys.inReset = false) (hm : modeOf s = .degraded)
    (ht : s.flt.degTil = some d) (hd : d ≤ now s) :
    exec .degradedTimerExpiry s = .next (enterSafe s 20 (some s.flt.degNow)) := by
  have hc : (modeOf s == .degraded && s.flt.degTil.any (decide <| · ≤ now s)) = true := by simp [hm, ht, hd]
  exact congrArg Host.Outcome.next ((live_of_run s _ hr).trans (if_pos hc))

/-- Settles O20: the commands by what their mode's entry changes, SAFE and the DEGRADED timer by what stands once an entry has made it true. -/
theorem modeCommandsTakeEffect : Obligations.ModeCommandsTakeEffect := by
  intro o s hr
  dsimp only
  refine ⟨fun h hu hc hd hm hk => takeEffect_precharge s h hr hu hc hd hm hk, fun h hu hc hd hm ha => takeEffect_ready s h hr hu hc hd hm ha,
    fun h hu hc hd hm ha => takeEffect_notAligned s h hr hu hc hd hm ha, fun h _ hc hd hm hk => takeEffect_run s h hr hc hd hm hk,
    fun h hc hd hm hk => takeEffect_leaveSafe s h hr hc hd hm hk, fun hb => ?_, fun hb hf hm => ?_, fun d hb hf hm ht hd hn => ?_⟩
  case refine_1 =>
    obtain ⟨hcause, hsent, -⟩ := enterSafe_shows s 5 none hb
    exact ⟨_, modeCmdSafe_enters o s hr, enterSafe_mode s 21 none hb, hcause, hsent⟩
  case refine_2 =>
    have hdrop := dropTrans_fresh s hf
    obtain ⟨hcmd, -, hintl⟩ := enterSafe_ends s 21 none hb hdrop hm
    exact ⟨_, modeCmdSafe_enters o s hr, hcmd, hintl, enterSafe_gates s 21 none hb hdrop hm⟩
  case refine_3 =>
    have hsafe : modeOf s ≠ .safe := by rw [hm]; decide
    obtain ⟨hcause, -, hmask⟩ := enterSafe_shows s 4 (some s.flt.degNow) hb
    obtain ⟨-, htimer, -⟩ := enterSafe_ends s 20 (some s.flt.degNow) hb (dropTrans_fresh s hf) hsafe
    exact ⟨_, degradedTimer_enters s d hr hm ht hd, enterSafe_mode s 20 _ hb, hcause, hmask _ rfl hn, htimer⟩

end Sys2Proof.Machine
end

section
/-! SUPPORT. A write to a register by its access codes: the branches of the general write, and the registers named in the statement. -/

namespace Sys2Proof.Machine

open Sys2Proof

/-! The general write. -/

theorem genWrite_of_row (s : State) (o : Origin) (a : Nat) (val : Word) (r : RegRow) (h : rowOf a = some r) :
    genWrite s o a val = regWrite s o a r val := by
  generalize hg : genWrite = g
  delta genWrite at hg
  subst hg
  simp only [h]

/-- A row takes writes in the mode. -/
def RegRow.takes (r : RegRow) (m : Mode) : Prop := r.modes = [] ∨ m ∈ r.modes

theorem gateOpen_of_takes {r : RegRow} {m : Mode} (h : r.takes m) : (!r.modes.isEmpty && !r.modes.contains m) = false := by
  rcases h with h | h <;> simp [h]

/-- Hardware has set no bit of a register in the cycle. -/
theorem hwBits_none {s : State} {a : Nat} (h : ∀ e ∈ s.hwSet, e.1 ≠ a) :
    (s.hwSet.filter fun e => e.1 == a).foldl (fun w e => w ||| e.2) (0 : Word) = 0 := by
  have e : s.hwSet.filter (fun e => e.1 == a) = [] := by
    rw [List.filter_eq_nil_iff]; intro e he; simpa using h e he
  rw [e, List.foldl_nil]

/-- What each field takes, with no hardware set in the cycle. -/
def fieldsTake (s : State) (a : Nat) (r : RegRow) (val : Word) : Word :=
  r.fs.foldl (fieldWrite val 0 (rwlOpen s && !logIsFull s)) (reg s a)

/-- Outside its modes a register takes no write (R499). -/
theorem regWrite_gated (s : State) (o : Origin) (a : Nat) (r : RegRow) (val : Word) (h1 : r.modes ≠ []) (h2 : modeOf s ∉ r.modes) :
    regWrite s o a r val = accessFault s a := by
  unfold regWrite
  rw [if_pos (by simp [h1, h2])]

/-- A register without RWL fields takes the word by its access codes (R10). -/
theorem regWrite_codes (s : State) (o : Origin) (a : Nat) (r : RegRow) (val : Word) (hmode : r.takes (modeOf s)) (hm : accMask r (· == .rwl) = 0)
    (hhw : ∀ e ∈ s.hwSet, e.1 ≠ a) :
    regWrite s o a r val = whenB (val &&& accMask r (· == .w1s) != 0) (fun t => { t with swSet := (a, val &&& accMask r (· == .w1s)) :: t.swSet })
      (setReg s a (fieldsTake s a r val)) := by
  have hunl : (rwlOpen s && !(rwlOpen s && logIsFull s)) = (rwlOpen s && !logIsFull s) := by cases rwlOpen s <;> rfl
  have hhas : (!(0 != (0 : Word))) = true := rfl
  unfold regWrite
  rw [gateOpen_of_takes hmode, if_neg Bool.false_ne_true]
  dsimp only
  rw [hm, hhas, if_pos rfl, hwBits_none hhw, hunl]
  rfl

/-- One whose fields are not set by software either: the register alone takes its word. -/
theorem regWrite_plain (s : State) (o : Origin) (a : Nat) (r : RegRow) (val : Word) (hmode : r.takes (modeOf s)) (hm : accMask r (· == .rwl) = 0)
    (hs : accMask r (· == .w1s) = 0) (hhw : ∀ e ∈ s.hwSet, e.1 ≠ a) : regWrite s o a r val = setReg s a (fieldsTake s a r val) := by
  have hz : val &&& (0 : Word) = 0 := BitVec.and_zero
  rw [regWrite_codes s o a r val hmode hm hhw, hs, hz]
  rfl

/-- A write of a word of one RWL field, which no software sets (R411, R412). -/
theorem regWrite_rwl (s : State) (o : Origin) (a : Nat) (r : RegRow) (val : Word) (hmode : r.modes = []) (hf : r.fs = whole .rwl) :
    regWrite s o a r val =
      let unl := rwlOpen s && !(rwlOpen s && logIsFull s)
      let new := if unl then val else reg s a
      let t := setReg s a new
      let u := report (safLog t 1 (originNode t o) a (reg s a) new) 357 .cfgChange a
      if unl then modSaf u fun f => { f with lockAt := now u + sec 600 }
      else if rwlOpen s && logIsFull s then logFull t else accessFault t a := by
  have hz : val &&& (0 : Word) = 0 := BitVec.and_zero
  have hm : accMask r (· == .rwl) = BitVec.allOnes 32 := by unfold accMask; rw [hf]; decide
  have hs : accMask r (· == .w1s) = 0 := by unfold accMask; rw [hf]; decide
  have ho : (accMask r fun c => c == .rw || c == .w1c || c == .w1s || c == .wo) = 0 := by unfold accMask; rw [hf]; decide
  have hall : maskOf 31 0 = BitVec.allOnes 32 := by decide
  have hnew : ∀ hw unl, (whole .rwl).foldl (fieldWrite val hw unl) (reg s a) = if unl then val else reg s a := by
    intro hw unl
    simp only [whole, List.foldl_cons, List.foldl_nil, fieldWrite, hall, BitVec.and_allOnes, BitVec.not_allOnes, BitVec.and_zero, BitVec.zero_or]
  have hhit : ((BitVec.allOnes 32 != 0) && ((reg s a ^^^ val) &&& BitVec.allOnes 32 != 0 || (0 : Word) == 0)) = true := by simp
  unfold regWrite
  rw [if_neg (by simp [hmode])]
  dsimp only
  rw [hm, hs, ho, hf, hz, hnew, hhit]
  rfl

/-- Closed, nothing is taken, and the write is an access fault. -/
theorem regWrite_locked (s : State) (o : Origin) (a : Nat) (r : RegRow) (val : Word) (hmode : r.modes = []) (hf : r.fs = whole .rwl)
    (hl : rwlOpen s = false) : regWrite s o a r val = accessFault (setReg s a (reg s a)) a := by
  rw [regWrite_rwl s o a r val hmode hf, hl]
  rfl

/-- Open, with room in the log, the word is taken, logged and reported, and the time to the lock begins again (R408). -/
theorem regWrite_unlocked (s : State) (o : Origin) (a : Nat) (r : RegRow) (val : Word) (hmode : r.modes = []) (hf : r.fs = whole .rwl)
    (hl : rwlOpen s = true) (hroom : logIsFull s = false) :
    regWrite s o a r val =
      let u := report (safLog (setReg s a val) 1 (originNode (setReg s a val) o) a (reg s a) val) 357 .cfgChange a
      modSaf u fun f => { f with lockAt := now u + sec 600 } := by
  rw [regWrite_rwl s o a r val hmode hf, hl, hroom]
  rfl

/-! An access fault, and a report, with no injection armed. -/

/-- An access fault reports an address and changes nothing. -/
def FaultOnly (s t : State) (src a : Nat) : Prop :=
  Reports s t src .access a ∧ (∀ x, reg t x = reg s x) ∧ { t with flt := s.flt, regs := s.regs } = s

theorem accessFault_faultOnly (s : State) (a : Nat) (h : notInjecting s = true) :
    FaultOnly s (accessFault s a) (32 * (if 0x40000000 ≤ a ∧ a < 0x400F0000 then blockOf a else 0) + 31) a := by
  unfold accessFault
  rw [report_quiet _ _ _ _ h]
  exact ⟨rfl, fun _ => rfl, rfl⟩

/-- Below the peripherals it is a report of SYS (R355). -/
theorem accessFault_low (s : State) (a : Nat) (h : notInjecting s = true) (ha : a < 0x40000000) : FaultOnly s (accessFault s a) 31 a := by
  have hf := accessFault_faultOnly s a h
  rwa [if_neg (by omega)] at hf

theorem accessFault_periph (s : State) (a : Nat) (h : notInjecting s = true) (ha : 0x40000000 ≤ a) (hb : a < 0x400F0000) :
    FaultOnly s (accessFault s a) (32 * blockOf a + 31) a := by
  have hf := accessFault_faultOnly s a h
  rwa [if_pos ⟨ha, hb⟩] at hf

theorem reg_setReg_self (s : State) (a x : Nat) : reg (setReg s a (reg s a)) x = reg s x := by
  rw [reg_setReg]
  split
  next e => rw [e]
  next => rfl

/-- The same after a register has kept its word. -/
theorem faultOnly_of_kept {s t : State} (a : Nat) {b src : Nat} (h : FaultOnly (setReg s a (reg s a)) t src b) : FaultOnly s t src b := by
  obtain ⟨hrep, hreg, hframe⟩ := h
  refine ⟨hrep, fun x => (hreg x).trans (reg_setReg_self s a x), ?_⟩
  have e : { setReg s a (reg s a) with regs := s.regs } = s := rfl
  have e2 := congrArg (fun u : State => { u with regs := s.regs }) hframe
  exact e2.trans e

/-- Only a register has taken a word. -/
def RegOnly (s t : State) (a : Nat) (v : Word) : Prop :=
  reg t a = v ∧ (∀ x, x ≠ a → reg t x = reg s x) ∧ { t with regs := s.regs } = s

theorem setReg_regOnly (s : State) (a : Nat) (v : Word) : RegOnly s (setReg s a v) a v :=
  ⟨reg_setReg_same s a v, fun x h => reg_setReg_other s a v x h, rfl⟩

/-! The registers named. -/

theorem rowOf_tpCfg : rowOf (sysR 0x020) = some (reg1 0x020 0x00021194 [(19, 16, .rw), (14, 0, .rw)]) := by decide
theorem rowOf_tmkStatus : rowOf (tmkR 0x004) = some (reg1 0x004 0 [(15, 7, .ro), (4, 0, .w1c)]) := by decide
theorem rowOf_sysId : rowOf (sysR 0x000) = some (reg1 0x000 0x720000C1 (whole .ro)) := by decide
theorem rowOf_supFeed : rowOf (supR 0x000) = some (inModes [.boot] (reg1 0x000 0x0244011D (whole .rw))) := by decide
theorem rowOf_safAct : rowOf (safR 0x010) = some (reg1 0x010 0x0505001E (whole .rwl)) := by decide

theorem blockWrite_tpCfg (s : State) (o : Origin) (v : Word) : blockWrite s o (sysR 0x020) v = genWrite s o (sysR 0x020) v := rfl
theorem blockWrite_sysId (s : State) (o : Origin) (v : Word) : blockWrite s o (sysR 0x000) v = genWrite s o (sysR 0x000) v := rfl
theorem blockWrite_supFeed (s : State) (o : Origin) (v : Word) : blockWrite s o (supR 0x000) v = genWrite s o (supR 0x000) v := rfl
theorem blockWrite_safAct (s : State) (o : Origin) (v : Word) : blockWrite s o (safR 0x010) v = timingWrite s o (safR 0x010) v := rfl

theorem blockWrite_tmkStatus (s : State) (o : Origin) (v : Word) : blockWrite s o (tmkR 0x004) v = genWrite s o (tmkR 0x004) v := by
  have hblock : blockWrite s o (tmkR 0x004) v = tmkWrite s o (tmkR 0x004) v := rfl
  have h : tmkR 0x004 - tmkR 0 = 4 := rfl
  rw [hblock]
  generalize tmkR 0x004 = a at h ⊢
  unfold tmkWrite
  extract_lets off n m
  have hoff : off = 4 := h
  rw [if_neg (by omega), if_neg (by omega), if_neg (by omega), if_neg (by omega), if_neg (by omega)]

/-- Two fields written are one field written, of both masks. -/
theorem setMask_setMask (cur v m n : Word) :
    (((cur &&& ~~~ m) ||| (v &&& m)) &&& ~~~ n) ||| (v &&& n) = (cur &&& ~~~ (m ||| n)) ||| (v &&& (m ||| n)) := by
  apply BitVec.eq_of_getLsbD_eq
  intro i hi
  simp only [BitVec.getLsbD_or, BitVec.getLsbD_and, BitVec.getLsbD_not, hi, decide_true, Bool.true_and]
  cases cur.getLsbD i <;> cases v.getLsbD i <;> cases m.getLsbD i <;> cases n.getLsbD i <;> rfl

theorem fieldsTake_tpCfg (s : State) (v : Word) :
    fieldsTake s (sysR 0x020) (reg1 0x020 0x00021194 [(19, 16, .rw), (14, 0, .rw)]) v =
      (reg s (sysR 0x020) &&& 0xFFF08000) ||| (v &&& 0x000F7FFF) := by
  have hm : maskOf 19 16 ||| maskOf 14 0 = 0x000F7FFF := by decide
  have hn : ~~~ (0x000F7FFF : Word) = 0xFFF08000 := by decide
  simp only [fieldsTake, reg1, List.foldl_cons, List.foldl_nil, fieldWrite]
  rw [setMask_setMask, hm, hn]

theorem fieldsTake_tmkStatus (s : State) (v : Word) :
    fieldsTake s (tmkR 0x004) (reg1 0x004 0 [(15, 7, .ro), (4, 0, .w1c)]) v = reg s (tmkR 0x004) &&& ~~~ (v &&& 0x1F) := by
  have hm : maskOf 4 0 = 0x1F := by decide
  have hn : ~~~ (0 : Word) = BitVec.allOnes 32 := by decide
  simp only [fieldsTake, reg1, List.foldl_cons, List.foldl_nil, fieldWrite]
  rw [hm, hn, BitVec.and_allOnes]

theorem fieldsTake_supFeed (s : State) (v : Word) : fieldsTake s (supR 0x000) (inModes [.boot] (reg1 0x000 0x0244011D (whole .rw))) v = v := by
  have hm : maskOf 31 0 = BitVec.allOnes 32 := by decide
  simp only [fieldsTake, inModes, reg1, whole, List.foldl_cons, List.foldl_nil, fieldWrite, hm, BitVec.and_allOnes, BitVec.not_allOnes,
    BitVec.and_zero, BitVec.zero_or]

/-! The command. -/

theorem registerWrite_next (o : Origin) (sz : Size) (addr v : Word) (s : State) (hr : s.sys.inReset = false) :
    exec (.registerWrite o sz addr v) s = .next (if sz = .w then busWrite s o addr.toNat v else accessFault s addr.toNat) :=
  congrArg Host.Outcome.next (live_of_run s (fun s => regWriteCmd s o sz addr.toNat v) hr)

theorem registerWrite_word (o : Origin) (addr v : Word) (s : State) (hr : s.sys.inReset = false) :
    exec (.registerWrite o .w addr v) s = .next (busWrite s o addr.toNat v) :=
  (registerWrite_next o .w addr v s hr).trans (by rw [if_pos rfl])

/-- A word for a register that a reached block's map defines has the effect of its block. -/
theorem busWrite_reached (s : State) (o : Origin) (a : Nat) (v : Word) (hp : inPeriph a = true) (h4 : a % 4 = 0) (hr : reachable s a = true)
    (hrow : (rowOf a).isSome = true) : busWrite s o a v = blockWrite s o a v := by
  have hreg : regBusWrite s o a v = blockWrite s o a v := by
    unfold regBusWrite
    rw [hr, hrow, Bool.and_self, if_pos rfl]
  unfold busWrite
  rw [if_neg (not_not.mpr h4), if_pos hp, hreg]

/-- The same of the command, its address a number. -/
theorem registerWrite_reached (s : State) (o : Origin) (a : Nat) (v : Word) (r : RegRow) (hs : s.sys.inReset = false) (h32 : a < 2 ^ 32)
    (hp : inPeriph a = true) (h4 : a % 4 = 0) (hr : reachable s a = true) (hrow : rowOf a = some r) :
    exec (.registerWrite o .w (BitVec.ofNat 32 a) v) s = .next (blockWrite s o a v) := by
  rw [registerWrite_word o _ v s hs, BitVec.toNat_ofNat, Nat.mod_eq_of_lt h32, busWrite_reached s o a v hp h4 hr (by rw [hrow]; rfl)]

theorem eccWrite_quiet (s : State) (t a : Nat) (h : notInjecting s = true) :
    eccWrite s t a = modFlt s fun f => { f with ecc := kput 0 f.ecc (eccKey t a) 0 } := by
  have q : bitOf (reg s (fltR 0x080)) 31 = false := by simpa [notInjecting, rb] using h
  unfold eccWrite
  dsimp only
  rw [q]
  rfl

theorem memWrite_frame (s : State) (a : Nat) (bs : List Byte) (h : notInjecting s = true) :
    (memWrite s a bs).regs = s.regs ∧ { memWrite s a bs with mem := s.mem, flt := s.flt } = s := by
  have hq : notInjecting { s with mem := bytesPut s.mem a bs } = true := h
  unfold memWrite
  rw [eccWrite_quiet _ _ _ hq]
  exact ⟨rfl, rfl⟩

/-- The change log and the report of an accepted RWL write leave the registers but the one written. -/
theorem safAct_taken (s : State) (o : Origin) (v : Word) (hq : notInjecting s = true) (hl : rwlOpen s = true) (hroom : logIsFull s = false)
    (hw : us (Nat.max 1 (fld v 23 16)) < tpWidth s) (t : State) (e : t = blockWrite s o (safR 0x010) v) :
    reg t (safR 0x010) = v ∧ (∀ x, x ≠ safR 0x010 → reg t x = reg s x) ∧ Reports s t 357 .cfgChange (safR 0x010) ∧
      t.nv.logSeq = s.nv.logSeq + 1 ∧ t.nv.unack = s.nv.unack + 1 ∧ t.saf.lockAt = now s + sec 600 ∧
      (t.mem, t.sys, t.swg) = (s.mem, s.sys, s.swg) := by
  rw [blockWrite_safAct, timingWrite, if_neg (by omega), genWrite_of_row _ _ _ _ _ rowOf_safAct, regWrite_unlocked _ _ _ _ _ rfl rfl hl hroom] at e
  have hq2 : notInjecting (safLog (setReg s (safR 0x010) v) 1 (originNode (setReg s (safR 0x010) v) o) (safR 0x010)
      (reg s (safR 0x010)) v) = true := by
    have hother : reg (setReg s (safR 0x010) v) (fltR 0x080) = reg s (fltR 0x080) := reg_setReg_other _ _ _ _ (by decide)
    rw [← hq, notInjecting, notInjecting, rb, rb, ← hother]
    rfl
  rw [report_quiet _ _ _ _ hq2] at e
  have hun : Nat.min 256 (s.nv.unack + 1) = s.nv.unack + 1 := by
    have : s.nv.unack < 248 := by simpa [logIsFull] using hroom
    exact Nat.min_eq_right (by omega)
  subst e
  exact ⟨reg_setReg_same s _ v, fun x hx => reg_setReg_other s _ v x hx, rfl, rfl, hun, rfl, rfl⟩

/-- A word for the shared SRAM stands there and nowhere else. -/
theorem busWrite_sram (s : State) (o : Origin) (a : Nat) (v : Word) (hq : notInjecting s = true) (h1 : 0x20000000 ≤ a) (h2 : a < 0x20400000)
    (h4 : a % 4 = 0) : bytesGet (busWrite s o a v).mem a 4 = v.toNat ∧
      (∀ x, (x < a ∨ a + 4 ≤ x) → memByte (busWrite s o a v) x = memByte s x) ∧ (busWrite s o a v).regs = s.regs ∧
      { busWrite s o a v with mem := s.mem, flt := s.flt } = s := by
  have hp : inPeriph a = false := by simp only [inPeriph, Bool.and_eq_false_iff, decide_eq_false_iff_not]; omega
  have hm : inSram a = true := by simp only [inSram, Bool.and_eq_true, decide_eq_true_eq]; omega
  have e : busWrite s o a v = memWrite s a (natLe 4 v.toNat) := by
    unfold busWrite
    rw [if_neg (not_not.mpr h4), hp, if_neg Bool.false_ne_true, hm, Bool.true_or, Bool.true_or, if_pos rfl]
  obtain ⟨hget, hout⟩ := memWrite_bytes s a (natLe 4 v.toNat)
  obtain ⟨hregs, hframe⟩ := memWrite_frame s a (natLe 4 v.toNat) hq
  rw [length_natLe] at hget hout
  rw [leNat_natLe, Nat.mod_eq_of_lt (show v.toNat < 256 ^ 4 from v.isLt)] at hget
  rw [e]
  exact ⟨hget, hout, hregs, hframe⟩

/-- Settles O22, from what the general write does to a row and from the rows of the registers named. -/
theorem registerWriteByAccessCodes : Obligations.RegisterWriteByAccessCodes := by
  intro o v addr sz s hs hq
  dsimp only
  refine ⟨fun ⟨hr, hhw⟩ => ?_, fun ⟨hr, hhw⟩ => ?_, fun ⟨hr, hhw⟩ => ?_, fun ⟨hr, _⟩ hb => ?_,
    fun ⟨hr, hhw⟩ hb => ?_, fun ⟨hr, _⟩ hl => ?_, fun ⟨hr, _⟩ hl hroom hw => ?_, fun hsz ha => ?_, fun h4 ha => ?_,
    fun h1 h2 h4 => ?_, ?_, fun hp h4 hr hrow => ?_,
    fun a r hrow hmode hm hhw => ?_⟩
  · -- SYS_TP_CFG
    refine ⟨_, registerWrite_reached s o _ v _ hs (by decide) (by decide) (by decide) hr rowOf_tpCfg, ?_⟩
    rw [blockWrite_tpCfg, genWrite_of_row _ _ _ _ _ rowOf_tpCfg, regWrite_plain _ _ _ _ _ (Or.inl rfl) (by decide) (by decide) hhw, fieldsTake_tpCfg]
    exact setReg_regOnly s _ _
  · -- TMK_STATUS
    refine ⟨_, registerWrite_reached s o _ v _ hs (by decide) (by decide) (by decide) hr rowOf_tmkStatus, ?_⟩
    rw [blockWrite_tmkStatus, genWrite_of_row _ _ _ _ _ rowOf_tmkStatus, regWrite_plain _ _ _ _ _ (Or.inl rfl) (by decide) (by decide) hhw,
      fieldsTake_tmkStatus]
    exact setReg_regOnly s _ _
  · -- SYS_ID
    refine ⟨_, registerWrite_reached s o _ v _ hs (by decide) (by decide) (by decide) hr rowOf_sysId, ?_⟩
    rw [blockWrite_sysId, genWrite_of_row _ _ _ _ _ rowOf_sysId, regWrite_plain _ _ _ _ _ (Or.inl rfl) (by decide) (by decide) hhw]
    exact ⟨fun x => reg_setReg_self s _ x, rfl⟩
  · -- SUP_FEED outside BOOT
    refine ⟨_, registerWrite_reached s o _ v _ hs (by decide) (by decide) (by decide) hr rowOf_supFeed, ?_⟩
    rw [blockWrite_supFeed, genWrite_of_row _ _ _ _ _ rowOf_supFeed, regWrite_gated _ _ _ _ _ (by decide) (by simpa [inModes] using hb)]
    exact accessFault_periph s _ hq (by decide) (by decide)
  · -- SUP_FEED in BOOT
    refine ⟨_, registerWrite_reached s o _ v _ hs (by decide) (by decide) (by decide) hr rowOf_supFeed, ?_⟩
    rw [blockWrite_supFeed, genWrite_of_row _ _ _ _ _ rowOf_supFeed,
      regWrite_plain _ _ _ _ _ (Or.inr (by simp [inModes, hb])) (by decide) (by decide) hhw, fieldsTake_supFeed]
    exact setReg_regOnly s _ _
  · -- SAF_ACT, locked
    refine ⟨_, registerWrite_reached s o _ v _ hs (by decide) (by decide) (by decide) hr rowOf_safAct, ?_⟩
    rw [blockWrite_safAct, timingWrite]
    split
    · exact accessFault_periph s _ hq (by decide) (by decide)
    · rw [genWrite_of_row _ _ _ _ _ rowOf_safAct, regWrite_locked _ _ _ _ _ rfl rfl hl]
      refine faultOnly_of_kept (safR 0x010) (accessFault_periph _ _ ?_ (by decide) (by decide))
      rw [notInjecting, rb, reg_setReg_self]
      exact hq
  · -- SAF_ACT, unlocked
    exact ⟨_, registerWrite_reached s o _ v _ hs (by decide) (by decide) (by decide) hr rowOf_safAct, safAct_taken s o v hq hl hroom hw _ rfl⟩
  · -- not a word
    refine ⟨_, registerWrite_next o sz addr v s hs, ?_⟩
    rw [if_neg hsz]
    exact accessFault_low s _ hq ha
  · -- not aligned
    refine ⟨_, registerWrite_word o addr v s hs, ?_⟩
    rw [busWrite, if_pos h4]
    exact accessFault_low s _ hq ha
  · exact ⟨_, registerWrite_word o addr v s hs, busWrite_sram s o _ v hq h1 h2 h4⟩
  · exact ⟨_, registerWrite_next o sz addr v s hs, rfl⟩
  · exact ⟨_, registerWrite_word o addr v s hs, busWrite_reached s o _ v hp h4 hr hrow⟩
  · -- by the access codes
    rw [genWrite_of_row s o a v r hrow, regWrite_codes s o a r v hmode hm hhw]
    unfold whenB
    split
    · exact ⟨reg_setReg_same s a _, fun x hx => reg_setReg_other s a _ x hx, rfl⟩
    · exact ⟨reg_setReg_same s a _, fun x hx => reg_setReg_other s a _ x hx, rfl⟩

end Sys2Proof.Machine
end

section
/-! SUPPORT. The release of reset over a transition that stands to be dropped: the entry to SAFE of a cell found BYPASSED takes
the power count back with it. -/

namespace Sys2Proof.Machine

open Sys2Proof

/-- The flash content of the counterexample, by its number of log entries: a cell found BYPASSED. -/
def bypassedNv (seq : Word) : Nv := { (default : Nv) with bypassed := true, logSeq := seq }

/-- A part in a power-on reset with a record of a transition of its own cycle, in which the change log gained an entry. -/
def staleRelease : State :=
  { State.reset with
    nv := bypassedNv 1
    sys := { State.reset.sys with undo := some { (default : Undo) with at_lt := 0, nv := bypassedNv 0 } } }

/-- The entry to SAFE drops that transition, and the flash goes back to before the power-on was counted. -/
theorem staleRelease_pwrCnt : (resetRelease staleRelease 0 false).nv.pwrCnt = 0 := by decide

/-- The power-on should count: PWR_CNT stood at 0. -/
theorem staleRelease_counts : staleRelease.sys.porRst = true ∧ staleRelease.nv.pwrCnt = 0 := by decide

/-- Refutes O18: a cell found BYPASSED at a power-on enters SAFE, which drops a transition recorded for the same cycle (R8); where the
change log has gained one entry since that record, the drop restores the record's flash state, and PWR_CNT does not count.
The statement is about every state in reset; that a reset leaves no such record (State.reset has none, and a power-on and a chip reset
start from it) is not among its hypotheses. -/
theorem not_resetReleaseAndBlockReset : ¬ Obligations.ResetReleaseAndBlockReset := by
  intro ⟨hrelease, _⟩
  obtain ⟨-, hshut, -⟩ := hrelease 0 false staleRelease (by decide) (by decide)
  obtain ⟨t, ht, ⟨-, hcount, -⟩, -⟩ := hshut (by decide) rfl (by decide) (by decide)
  have e : resetRelease staleRelease 0 false = t := Host.Outcome.next.inj ht
  obtain ⟨hpor, hzero⟩ := staleRelease_counts
  rw [← e, staleRelease_pwrCnt, hpor, if_pos rfl, hzero] at hcount
  exact absurd hcount (by decide)

end Sys2Proof.Machine
end

section
/-! SUPPORT. Paired hubs: the comparison of mirrored packets, the interlock's re-check, yielding, and the state image (R422 to R434). -/

namespace Sys2Proof.Machine

open Sys2Proof

/-! The comparison of two lists of packets (R424). -/

theorem sameMirror_self (a : Packet) : sameMirror a a = true := by simp [sameMirror]

/-- A counterpart that is taken was in the list, and the rest of the list is left. -/
theorem takeMirror_perm {a : Packet} {l r : List Packet} (h : takeMirror a l = some r) : ∃ b, sameMirror a b = true ∧ l.Perm (b :: r) := by
  induction l generalizing r with
  | nil => exact absurd h (by simp [takeMirror])
  | cons c l ih =>
    rw [takeMirror] at h
    split at h
    next hc => exact ⟨c, hc, by rw [Option.some.inj h]⟩
    next =>
      obtain ⟨r', hr', rfl⟩ := Option.map_eq_some_iff.mp h
      obtain ⟨b, hb, hp⟩ := ih hr'
      exact ⟨b, hb, (hp.cons c).trans (.swap ..)⟩

theorem mirrorsMatch_self (l : List Packet) : mirrorsMatch l l = true := by
  induction l with
  | nil => rfl
  | cons a l ih => rw [mirrorsMatch, takeMirror, if_pos (sameMirror_self a)]; exact ih

theorem mirrorsMatch_counterparts {l k : List Packet} (h : mirrorsMatch l k = true) :
    l.length = k.length ∧ (∀ a ∈ l, ∃ b ∈ k, sameMirror a b = true) ∧ ∀ b ∈ k, ∃ a ∈ l, sameMirror a b = true := by
  induction l generalizing k with
  | nil =>
    have hk : k = [] := List.isEmpty_iff.mp h
    simp [hk]
  | cons a l ih =>
    rw [mirrorsMatch] at h
    split at h
    next r hr =>
      obtain ⟨b, hab, hp⟩ := takeMirror_perm hr
      obtain ⟨hlen, hleft, hright⟩ := ih h
      refine ⟨by rw [hp.length_eq, List.length_cons, List.length_cons, hlen], fun x hx => ?_, fun y hy => ?_⟩
      · rcases List.mem_cons.mp hx with rfl | hx
        · exact ⟨b, hp.mem_iff.mpr List.mem_cons_self, hab⟩
        · obtain ⟨y, hy, hxy⟩ := hleft x hx
          exact ⟨y, hp.mem_iff.mpr (List.mem_cons_of_mem b hy), hxy⟩
      · rcases List.mem_cons.mp (hp.mem_iff.mp hy) with rfl | hy
        · exact ⟨a, List.mem_cons_self, hab⟩
        · obtain ⟨x, hx, hxy⟩ := hright y hy
          exact ⟨x, List.mem_cons_of_mem a hx, hxy⟩
    next => exact absurd h Bool.false_ne_true

/-! What an update of the pair logic leaves. -/

@[simp] theorem pair_modPair (s : State) (f : Pair → Pair) : (modPair s f).sys.pair = f s.sys.pair := rfl
@[simp] theorem modPair_modPair (s : State) (f g : Pair → Pair) : modPair (modPair s f) g = modPair s fun p => g (f p) := rfl
@[simp] theorem paired_modPair (s : State) (f : Pair → Pair) : paired (modPair s f) = paired s := rfl
@[simp] theorem sideB_modPair (s : State) (f : Pair → Pair) : sideB (modPair s f) = sideB s := rfl

/-! A command out of reset, and the word of PEER_UPD. -/

theorem answers_live {c : Instr} {s : State} {f : State → State} {P : State → Prop} (hc : exec c s = .next (live s f))
    (hr : s.sys.inReset = false) (hp : P (f s)) : Answers c s P := ⟨f s, by rw [hc, live_of_run s f hr], hp⟩

/-- The word of PEER_UPD asks for nothing else (Table 16-6). -/
theorem pairCmdWrite_peerUpd (s : State) (o : Origin) (w : Word) :
    pairCmdWrite s o (setBit (w &&& 0x08000000) 28 true) = peerUpd s (bitOf w 27) := by
  have hbit : ∀ i, i < 32 → bitOf (setBit (w &&& 0x08000000) 28 true) i = if i = 28 then true else (bitOf w i && decide (i = 27)) := by
    intro i hi
    have hm : (0x08000000 : Word).getLsbD i = decide (i = 27) := by revert i; decide
    rw [bitOf_setBit _ _ _ _ hi, bitOf_eq (w &&& _), BitVec.getLsbD_and, hm, bitOf_eq w]
  generalize setBit (w &&& 0x08000000) 28 true = v at hbit ⊢
  simp [pairCmdWrite, hbit]

theorem paired_iff (s : State) : paired s = true ↔ isUpper s = true ∧ rb s (sysR 0x050) 31 = true := by
  simp [paired, pairCfg]

/-! The re-check of INTL_IN (R422). -/

theorem intlRecheck_none (s : State) (level : Bool) (h : s.sys.pair.recheck = none) : intlRecheck s level = s := by
  simp only [intlRecheck, h]

theorem intlRecheck_early (s : State) (level : Bool) (d : Nat) (h : s.sys.pair.recheck = some d) (hd : now s < d + 50) :
    intlRecheck s level = s := by
  simp only [intlRecheck, h, if_pos hd]

/-- The state of side B that finds INTL_IN high, but for its report. -/
def contended (s : State) : State :=
  flag (modPair s fun p => { p with recheck := none, intlIn := true, intlOut := false, active := false, lowRun := 0, bWait := 0 }) pairStat 4

theorem intlRecheck_contends (s : State) (d : Nat) (h : s.sys.pair.recheck = some d) (hd : d + 50 ≤ now s) (ha : s.sys.pair.active = true)
    (hb : sideB s = true) : intlRecheck s true = report (contended s) 8 .pairContend pairStat := by
  simp [intlRecheck, h, Nat.not_lt.mpr hd, ha, hb, contended]

/-- A contending part has raised its flag and reported, and keeps its mode, its ports and its memories. -/
theorem contended_reports (s : State) (hq : notInjecting s = true) :
    let t := report (contended s) 8 .pairContend pairStat
    (t.sys.pair.intlOut, t.sys.pair.active, t.sys.pair.recheck, t.sys.pair.intlIn) = (false, false, none, true) ∧
      rb t (sysR 0x054) 2 = true ∧ Reports s t 8 .pairContend (sysR 0x054) ∧ modeOf t = modeOf s ∧ (t.ports, t.mem) = (s.ports, s.mem) := by
  have hq' : notInjecting (contended s) = true := by
    have hreg : reg (contended s) (fltR 0x080) = reg s (fltR 0x080) := reg_flag_other _ _ _ _ (by decide)
    rw [notInjecting, rb, hreg]
    exact hq
  have hflag : rb (contended s) pairStat 2 = true := by
    rw [contended, rb_flag _ _ _ _ (by omega)]
    exact Bool.or_true _
  rw [report_quiet _ _ _ _ hq']
  exact ⟨rfl, hflag, rfl, rfl, rfl⟩

theorem intlRecheck_passes (s : State) (level : Bool) (d : Nat) (h : s.sys.pair.recheck = some d) (hd : d + 50 ≤ now s)
    (ha : s.sys.pair.active = true) (hb : level = false ∨ sideB s = false) :
    intlRecheck s level = modPair s fun p => { p with recheck := none, intlIn := level, wasAct := true } := by
  have hl : (level && sideB s) = false := Bool.and_eq_false_iff.mpr hb
  simp [intlRecheck, h, Nat.not_lt.mpr hd, ha, hl]

/-! Mirrored packets (R423). -/

theorem mirrorIn_keeps (s : State) (pk : Packet) (hp : paired s = true) (ha : s.sys.pair.active = false) (hm : isMirror pk = true) :
    mirrorIn s pk = modPair s fun p => { p with passed := p.passed.erase pk, peer := p.peer ++ [pk] } := by
  simp [mirrorIn, hp, ha, hm]

theorem mirrorIn_erases (s : State) (pk : Packet) (h : s.sys.pair.active = true ∨ isMirror pk = false ∨ paired s = false) :
    mirrorIn s pk = modPair s fun p => { p with passed := p.passed.erase pk } := by
  have hc : (paired s && !s.sys.pair.active && isMirror pk) = false := by rcases h with e | e | e <;> simp [e]
  simp only [mirrorIn, paired_modPair, pair_modPair, hc]
  rfl

/-! The marks of a yield (R427). -/

theorem yieldMark_marks (s : State) (hp : paired s = true) (ha : s.sys.pair.active = true) (hsyn : s.sys.pair.peerSyn = true)
    (hy : s.sys.pair.yieldTk = none) :
    yieldMark s = modPair s fun p => { p with yieldTk := some (if phaseOf s + 100 ≤ periodLt s then s.tmk.tick else s.tmk.tick + 1) } := by
  obtain ⟨-, hen⟩ := (paired_iff s).mp hp
  simp [yieldMark, hen, ha, hsyn, hy]

theorem yieldMark_unsynced (s : State) (hsyn : s.sys.pair.peerSyn = false) : yieldMark s = s := by simp [yieldMark, hsyn]

theorem yieldReq_confirmed (s : State) (hp : paired s = true) (ha : s.sys.pair.active = true) (hv : rb s (fltR 0x014) 31 = true)
    (hsev : rf s (sysR 0x050) 26 24 ≤ rf s (fltR 0x008) 15 13) : yieldReq s = yieldMark s := by
  simp [yieldReq, hp, ha, hv, hsev, pairCfg]

theorem yieldReq_refused (s : State) (hp : paired s = true) (ha : s.sys.pair.active = true)
    (hv : rb s (fltR 0x014) 31 = false ∨ rf s (fltR 0x008) 15 13 < rf s (sysR 0x050) 26 24) :
    yieldReq s = report s 8 .pairMismatch pairCmd := by
  have hc : (rb s (fltR 0x014) 31 && decide (rf s pairCfg 26 24 ≤ rf s (fltR 0x008) 15 13)) = false := by
    rcases hv with e | e
    · rw [e, Bool.false_and]
    · rw [pairCfg, decide_eq_false (Nat.not_le.mpr e), Bool.and_false]
  simp only [yieldReq, hp, ha, hc]
  rfl

theorem relinquish_paired (s : State) (hp : paired s = true) : relinquish s = yieldMark s := if_pos hp

/-- Of an unpaired part the commands of SYS_PAIR_CMD and an image ask nothing (R416). -/
theorem pairCommands_unpaired (s : State) (hp : paired s = false) (v : Bool) (ws : List (Word × Word)) (last : Bool) :
    peerUpd s v = s ∧ yieldReq s = s ∧ relinquish s = s ∧ syncReq s = s ∧ imageIn s ws last = s := by
  simp [peerUpd, yieldReq, relinquish, syncReq, imageIn, hp]

/-! Directions and the PARTNER port stand where the registers of the lanes and of the hub do. -/

/-- From s to t no register beyond those of SYS changes. -/
def SysOnly (s t : State) : Prop := ∀ a, 0x40010000 ≤ a → reg t a = reg s a

theorem sysOnly_setReg (s : State) (a : Nat) (v : Word) (h : a < 0x40010000) : SysOnly s (setReg s a v) :=
  fun x hx => reg_setReg_other s a v x (by omega)

theorem SysOnly.trans {s t u : State} (h1 : SysOnly s t) (h2 : SysOnly t u) : SysOnly s u := fun x hx => (h2 x hx).trans (h1 x hx)

theorem reg_modSys (s : State) (f : Sys → Sys) (h : (f s.sys).strap = s.sys.strap) (a : Nat) : reg (modSys s f) a = reg s a := by
  simp only [reg, roleOf, modSys_sys, modSys_regs, h]

theorem SysOnly.dirOf {s t : State} (h : SysOnly s t) (p : Nat) : dirOf t p = dirOf s p := by
  have hf : reg t (fltR 0x090) = reg s (fltR 0x090) := h _ (by decide)
  have ht : rf t (trlR (0x100 + 0x40 * p)) 2 0 = rf s (trlR (0x100 + 0x40 * p)) 2 0 := by
    rw [rf, rf, h _ (by simp only [trlR]; omega)]
  unfold Machine.dirOf
  rw [hf, ht]

theorem SysOnly.partnerPort {s t : State} (h : SysOnly s t) : partnerPort t = partnerPort s := by
  simp only [Machine.partnerPort, portsOf, h.dirOf]

theorem SysOnly.isActive {s t : State} (h : SysOnly s t) (p : Nat) (hst : (portOf t p).stage = (portOf s p).stage) :
    isActive t p = isActive s p := by
  simp only [Machine.isActive, h.dirOf, hst]

/-! Words for the partner (R426, R433, R434). -/

/-- The packet that brings a word to the partner's SYS_PAIR_CMD. -/
def cmdPacket (s : State) (v : Word) : Packet := ownPacket s 0 0 0x01 2 0 [wd pairCmd, v]

theorem partnerCmd_sends (s : State) (p : Nat) (v : Word) (hp : partnerPort s = some p) (ha : isActive s p = true) :
    partnerCmd s v = enqueue s p (cmdPacket s v) false := by
  simp only [partnerCmd, hp, ha, if_true]
  rfl

/-- The state of a standby that asks for an image, but for the packet that asks. -/
def syncAsked (s : State) : State :=
  modPair (swMark (setRf s pairCmd 29 29 1) pairCmd 0x20000000) fun p =>
    { p with syncing := true, image := [], imgEnd := false, loaded := false, match_ := 0 }

theorem syncAsked_sysOnly (s : State) : SysOnly s (syncAsked s) := sysOnly_setReg s pairCmd _ (by decide)

/-- The standby has begun to resynchronise, and its request waits on its port alone (R433). -/
theorem syncAsked_effect (s : State) (p : Port) :
    let t := enqueue (syncAsked s) p (cmdPacket s 0x20000000) false
    Queued s t p (cmdPacket s 0x20000000) ∧
      (t.sys.pair.syncing, t.sys.pair.image, t.sys.pair.imgEnd, t.sys.pair.loaded, t.sys.pair.match_) = (true, [], false, false, 0) ∧
      rb t (sysR 0x058) 29 = true ∧ ∀ q, q ≠ p.val → portOf t q = portOf s q := by
  have hbit : rb (syncAsked s) pairCmd 29 = true := by
    have hreg : reg (syncAsked s) pairCmd = setFld (reg s pairCmd) 29 29 1 := reg_setReg_same s pairCmd _
    rw [rb, hreg, bitOf_eq, getLsbD_setFld]
    rfl
  exact ⟨enqueue_queued (syncAsked s) p (cmdPacket s 0x20000000), rfl, hbit, fun q hq => portOf_enqueue_other (syncAsked s) p q _ _ hq⟩

theorem syncReq_active (s : State) (hp : paired s = true) (ha : s.sys.pair.active = true) :
    syncReq s = modPair s fun p => { p with imgReq := true } := by simp [syncReq, hp, ha]

theorem syncReq_standby (s : State) (p : Nat) (hp : paired s = true) (ha : s.sys.pair.active = false) (hm : modeOf s = .run)
    (hn : allNormal s = true) (hport : partnerPort s = some p) (hact : isActive s p = true) :
    syncReq s = enqueue (syncAsked s) p (cmdPacket s 0x20000000) false := by
  have hon := syncAsked_sysOnly s
  have hs : syncReq s = partnerCmd (syncAsked s) 0x20000000 := by simp [syncReq, hp, ha, hm, hn, syncAsked]
  rw [hs, partnerCmd_sends _ p _ (hon.partnerPort.trans hport) ((hon.isActive p rfl).trans hact)]
  rfl

/-! The state image (R433). -/

theorem imagePackets_one (ws : List Word) (h : ws.length ≤ 63) : imagePackets (ws.length + 1) ws = [wd pairStat :: ws] := by
  rw [imagePackets, List.take_of_length_le h, List.drop_of_length_le h]
  rfl

theorem imageSend_waits (s : State) (h : s.sys.pair.imgTick = false ∨ s.sys.pair.active = false) : imageSend s = s := by
  rcases h with e | e <;> simp [imageSend, e]

theorem imageSend_sends (s : State) (p : Nat) (hp : paired s = true) (ha : s.sys.pair.active = true) (hi : s.sys.pair.imgTick = true)
    (hran : ∀ i : Fin 4, rb s (siCtrl i) 0 = true → (instOf s i).ran = true) (hport : partnerPort s = some p) (hact : isActive s p = true)
    (hlen : ((imageAddrs s).map (reg s)).length ≤ 63) :
    imageSend s = enqueue (modPair s fun f => { f with imgTick := false }) p
      (ownPacket s 0 0 0x01 2 0 (wd pairStat :: (imageAddrs s).map (reg s))) false := by
  have hdone : ((List.range 4).all fun i => !rb s (siCtrl i) 0 || (instOf s i).ran) = true := by
    rw [List.all_eq_true]
    intro i hi
    cases hc : rb s (siCtrl i) 0 with
    | false => rfl
    | true => exact hran ⟨i, List.mem_range.mp hi⟩ hc
  have hport' : ∀ f, partnerPort (modPair s f) = some p := fun _ => hport
  have hact' : ∀ f, isActive (modPair s f) p = true := fun _ => hact
  have himage : ∀ f, (imageAddrs (modPair s f)).map (reg (modPair s f)) = (imageAddrs s).map (reg s) := fun _ => rfl
  simp only [imageSend, hp, ha, hi, hdone, hport', hact', himage, imagePackets_one _ hlen]
  rfl

theorem imageIn_keeps (s : State) (ws : List (Word × Word)) (last : Bool) (hp : paired s = true) (ha : s.sys.pair.active = false)
    (hs : s.sys.pair.syncing = true) (hl : s.sys.pair.loaded = false) :
    imageIn s ws last = modPair s fun p => { p with image := p.image ++ ws, imgEnd := p.imgEnd || last } := by
  simp [imageIn, hp, ha, hs, hl]

/-! Work in flight is dropped (R29, R31). -/

theorem portOf_foldl_drop (l : List Nat) (s : State) (k : Nat) :
    portOf (l.foldl (fun s p => modPort s p PortSt.drop) s) k = if k ∈ l then (portOf s k).drop else portOf s k := by
  induction l generalizing s with
  | nil => rfl
  | cons a l ih =>
    rw [List.foldl_cons, ih, portOf_modPort]
    by_cases ha : k = a
    · subst ha
      simp only [if_true, List.mem_cons, true_or, PortSt.drop, ite_self]
    · simp only [ha, if_false, List.mem_cons, false_or]

theorem portOf_dropWork (s : State) (p : Port) : portOf (dropWork s) p = (portOf s p).drop := by
  unfold dropWork
  simp only [portOf_modLpe, portOf_modStp, portOf_modTrr]
  rw [foldl_keeps (fun u => portOf u p) _ (fun _ _ => portOf_modCore ..), portOf_foldl_drop, if_pos (List.mem_range.mpr p.isLt)]

theorem dropWork_queues (s : State) : (dropWork s).trr.reqs = [] ∧ (dropWork s).stp.xq = [] := ⟨rfl, rfl⟩

theorem dropWork_nodeId (s : State) : nodeId (dropWork s) = nodeId s := by
  unfold dropWork
  simp only [nodeId, modLpe_trr, modStp_trr, modTrr_trr]
  rw [foldl_keeps State.trr _ (fun _ _ => modCore_trr ..), foldl_keeps State.trr _ (fun _ _ => modPort_trr ..)]

theorem dropWork_now (s : State) : now (dropWork s) = now s := by
  unfold dropWork
  simp only [now, modLpe_lt, modStp_lt, modTrr_lt]
  rw [foldl_keeps State.lt _ (fun _ _ => modCore_lt ..), foldl_keeps State.lt _ (fun _ _ => modPort_lt ..)]

theorem dropWork_sys_regs (s : State) : (dropWork s).sys = s.sys ∧ (dropWork s).regs = s.regs := by
  have h := dropWork_fixed s
  simp only [fixedPart, Prod.mk.injEq] at h
  obtain ⟨-, hsys, -, hregs, -⟩ := h
  exact ⟨hsys, hregs⟩

theorem dropWork_reg (s : State) (a : Nat) : reg (dropWork s) a = reg s a := by
  obtain ⟨hsys, hregs⟩ := dropWork_sys_regs s
  simp only [reg, roleOf, hsys, hregs]

/-! A discard event: it leaves the queues and the pair logic, and the first of a cycle counts EPOCH (R34 to R36). -/

theorem discard_ports (s : State) (c src blk : Nat) (w : Bool) : (discard s c src blk w).ports = s.ports := by
  simp -implicitDefEqProofs only [discard, apply_ite State.ports, setReg_ports, modSys_ports, ite_self]

theorem discard_trr (s : State) (c src blk : Nat) (w : Bool) : (discard s c src blk w).trr = s.trr := by
  simp -implicitDefEqProofs only [discard, apply_ite State.trr, setReg_trr, modSys_trr, ite_self]

theorem discard_stp (s : State) (c src blk : Nat) (w : Bool) : (discard s c src blk w).stp = s.stp := by
  simp -implicitDefEqProofs only [discard, apply_ite State.stp, setReg_stp, modSys_stp, ite_self]

theorem discard_pair (s : State) (c src blk : Nat) (w : Bool) : (discard s c src blk w).sys.pair = s.sys.pair := by
  unfold discard
  generalize (if c = 2 then 4 else if c = 4 then 3 else if c = 3 then 2 else 1) = pri
  simp -implicitDefEqProofs only [apply_ite (fun u : State => u.sys.pair), setReg_sys, modSys_sys, ite_self]

theorem discard_sysOnly (s : State) (c src blk : Nat) (w : Bool) : SysOnly s (discard s c src blk w) := by
  have h10 : ∀ u v, SysOnly u (setReg u (sysR 0x010) v) := fun u v => sysOnly_setReg u _ v (by decide)
  have h14 : ∀ u v, SysOnly u (setReg u (sysR 0x014) v) := fun u v => sysOnly_setReg u _ v (by decide)
  have h18 : ∀ u v, SysOnly u (setReg u (sysR 0x018) v) := fun u v => sysOnly_setReg u _ v (by decide)
  have hsys : ∀ (u : State) (f : Sys → Sys), (f u.sys).strap = u.sys.strap → SysOnly u (modSys u f) := fun u f e x _ => reg_modSys u f e x
  unfold discard
  generalize (if c = 2 then 4 else if c = 4 then 3 else if c = 3 then 2 else 1) = pri
  dsimp only
  refine (h18 s (wd (now s))).trans ?_
  split
  · split
    · exact ((h10 _ _).trans (h14 _ _)).trans (hsys _ _ rfl)
    · split
      · exact h14 _ _
      · exact fun _ _ => rfl
  · exact ((h10 _ _).trans (h14 _ _)).trans (hsys _ _ rfl)

/-- A field written reads as the number, as far as it fits. -/
theorem fld_setFld_mod (w : Word) (hi lo v : Nat) (h : hi < 32) : fld (setFld w hi lo v) hi lo = v % 2 ^ (hi + 1 - lo) := by
  apply Nat.eq_of_testBit_eq
  intro i
  rw [testBit_fld, getLsbD_setFld, Nat.testBit_mod_two_pow]
  by_cases c : i < hi + 1 - lo
  · have hin : lo + i < 32 ∧ lo ≤ lo + i ∧ lo + i ≤ hi := by omega
    simp [c, hin]
  · simp [c]

/-- The first discard event of a cycle counts EPOCH and names its cause. -/
theorem discard_counts (s : State) (c src blk : Nat) (w : Bool) (h : s.sys.discLt ≠ some (now s)) (hc : c < 16) :
    rf (discard s c src blk w) (sysR 0x010) 31 8 = (rf s (sysR 0x010) 31 8 + 1) % 2 ^ 24 ∧ rf (discard s c src blk w) (sysR 0x010) 3 0 = c := by
  have hreg : reg (discard s c src blk w) (sysR 0x010) =
      setFld (setFld (reg s (sysR 0x010)) 31 8 (fld (reg s (sysR 0x010)) 31 8 + 1)) 3 0 c := by
    unfold discard
    dsimp only
    rw [if_neg (by simpa using h), reg_modSys _ _ rfl, reg_setReg_other _ _ _ _ (by decide), reg_setReg_same]
  constructor
  · rw [rf, hreg, fld_setFld_other _ _ _ _ _ _ (by omega), fld_setFld_mod _ _ _ _ (by omega)]
    rfl
  · rw [rf, hreg, fld_setFld_same _ _ _ _ (by omega) hc]

/-! A yield (R428). -/

theorem reg_pairYield (s : State) (a : Nat) : reg (pairYield s) a = reg s a := rfl
theorem discLt_pairYield (s : State) : (pairYield s).sys.discLt = s.sys.discLt := rfl
theorem ports_pairYield (s : State) : (pairYield s).ports = s.ports := rfl
theorem trr_pairYield (s : State) : (pairYield s).trr = s.trr := rfl
theorem stp_pairYield (s : State) : (pairYield s).stp = s.stp := rfl
theorem now_pairYield (s : State) : now (pairYield s) = now s := rfl

/-- The state of an active part that has dropped INTL_OUT and its work, before its partner is told. -/
def yielded (s : State) : State := discard (pairYield (dropWork s)) 4 0x1FF 0xF (anyWork s)

theorem intlDrop_yields (s : State) (ha : s.sys.pair.active = true) (hen : rb s (sysR 0x050) 31 = true) :
    intlDrop s = if s.sys.pair.synced then peerTell (yielded s) false else yielded s := by
  simp [intlDrop, ha, hen, yielded, pairYield]

theorem yielded_pair (s : State) :
    (yielded s).sys.pair = { s.sys.pair with intlOut := false, active := false, synced := false, yieldTk := none } := by
  obtain ⟨hsys, -⟩ := dropWork_sys_regs s
  rw [yielded, discard_pair, pairYield, pair_modPair, hsys]

theorem portOf_yielded (s : State) (p : Port) : portOf (yielded s) p = (portOf s p).drop := by
  rw [← portOf_dropWork, portOf, portOf, yielded, discard_ports, ports_pairYield]

theorem yielded_queues (s : State) : (yielded s).trr.reqs = [] ∧ (yielded s).stp.xq = [] := by
  obtain ⟨hreqs, hxq⟩ := dropWork_queues s
  rw [yielded, discard_trr, discard_stp, trr_pairYield, stp_pairYield]
  exact ⟨hreqs, hxq⟩

theorem yielded_nodeId (s : State) : nodeId (yielded s) = nodeId s := by
  rw [← dropWork_nodeId s, nodeId, nodeId, yielded, discard_trr, trr_pairYield]

theorem yielded_sysOnly (s : State) : SysOnly s (yielded s) :=
  fun x hx => by rw [yielded, discard_sysOnly _ _ _ _ _ x hx, reg_pairYield, dropWork_reg]

theorem yielded_epoch (s : State) (h : s.sys.discLt ≠ some (now s)) :
    rf (yielded s) (sysR 0x010) 31 8 = (rf s (sysR 0x010) 31 8 + 1) % 2 ^ 24 ∧ rf (yielded s) (sysR 0x010) 3 0 = 4 := by
  obtain ⟨hsys, -⟩ := dropWork_sys_regs s
  have hfresh : (pairYield (dropWork s)).sys.discLt ≠ some (now (pairYield (dropWork s))) := by
    rwa [discLt_pairYield, now_pairYield, hsys, dropWork_now]
  have hepoch : rf (pairYield (dropWork s)) (sysR 0x010) 31 8 = rf s (sysR 0x010) 31 8 := by
    rw [rf, rf, reg_pairYield, dropWork_reg]
  rw [← hepoch]
  exact discard_counts _ 4 0x1FF 0xF _ hfresh (by omega)

/-- From s to t only the ports change. -/
def PortsOnly (s t : State) : Prop := ∃ l, t = { s with ports := l }

theorem portsOnly_refl (s : State) : PortsOnly s s := ⟨s.ports, rfl⟩
theorem portsOnly_enqueue (s : State) (p : Nat) (pk : Packet) (d : Bool) : PortsOnly s (enqueue s p pk d) := ⟨_, rfl⟩

/-- A synchronised part tells its partner that it no longer is; another tells it nothing (R434). -/
theorem intlDrop_ports (s : State) (p : Port) (ha : s.sys.pair.active = true) (hen : rb s (sysR 0x050) 31 = true)
    (hport : partnerPort s = some p.val) (hact : isActive s p = true) :
    PortsOnly (yielded s) (intlDrop s) ∧
      portOf (intlDrop s) p = { (portOf s p).drop with q2 := if s.sys.pair.synced then [cmdPacket s 0x10000000] else [] } := by
  have hon := yielded_sysOnly s
  have hq := portOf_yielded s p
  rw [intlDrop_yields s ha hen]
  cases s.sys.pair.synced with
  | false => exact ⟨portsOnly_refl _, hq⟩
  | true =>
    have hcmd : cmdPacket (yielded s) 0x10000000 = cmdPacket s 0x10000000 := by simp only [cmdPacket, ownPacket, yielded_nodeId]
    have htell : peerTell (yielded s) false = enqueue (yielded s) p (cmdPacket s 0x10000000) false := by
      rw [← hcmd]
      exact partnerCmd_sends _ _ _ (hon.partnerPort.trans hport) ((hon.isActive p (by rw [hq]; rfl)).trans hact)
    rw [if_pos rfl, if_pos rfl, htell]
    refine ⟨portsOnly_enqueue .., ?_⟩
    rw [enqueue, portOf_modPort_same, hq]
    rfl

theorem yieldDrop_due (s : State) (y : BitVec 40) (ha : s.sys.pair.active = true) (hy : s.sys.pair.yieldTk = some y)
    (hd : y < s.tmk.tick ∨ (y = s.tmk.tick ∧ periodLt s ≤ phaseOf s + 100)) : yieldDrop s = flag (intlDrop s) pairStat 1 := by
  have hc : (decide (y < s.tmk.tick) || (y == s.tmk.tick && decide (periodLt s ≤ phaseOf s + 100))) = true := by
    simpa using hd
  simp only [yieldDrop, hy, ha, hc]
  rfl

theorem yieldDrop_waits (s : State) (h : s.sys.pair.yieldTk = none ∨ s.sys.pair.active = false ∨
    ∀ y, s.sys.pair.yieldTk = some y → s.tmk.tick ≤ y ∧ (y = s.tmk.tick → phaseOf s + 100 < periodLt s)) : yieldDrop s = s := by
  unfold yieldDrop
  split
  next y hy =>
    refine if_neg ?_
    rcases h with e | e | e
    · rw [e] at hy; cases hy
    · simp [e]
    · obtain ⟨hle, hlt⟩ := e y hy
      simpa [BitVec.not_lt.mpr hle] using fun _ => hlt
  next => rfl

/-- What a yield at period - 200 ns leaves (R428). -/
theorem yieldDrop_effect (s : State) (p : Port) (y : BitVec 40) (hp : paired s = true) (ha : s.sys.pair.active = true)
    (hy : s.sys.pair.yieldTk = some y) (hd : y < s.tmk.tick ∨ (y = s.tmk.tick ∧ periodLt s ≤ phaseOf s + 100))
    (hport : partnerPort s = some p.val) (hact : isActive s p = true) (hfresh : s.sys.discLt ≠ some (now s)) :
    let t := yieldDrop s
    (t.sys.pair.intlOut, t.sys.pair.active, t.sys.pair.synced, t.sys.pair.yieldTk) = (false, false, false, none) ∧ modeOf t = modeOf s ∧
      rf t (sysR 0x010) 31 8 = (rf s (sysR 0x010) 31 8 + 1) % 2 ^ 24 ∧ rf t (sysR 0x010) 3 0 = 4 ∧ rb t (sysR 0x054) 0 = true ∧
      (portOf t p).q2 = (if s.sys.pair.synced then [cmdPacket s 0x10000000] else []) ∧
      ((portOf t p).q1, (portOf t p).q3d, (portOf t p).q3m, t.trr.reqs, t.stp.xq) = ([], [], [], [], []) ∧ t.mem = s.mem := by
  obtain ⟨-, hen⟩ := (paired_iff s).mp hp
  obtain ⟨⟨l, hl⟩, hq⟩ := intlDrop_ports s p ha hen hport hact
  obtain ⟨hreqs, hxq⟩ := yielded_queues s
  obtain ⟨hepoch, hcause⟩ := yielded_epoch s hfresh
  have hmode := intlDrop_mode s
  have hmem := yieldDrop_mem s
  have hpair : (intlDrop s).sys.pair = (yielded s).sys.pair := by rw [hl]
  have hreg : reg (flag (intlDrop s) pairStat 1) (sysR 0x010) = reg (yielded s) (sysR 0x010) := by
    rw [reg_flag_other _ _ _ _ (by decide), hl]
    rfl
  have htrr : (intlDrop s).trr.reqs = [] := by rw [hl]; exact hreqs
  have hstp : (intlDrop s).stp.xq = [] := by rw [hl]; exact hxq
  dsimp only
  rw [yieldDrop_due s y ha hy hd] at hmem ⊢
  simp only [rf, hreg, flag_sys, flag_trr, flag_stp, portOf_flag, modeOf_flag, hpair, yielded_pair, hq, htrr, hstp]
  refine ⟨trivial, hmode, hepoch, hcause, ?_, trivial, rfl, hmem⟩
  have hf := rb_flag (intlDrop s) pairStat 1 0 (by omega)
  rw [show Nat.testBit 1 0 = true from rfl, Bool.or_true] at hf
  exact hf

/-- Settles O57: each command does what its operation of the pair logic does, whose cases are above. -/
theorem pairedHubsYieldAndResync : Obligations.PairedHubsYieldAndResync := by
  refine ⟨mirrorsMatch_self, fun l k h => mirrorsMatch_counterparts h, fun o pk level last w ws p s hr hq => ?_⟩
  dsimp only
  simp only [← paired_iff]
  refine ⟨fun d hd hlt ha => ⟨fun hl hb => ?_, fun hb => ?_⟩, fun d hd hlt => ?_, fun hk hp ha hm => ?_, fun hk h => ?_, fun hk => ?_,
    fun hp ha => ⟨fun hv hsev hsyn hy => ?_, fun hv => ?_, fun hsyn hy => ?_, fun hsyn => ?_, ?_⟩,
    fun hp ha hy hport hact hfresh => ?_, fun h => ?_, fun hd => ?_, fun hp ha hm hn hport hact => ?_, fun hp => ?_, fun hp => ?_,
    fun hp ha hi hran hport hact hne hlen => ?_, fun h => ?_, fun hp ha hs hl => ?_⟩
  · -- re-check: contention
    subst hl
    refine answers_live rfl hr ?_
    rw [intlRecheck_contends s d hd hlt ha hb]
    exact contended_reports s hq
  · -- re-check: passed
    exact answers_live rfl hr (intlRecheck_passes s level d hd hlt ha hb)
  · exact answers_live rfl hr (intlRecheck_early s level d hd hlt)
  · -- mirrored packets
    refine answers_live rfl hr ?_
    rw [if_pos hk, mirrorIn_keeps s pk hp ha hm]
    rfl
  · refine answers_live rfl hr ?_
    rw [if_pos hk, mirrorIn_erases s pk (by simpa using h)]
    rfl
  · exact answers_live rfl hr (if_neg (by simp [hk]))
  · -- YIELD_REQ
    exact answers_live (f := yieldReq) rfl hr ((yieldReq_confirmed s hp ha hv hsev).trans (yieldMark_marks s hp ha hsyn hy))
  · refine answers_live (f := yieldReq) rfl hr ?_
    rw [yieldReq_refused s hp ha hv, report_quiet _ _ _ _ hq]
    exact ⟨rfl, rfl, rfl⟩
  · -- RELINQUISH
    exact answers_live (f := relinquish) rfl hr ((relinquish_paired s hp).trans (yieldMark_marks s hp ha hsyn hy))
  · exact answers_live (f := relinquish) rfl hr ((relinquish_paired s hp).trans (yieldMark_unsynced s hsyn))
  · -- SYNC_REQ at the active part
    exact answers_live (f := syncReq) rfl hr (syncReq_active s hp ha)
  · -- the yield
    obtain ⟨y, hy, hd⟩ := hy
    exact answers_live rfl hr (yieldDrop_effect s p y hp ha hy hd hport hact hfresh)
  · exact answers_live rfl hr (yieldDrop_waits s h)
  · exact answers_live rfl hr (intlRecheck_none s level hd)
  · -- SYNC_REQ at a standby
    refine answers_live (f := syncReq) rfl hr ?_
    rw [syncReq_standby s p hp ha hm hn hport hact]
    exact syncAsked_effect s p
  · -- PEER_UPD
    refine answers_live rfl hr ?_
    rw [pairCmdWrite_peerUpd, peerUpd, if_pos hp]
    rfl
  · -- unpaired
    obtain ⟨hupd, hyield, hrel, hsync, himg⟩ := pairCommands_unpaired s (by simpa using hp) (bitOf w 27) ws last
    exact ⟨answers_live rfl hr ((pairCmdWrite_peerUpd s o w).trans hupd), answers_live (f := yieldReq) rfl hr hyield,
      answers_live (f := relinquish) rfl hr hrel, answers_live (f := syncReq) rfl hr hsync, answers_live rfl hr himg⟩
  · -- the image
    refine answers_live rfl hr ?_
    rw [imageSend_sends s p hp ha hi hran hport hact hlen]
    exact ⟨enqueue_queued (modPair s fun f => { f with imgTick := false }) p _, rfl, rfl⟩
  · exact answers_live rfl hr (imageSend_waits s h)
  · exact answers_live rfl hr (imageIn_keeps s ws last hp ha hs hl)

end Sys2Proof.Machine
end

section
/-! SUPPORT. Reads of the time registers: what the lowest word returns and what it latches (R41). -/

namespace Sys2Proof.Machine

open Sys2Proof

theorem tmkR_sub (o : Nat) : tmkR o - tmkR 0 = o := by simp [tmkR]

theorem toNat_ofNat_tmkR {o : Nat} (h : o < 0x10000) : (BitVec.ofNat 32 (tmkR o)).toNat = tmkR o := by
  rw [BitVec.toNat_ofNat, Nat.mod_eq_of_lt (by simp only [tmkR]; omega)]

theorem blockOf_tmkR {o : Nat} (h : o < 0x10000) : blockOf (tmkR o) = 1 := by simp only [blockOf, tmkR]; omega

/-- A TMK register is reached out of a block reset, but for one of a PT in a cell (R38). -/
theorem reachable_tmkR (s : State) {o : Nat} (h : o < 0x10000) (hb : kget none s.flt.rstBlk 1 = none) :
    reachable s (tmkR o) = !(isCell s && ptReg (tmkR o)) := by
  have hon : blockOn (roleOf s) 1 = true := by cases roleOf s <;> rfl
  simp [reachable, fenced, blockOf_tmkR h, hb, hon]

theorem ptReg_tmkR {o : Nat} (h : o < 0x10000) :
    ptReg (tmkR o) = ((decide (0x010 ≤ o) && decide (o < 0x01C)) || (decide (0x100 ≤ o) && decide (o < 0x200)) ||
      (decide (0x300 ≤ o) && decide (o < 0x340))) := by
  simp only [ptReg, tmkR_sub, blockOf_tmkR h, beq_self_eq_true, Bool.true_and]

/-- The lowest word of each PT is a register of its own kind (Table 1-1). -/
theorem ptReg_ofPt (n : Fin 3) : ptReg (tmkR (0x10C + 0x40 * n.val)) = true := by
  rw [ptReg_tmkR (by omega)]
  simp only [Bool.or_eq_true, Bool.and_eq_true, decide_eq_true_eq]
  omega

/-- Higher words are latched in the order given, and the lowest word is returned. -/
def latched (s : State) (l : List (Nat × Nat)) (low : Nat) : State :=
  { modTmk s fun t => { t with latch := l.foldl (fun m e => kput 0 m e.1 (wd e.2)) t.latch } with rdata := wd low }

theorem lowRead_tt (s : State) : lowRead s (tmkR 0x020) =
    latched s [(0x024, s.tmk.tick.toNat / 256)] (s.tmk.tick.toNat % 256 * 2 ^ 24 + s.tmk.phase.toNat) := by
  simp only [lowRead, tmkR_sub]
  rfl

theorem lowRead_lt (s : State) : lowRead s (tmkR 0x030) = latched s [(0x034, now s / 2 ^ 32)] (now s) := by
  simp only [lowRead, tmkR_sub]
  rfl

theorem lowRead_pt (s : State) (n : Fin 3) : lowRead s (tmkR (0x10C + 0x40 * n.val)) =
    latched s [(0x108 + 0x40 * n.val, ptNs (ptOf s n)), (0x104 + 0x40 * n.val, ptSec (ptOf s n)),
      (0x100 + 0x40 * n.val, ptSec (ptOf s n) / 2 ^ 32)] (ptSub (ptOf s n)) := by
  simp only [lowRead, tmkR_sub]
  rw [if_neg (by omega), if_neg (by omega), if_pos (by omega), show (0x10C + 0x40 * n.val - 0x10C) / 0x40 = n.val by omega,
    show 0x10C + 0x40 * n.val - 4 = 0x108 + 0x40 * n.val by omega, show 0x10C + 0x40 * n.val - 8 = 0x104 + 0x40 * n.val by omega,
    show 0x10C + 0x40 * n.val - 12 = 0x100 + 0x40 * n.val by omega]
  rfl

theorem latched_frame (s : State) (l : List (Nat × Nat)) (low : Nat) :
    { latched s l low with tmk := { (latched s l low).tmk with latch := s.tmk.latch }, rdata := s.rdata } = s := rfl

/-- The tick number's low byte above the phase, as TMK_TT_LO shows them (Table 2-2). -/
theorem tickLow_append (k : BitVec 40) (ph : BitVec 15) : wd (k.toNat % 256 * 2 ^ 24 + ph.toNat) = (k.setWidth 8) ++ (ph.setWidth 24) := by
  apply BitVec.eq_of_toNat_eq
  have hp : ph.toNat < 2 ^ 24 := Nat.lt_of_lt_of_le ph.isLt (by decide)
  rw [BitVec.toNat_append, BitVec.toNat_setWidth, BitVec.toNat_setWidth, Nat.mod_eq_of_lt hp, wd, BitVec.toNat_ofNat,
    ← Nat.shiftLeft_add_eq_or_of_lt hp, Nat.shiftLeft_eq, Nat.mod_eq_of_lt (by omega)]

/-- The higher bits of a number, as a word. -/
theorem wd_div_two_pow {w : Nat} (x : BitVec w) (k : Nat) : wd (x.toNat / 2 ^ k) = (x >>> k).setWidth 32 := by
  apply BitVec.eq_of_toNat_eq
  rw [wd, BitVec.toNat_ofNat, BitVec.toNat_setWidth, BitVec.toNat_ushiftRight, Nat.shiftRight_eq_div_pow]

/-- A read of a low time word out of reset: 0 where the register is not reached. -/
theorem timeLowWordRead_answers (o : Origin) (s : State) {x : Nat} {P : State → Prop} (h : x < 0x10000) (hr : s.sys.inReset = false)
    (hp : P (if reachable s (tmkR x) then lowRead s (tmkR x) else { s with rdata := 0 })) :
    Answers (.timeLowWordRead o (BitVec.ofNat 32 (tmkR x))) s P := by
  refine answers_live rfl hr ?_
  rw [toNat_ofNat_tmkR h]
  exact hp

/-- Settles O23: each read puts the words it latches into the latch and nowhere else. -/
theorem timeReadsLatchHigherWords : Obligations.TimeReadsLatchHigherWords := by
  intro o n s hr hb
  refine ⟨timeLowWordRead_answers o s (by decide) hr ?_, timeLowWordRead_answers o s (by decide) hr ?_,
    fun hc => timeLowWordRead_answers o s (by omega) hr ?_, fun hc => timeLowWordRead_answers o s (by omega) hr ?_⟩
  · -- TMK_TT_LO
    rw [reachable_tmkR s (by decide) hb, ptReg_tmkR (by decide), if_pos (by simp), lowRead_tt]
    exact ⟨latched_frame .., (kget_kput_same ..).trans (wd_div_two_pow s.tmk.tick 8), tickLow_append _ _⟩
  · -- TMK_LT_LO
    rw [reachable_tmkR s (by decide) hb, ptReg_tmkR (by decide), if_pos (by simp), lowRead_lt]
    exact ⟨latched_frame .., (kget_kput_same ..).trans (wd_div_two_pow s.lt 32), rfl⟩
  · -- a cell has no PT
    rw [reachable_tmkR s (by omega) hb, ptReg_ofPt, hc]
    exact ⟨rfl, rfl⟩
  · -- PT n
    rw [reachable_tmkR s (by omega) hb, hc, Bool.false_and, Bool.not_false, if_pos rfl, lowRead_pt]
    refine ⟨latched_frame .., rfl, ?_, ?_, kget_kput_same ..⟩
    · simp only [latched, modTmk_tmk, List.foldl_cons, List.foldl_nil, kget_kput]
      rw [if_neg (by omega), if_neg (by omega), if_pos trivial]
    · simp only [latched, modTmk_tmk, List.foldl_cons, List.foldl_nil, kget_kput]
      rw [if_neg (by omega), if_pos trivial]

end Sys2Proof.Machine
end

section
/-! SUPPORT. Hop delays: the exchanges of a port, their mean, and REMEASURE (R60, R61). -/

namespace Sys2Proof.Machine

open Sys2Proof

/-- The result of a timing exchange, in units of 1/2 ps, with the port's asymmetry (R60). -/
def hopResult (s : State) (p t1 t2 t3 t4 : Nat) : Int :=
  ((t4 : Int) - t1) - ((t3 : Int) - t2) + (reg s (tmkR (0x060 + 4 * p))).toInt

/-- The mean of 64 halves, rounded. -/
def hopMean (l : List Int) : Int := rdivAway (l.foldl (· + ·) 0) 128

/-- The port with one more exchange. -/
def hopAdd (s : State) (p : Nat) (r : Int) : State := modPort s p fun t => { t with hop := (portOf s p).hop ++ [r] }

/-- The port with its mean. -/
def hopDone (s : State) (p : Nat) (r : Int) : State :=
  modPort (hopAdd s p r) p fun t => { t with hopDelay := hopMean ((portOf s p).hop ++ [r]) }

theorem exchange_adds (s : State) (p t1 t2 t3 t4 : Nat) (hs : (portOf s p).stage = .train ∨ (portOf s p).stage = .active)
    (hl : (portOf s p).hop.length < 63) : exchange s p t1 t2 t3 t4 = hopAdd s p (hopResult s p t1 t2 t3 t4) := by
  have hopen : (!((portOf s p).stage == .train || (portOf s p).stage == .active) || decide (64 ≤ (portOf s p).hop.length)) = false := by
    rcases hs with h | h <;> simp [h] <;> omega
  simp only [exchange, hopen, List.length_append, List.length_singleton]
  rw [if_neg (by decide), if_pos (by omega)]
  rfl

theorem exchange_ends (s : State) (p t1 t2 t3 t4 : Nat) (hs : (portOf s p).stage = .train ∨ (portOf s p).stage = .active)
    (hl : (portOf s p).hop.length = 63) :
    exchange s p t1 t2 t3 t4 =
      let u := hopDone s p (hopResult s p t1 t2 t3 t4)
      if primPort s = some p ∨ secPort s = some p then
        daccSet u p (Int.toNat ((kget 0 s.tmk.dout p : Nat) + hopMean ((portOf s p).hop ++ [hopResult s p t1 t2 t3 t4]))) else u := by
  have hopen : (!((portOf s p).stage == .train || (portOf s p).stage == .active) || decide (64 ≤ (portOf s p).hop.length)) = false := by
    rcases hs with h | h <;> simp [h, hl]
  unfold exchange
  dsimp only
  rw [hopen, if_neg Bool.false_ne_true, if_neg (by simp [hl])]
  rfl

theorem portOf_hopAdd (s : State) (p : Nat) (r : Int) (q : Nat) :
    portOf (hopAdd s p r) q = if q = p then { portOf s p with hop := (portOf s p).hop ++ [r] } else portOf s q := portOf_modPort ..

theorem portOf_hopDone (s : State) (p : Nat) (r : Int) (q : Nat) :
    portOf (hopDone s p r) q = if q = p then { portOf (hopAdd s p r) p with hopDelay := hopMean ((portOf s p).hop ++ [r]) } else portOf s q := by
  rw [hopDone, portOf_modPort]
  split
  · rfl
  next h => rw [portOf_hopAdd, if_neg h]

theorem daccSet_ports (s : State) (p d : Nat) : portOf (daccSet s p d) = portOf s ∧ { daccSet s p d with tmk := s.tmk } = s := by
  unfold daccSet
  split <;> exact ⟨rfl, rfl⟩

/-- Before the first tick a new D_acc stands at once. -/
theorem daccSet_first (s : State) (p d : Nat) (h : s.tmk.ticked = false) : kget 0 (daccSet s p d).tmk.daccPort p = d := by
  rw [daccSet, h, if_neg Bool.false_ne_true]
  exact kget_kput_same ..

theorem exchange_mean (s : State) (p t1 t2 t3 t4 : Nat) (hs : (portOf s p).stage = .train ∨ (portOf s p).stage = .active)
    (hl : (portOf s p).hop.length = 63) :
    let d := hopMean ((portOf s p).hop ++ [hopResult s p t1 t2 t3 t4])
    let t := exchange s p t1 t2 t3 t4
    (portOf t p).hopDelay = d ∧ (∀ q, q ≠ p → portOf t q = portOf s q) ∧
      (s.tmk.ticked = false → primPort s = some p → kget 0 t.tmk.daccPort p = ((kget 0 s.tmk.dout p : Nat) + d).toNat) ∧
      { t with ports := s.ports, tmk := s.tmk } = s := by
  have hd := portOf_hopDone s p (hopResult s p t1 t2 t3 t4)
  have hself := hd p
  rw [if_pos rfl] at hself
  dsimp only
  rw [exchange_ends s p t1 t2 t3 t4 hs hl]
  dsimp only
  split
  · next =>
    obtain ⟨hports, hframe⟩ := daccSet_ports (hopDone s p (hopResult s p t1 t2 t3 t4)) p
      (Int.toNat ((kget 0 s.tmk.dout p : Nat) + hopMean ((portOf s p).hop ++ [hopResult s p t1 t2 t3 t4])))
    refine ⟨by rw [hports, hself], fun q hq => by rw [hports, hd, if_neg hq], fun ht _ => daccSet_first _ _ _ ht, ?_⟩
    exact congrArg (fun t : State => { t with ports := s.ports, tmk := s.tmk }) hframe
  · next h => exact ⟨by rw [hself], fun q hq => by rw [hd, if_neg hq], fun _ hp => absurd (.inl hp) h, rfl⟩

/-! Directions and ACTIVE ports stand where the registers of the lanes and of the hub do. -/

/-- From s to t the directions of the ports and their stages stand. -/
structure SameLinks (s t : State) : Prop where
  dir : ∀ p, dirOf t p = dirOf s p
  stage : ∀ p, (portOf t p).stage = (portOf s p).stage

theorem SameLinks.trans {s t u : State} (a : SameLinks s t) (b : SameLinks t u) : SameLinks s u :=
  ⟨fun p => (b.dir p).trans (a.dir p), fun p => (b.stage p).trans (a.stage p)⟩

theorem SameLinks.isActive {s t : State} (h : SameLinks s t) (p : Nat) : isActive t p = isActive s p := by
  simp only [Machine.isActive, h.dir, h.stage]

theorem SameLinks.upPorts {s t : State} (h : SameLinks s t) : upPorts t = upPorts s := by simp only [Machine.upPorts, h.dir]

theorem SameLinks.portsOf {s t : State} (h : SameLinks s t) (d : Nat) : portsOf t d = portsOf s d := by simp only [Machine.portsOf, h.dir]

theorem SameLinks.activeDowns {s t : State} (h : SameLinks s t) : activeDowns t = activeDowns s := by
  have ha : Machine.isActive t = Machine.isActive s := funext h.isActive
  simp only [Machine.activeDowns, downPorts, h.portsOf, ha]

theorem dirOf_of_regs {s t : State} (h : ∀ a, 0x40020000 ≤ a → reg t a = reg s a) (p : Nat) : dirOf t p = dirOf s p := by
  have hf : reg t (fltR 0x090) = reg s (fltR 0x090) := h _ (by decide)
  have ht : rf t (trlR (0x100 + 0x40 * p)) 2 0 = rf s (trlR (0x100 + 0x40 * p)) 2 0 := by
    rw [rf, rf, h _ (by simp only [trlR]; omega)]
  unfold dirOf
  rw [hf, ht]

theorem sameLinks_setReg (s : State) {a : Nat} (v : Word) (h : a < 0x40020000) : SameLinks s (setReg s a v) :=
  ⟨dirOf_of_regs fun x hx => reg_setReg_other s a v x (by omega), fun _ => rfl⟩

/-! A write of TMK_CTRL with a bit of its own. -/

theorem rowOf_tmkCtrl : rowOf (tmkR 0x000) = some (reg1 0x000 0 [(4, 3, .wo), (2, 2, .w1s), (1, 1, .rw)]) := by decide

theorem bitOf_tmkCtrlBit (s : State) (i j : Nat) (hj : j < 32) :
    bitOf (tmkCtrlBit s i) j = (decide (j = i) || (decide (j = 1) && rb s (tmkR 0x000) 1)) := by
  rw [tmkCtrlBit, bitOf_setBit _ _ _ _ hj, bitOf_setBit _ _ _ _ hj]
  by_cases h : j = i
  · simp [h]
  · by_cases h1 : j = 1 <;> simp [h, h1, bitOf_eq]

/-- A row whose fields the hardware neither sets nor locks takes a word whatever else the cycle brings. -/
def RegRow.soft (r : RegRow) : Bool := r.modes.isEmpty && r.fs.all fun f => f.2.2 != .w1c && f.2.2 != .rwl

/-- Its fields under a write. -/
def softTake (cur : Word) (r : RegRow) (val : Word) : Word := r.fs.foldl (fieldWrite val 0 false) cur

theorem foldl_fieldWrite_soft (val hw : Word) (unl : Bool) (l : List (Nat × Nat × Acc)) (cur : Word)
    (h : l.all (fun f => f.2.2 != .w1c && f.2.2 != .rwl) = true) :
    l.foldl (fieldWrite val hw unl) cur = l.foldl (fieldWrite val 0 false) cur := by
  induction l generalizing cur with
  | nil => rfl
  | cons f l ih =>
    obtain ⟨hi, lo, a⟩ := f
    simp only [List.all_cons, Bool.and_eq_true] at h
    obtain ⟨⟨h1, h2⟩, hl⟩ := h
    rw [List.foldl_cons, List.foldl_cons, ih _ hl]
    cases a with
    | w1c => exact absurd h1 (by decide)
    | rwl => exact absurd h2 (by decide)
    | _ => rfl

theorem foldl_rwlMask_soft (l : List (Nat × Nat × Acc)) (m : Word) (h : l.all (fun f => f.2.2 != .w1c && f.2.2 != .rwl) = true) :
    l.foldl (fun m f => if f.2.2 == .rwl then m ||| maskOf f.1 f.2.1 else m) m = m := by
  induction l generalizing m with
  | nil => rfl
  | cons f l ih =>
    simp only [List.all_cons, Bool.and_eq_true, bne_iff_ne] at h
    obtain ⟨⟨-, h2⟩, hl⟩ := h
    rw [List.foldl_cons, if_neg (by simpa using h2), ih _ hl]

/-- A write of such a row: the register takes its fields, and bits that software sets are marked (R13). -/
theorem genWrite_soft (s : State) (o : Origin) (a : Nat) (val : Word) (r : RegRow) (hrow : rowOf a = some r) (hs : r.soft = true) :
    genWrite s o a val = whenB (val &&& accMask r (· == .w1s) != 0) (fun t => { t with swSet := (a, val &&& accMask r (· == .w1s)) :: t.swSet })
      (setReg s a (softTake (reg s a) r val)) := by
  simp only [RegRow.soft, Bool.and_eq_true, List.isEmpty_iff] at hs
  obtain ⟨hmode, hfs⟩ := hs
  have hhas : (!(0 != (0 : Word))) = true := rfl
  rw [genWrite_of_row s o a val r hrow, regWrite, if_neg (by simp [hmode])]
  dsimp only
  rw [foldl_fieldWrite_soft _ _ _ _ _ hfs, show accMask r (· == .rwl) = 0 from foldl_rwlMask_soft _ _ hfs, hhas, if_pos rfl]
  rfl

/-- One that software only writes: the register alone changes. -/
theorem genWrite_soft_only (s : State) (o : Origin) (a : Nat) (val : Word) (r : RegRow) (hrow : rowOf a = some r) (hs : r.soft = true)
    (hw : val &&& accMask r (· == .w1s) = 0) : genWrite s o a val = setReg s a (softTake (reg s a) r val) := by
  rw [genWrite_soft s o a val r hrow hs, hw]
  rfl

def tmkCtrlRow : RegRow := reg1 0x000 0 [(4, 3, .wo), (2, 2, .w1s), (1, 1, .rw)]

theorem tmkCtrl_w1s (val : Word) (h : bitOf val 2 = false) : val &&& accMask tmkCtrlRow (· == .w1s) = 0 := by
  have hm : accMask tmkCtrlRow (· == .w1s) = BitVec.ofNat 32 (2 ^ 2) := by decide
  rw [hm]
  apply BitVec.eq_of_getLsbD_eq
  intro i hi
  rw [BitVec.getLsbD_and, getLsbD_pow]
  by_cases e : 2 = i
  · subst e; rw [← bitOf_eq, h]; rfl
  · simp [e]

/-- PT0_VALID takes its bit. -/
theorem tmkCtrl_valid (cur val : Word) : bitOf (softTake cur tmkCtrlRow val) 1 = bitOf val 1 := by
  simp only [softTake, tmkCtrlRow, reg1, List.foldl_cons, List.foldl_nil, fieldWrite, bitOf_eq, BitVec.getLsbD_or, BitVec.getLsbD_and,
    BitVec.getLsbD_not, getLsbD_maskOf]
  simp

/-- A write of TMK_CTRL without COUPLE. -/
theorem tmkCtrlWrite_plain (s : State) (o : Origin) (val : Word) (h : bitOf val 2 = false) :
    tmkCtrlWrite s o val =
      let u := setReg s (tmkR 0x000) (softTake (reg s (tmkR 0x000)) tmkCtrlRow val)
      let u := if bitOf val 3 && roleOf s == .station && preRun s then modTmk u fun t => { t with coupled := false, slewing := false } else u
      if bitOf val 4 then remeasureAll u else u := by
  unfold tmkCtrlWrite
  rw [genWrite_soft_only s o _ val tmkCtrlRow rowOf_tmkCtrl (by decide) (tmkCtrl_w1s val h), h]
  rfl

/-! REMEASURE. -/

/-- A port forgets its exchanges. -/
def hopClear (s : State) (p : Nat) : State := if isActive s p then modPort s p fun t => { t with hop := [] } else s

theorem remeasureAll_eq (s : State) : remeasureAll s = (upPorts s).foldl hopClear s := rfl

theorem hopClear_frame (s : State) (p : Nat) : { hopClear s p with ports := s.ports } = s := by unfold hopClear; split <;> rfl

theorem isActive_hopClear (s : State) (p q : Nat) : isActive (hopClear s p) q = isActive s q := by
  unfold hopClear
  split
  · simp only [isActive, portOf_modPort]
    split
    next e => subst e; rfl
    next => rfl
  · rfl

theorem portOf_hopClear (s : State) (p q : Nat) :
    portOf (hopClear s p) q = if q = p ∧ isActive s p = true then { portOf s q with hop := [] } else portOf s q := by
  unfold hopClear
  by_cases ha : isActive s p = true
  · rw [if_pos ha, portOf_modPort]
    by_cases e : q = p
    · rw [if_pos e, if_pos ⟨e, ha⟩, e]
    · rw [if_neg e, if_neg (fun h => e h.1)]
  · rw [if_neg ha, if_neg (fun h => ha h.2)]

theorem portOf_foldl_hopClear (l : List Nat) (s : State) (q : Nat) :
    portOf (l.foldl hopClear s) q = if q ∈ l ∧ isActive s q = true then { portOf s q with hop := [] } else portOf s q := by
  induction l generalizing s with
  | nil => simp
  | cons p l ih =>
    rw [List.foldl_cons, ih, isActive_hopClear, portOf_hopClear]
    by_cases hq : q = p
    · subst hq
      by_cases ha : isActive s q = true <;> simp [ha]
    · simp [hq]

theorem remeasureAll_frame (s : State) : { remeasureAll s with ports := s.ports } = s := by
  have h : ∀ (l : List Nat) (u : State), { l.foldl hopClear u with ports := u.ports } = u := by
    intro l
    induction l with
    | nil => intro u; rfl
    | cons p l ih =>
      intro u
      exact (congrArg (fun v : State => { v with ports := u.ports }) (ih (hopClear u p))).trans (hopClear_frame u p)
  exact h _ s

/-- Settles O28: an exchange adds its result, the 64th gives the mean, and REMEASURE clears the exchanges of the ACTIVE up-ports. -/
theorem hopDelayIsMeasured : Obligations.HopDelayIsMeasured := by
  intro o p t1 t2 t3 t4 s hr
  refine ⟨fun hs hl => answers_live rfl hr ?_, fun hs hl => answers_live rfl hr (exchange_mean s p t1 t2 t3 t4 hs hl), answers_live rfl hr ?_⟩
  · -- an exchange
    rw [exchange_adds s p t1 t2 t3 t4 hs hl]
    have hp := portOf_hopAdd s p (hopResult s p t1 t2 t3 t4)
    exact ⟨by rw [hp, if_pos rfl]; rfl, by rw [hp, if_pos rfl], fun q hq => by rw [hp, if_neg hq], rfl⟩
  · -- REMEASURE
    have hbit : ∀ j, j < 32 → bitOf (tmkCtrlBit s 4) j = (decide (j = 4) || (decide (j = 1) && rb s (tmkR 0x000) 1)) :=
      fun j hj => bitOf_tmkCtrlBit s 4 j hj
    rw [tmkCtrlWrite_plain s o _ (hbit 2 (by omega)), hbit 3 (by omega), hbit 4 (by omega)]
    obtain ⟨w, hw⟩ : ∃ w, w = softTake (reg s (tmkR 0x000)) tmkCtrlRow (tmkCtrlBit s 4) := ⟨_, rfl⟩
    have hframe := remeasureAll_frame (setReg s (tmkR 0x000) w)
    have hother : ∀ x, x ≠ tmkR 0 → reg (setReg s (tmkR 0x000) w) x = reg s x := fun x hx => reg_setReg_other _ _ _ _ hx
    have hlinks : SameLinks s (setReg s (tmkR 0x000) w) := sameLinks_setReg s w (by decide)
    have hport : ∀ q, portOf (remeasureAll (setReg s (tmkR 0x000) w)) q =
        if q ∈ upPorts s ∧ isActive s q = true then { portOf s q with hop := [] } else portOf s q := fun q => by
      rw [remeasureAll_eq, portOf_foldl_hopClear, hlinks.upPorts, hlinks.isActive, portOf_setReg]
    rw [← hw]
    refine ⟨fun q => ?_, fun x hx => ?_, ?_⟩
    · show (portOf (remeasureAll (setReg s (tmkR 0x000) w)) q).hop = _ ∧ (portOf (remeasureAll (setReg s (tmkR 0x000) w)) q).hopDelay = _
      rw [hport q]
      split <;> exact ⟨rfl, rfl⟩
    · have e := congrArg (fun u : State => reg u x) hframe
      exact e.trans (hother x hx)
    · exact congrArg (fun u : State => { u with regs := s.regs }) hframe

end Sys2Proof.Machine
end

section
/-! SUPPORT. Tick symbols: what each port sends, and what their launch, receipt and forwarding leave as it was (R56, R57, R500, R503). -/

namespace Sys2Proof.Machine

open Sys2Proof

/-! The transmitter. -/

theorem symbolsOut_congr {s t : State} (h : ∀ p, (portOf t p).cayBusy = (portOf s p).cayBusy) (ps : List Nat) (no : BitVec 40) (dly : Nat)
    (at_ : Nat → Nat) : symbolsOut t ps no dly at_ = symbolsOut s ps no dly at_ := by
  simp only [symbolsOut, h]

/-- A symbol leaves one port, which is not idle. -/
def symbolSend (no : BitVec 40) (dly : Nat) (at_ : Nat → Nat) (s : State) (p : Nat) : State :=
  if h : p < 6 then
    send (modPort s p fun t => { t with quietFrom := now s })
      (.tick ⟨p, h⟩ (no.setWidth 6) (BitVec.ofNat 2 (min 3 (dly + symHeld (portOf s p).cayBusy (at_ p)))) (at_ p + 3200 * symHeld (portOf s p).cayBusy (at_ p)))
  else s

theorem tickSend_foldl (s : State) (ps : List Nat) (no : BitVec 40) (dly : Nat) (at_ : Nat → Nat) :
    tickSend s ps no dly at_ = ps.foldl (symbolSend no dly at_) s := by
  unfold tickSend
  simp only [BitVec.ofNat_toNat]
  rfl

theorem cayBusy_symbolSend (no : BitVec 40) (dly : Nat) (at_ : Nat → Nat) (s : State) (p q : Nat) :
    (portOf (symbolSend no dly at_ s p) q).cayBusy = (portOf s q).cayBusy := by
  unfold symbolSend
  split
  · show (portOf (modPort s p fun t => { t with quietFrom := now s }) q).cayBusy = _
    rw [portOf_modPort]
    split
    next e => rw [e]
    next => rfl
  · rfl

theorem symbolSend_eq (no : BitVec 40) (dly : Nat) (at_ : Nat → Nat) (s : State) (p : Nat) :
    symbolSend no dly at_ s p = { s with ports := (symbolSend no dly at_ s p).ports, sent := s.sent ++ symbolsOut s [p] no dly at_ } := by
  unfold symbolSend symbolsOut
  by_cases h : p < 6 <;> simp [h, send, modPort]

/-- Each port sends its symbol; nothing else changes. -/
theorem tickSend_eq (s : State) (ps : List Nat) (no : BitVec 40) (dly : Nat) (at_ : Nat → Nat) :
    tickSend s ps no dly at_ = { s with ports := (tickSend s ps no dly at_).ports, sent := s.sent ++ symbolsOut s ps no dly at_ } := by
  rw [tickSend_foldl]
  induction ps generalizing s with
  | nil => simp [symbolsOut]
  | cons p ps ih =>
    have hsplit : symbolsOut s (p :: ps) no dly at_ = symbolsOut s [p] no dly at_ ++ symbolsOut s ps no dly at_ := by
      rw [symbolsOut, ← List.singleton_append, List.filterMap_append]; rfl
    rw [List.foldl_cons, ih, symbolsOut_congr (cayBusy_symbolSend no dly at_ s p), symbolSend_eq, hsplit, List.append_assoc]

/-! TT_ALIGN. -/

/-- From s to t only ports and the aligned state change. -/
def AlignOnly (s t : State) : Prop := ∃ l a, t = { s with ports := l, tmk := { s.tmk with align := a } }

theorem alignSync_only (s : State) : AlignOnly s (alignSync s) := by
  have hsend : ∀ (l : List Nat) (u : State), PortsOnly u (l.foldl alignSend u) := by
    intro l
    induction l with
    | nil => exact portsOnly_refl
    | cons p l ih =>
      intro u
      obtain ⟨k, hk⟩ := ih (alignSend u p)
      exact ⟨k, hk⟩
  unfold alignSync
  dsimp only
  split
  · exact ⟨s.ports, s.tmk.align, rfl⟩
  · obtain ⟨k, hk⟩ := hsend (activeDowns s) (modTmk s fun t => { t with align := alignNow s })
    exact ⟨k, alignNow s, hk⟩

/-! Buffer space goes back. -/

theorem creditSend_portsOnly (s : State) (p c2 c3d c3m : Nat) : PortsOnly s (creditSend s p c2 c3d c3m) := by
  unfold creditSend
  split
  · exact portsOnly_enqueue ..
  · exact portsOnly_refl s

theorem creditBack_portsOnly (s : State) (p : Nat) (pk : Packet) : PortsOnly s (creditBack s p pk) := by
  unfold creditBack
  split
  · exact portsOnly_refl s
  split
  · exact creditSend_portsOnly ..
  split
  · exact creditSend_portsOnly ..
  · exact creditSend_portsOnly ..

theorem stage_enqueue (s : State) (p : Nat) (pk : Packet) (d : Bool) (q : Nat) : (portOf (enqueue s p pk d) q).stage = (portOf s q).stage := by
  unfold enqueue
  rw [portOf_modPort]
  split
  next e =>
    subst e
    by_cases h1 : pk.cls = 1
    · rw [if_pos h1]
    by_cases h2 : pk.cls = 2
    · rw [if_neg h1, if_pos h2]
    · rw [if_neg h1, if_neg h2]
      cases d <;> rfl
  next => rfl

theorem sameLinks_enqueue (s : State) (p : Nat) (pk : Packet) (d : Bool) : SameLinks s (enqueue s p pk d) := ⟨fun _ => rfl, stage_enqueue s p pk d⟩

theorem sameLinks_creditSend (s : State) (p c2 c3d c3m : Nat) : SameLinks s (creditSend s p c2 c3d c3m) := by
  unfold creditSend
  split
  · exact sameLinks_enqueue ..
  · exact ⟨fun _ => rfl, fun _ => rfl⟩

theorem sameLinks_creditBack (s : State) (p : Nat) (pk : Packet) : SameLinks s (creditBack s p pk) := by
  unfold creditBack
  split
  · exact ⟨fun _ => rfl, fun _ => rfl⟩
  split
  · exact sameLinks_creditSend ..
  split
  · exact sameLinks_creditSend ..
  · exact sameLinks_creditSend ..

/-! Receipt. -/

/-- A symbol in time of the selected port is kept with its arrival and forwarded. -/
theorem symbolIn_kept (s : State) (p : Nat) (tt : BitVec 6) (dly : BitVec 2) (at_ : Nat) (hrole : roleOf s ≠ .station) (hsel : selPort s = some p)
    (hp : primPort s = some p ∨ secPort s = some p) (hlive : isLive s p = true) (hheld : s.tmk.held = true) (ht : s.tmk.ticked = true)
    (hno : (nextGrid s).setWidth 6 = tt) (hpast : s.tmk.tick.setWidth 6 ≠ tt) (htime : inTime s at_ = true) (hd : dly ≠ 3) :
    symbolIn s p tt.toNat dly.toNat at_ =
      alignSync (tickSend (modTmk s fun t => { t with sym := kput none t.sym p (some ⟨tt, dly, at_⟩), missRun := 0 })
        (activeDowns s) (tt.zeroExtend 40) dly.toNat fun q => at_ + fwdLat p q) := by
  have hfrom : ((primPort s == some p || secPort s == some p) && isLive s p && !(roleOf s == .station && !standbyStation s)) = true := by
    have hr : (roleOf s == .station) = false := by simpa using hrole
    rw [hlive, hr]
    simpa using hp
  have hnp : (s.tmk.tick.toNat % 64 == tt.toNat) = false := by
    have : s.tmk.tick.toNat % 64 ≠ tt.toNat := fun h => hpast (BitVec.eq_of_toNat_eq (by rw [BitVec.toNat_setWidth]; exact h))
    simpa using this
  have hng : (nextGrid s).toNat % 64 = tt.toNat := by rw [← hno, BitVec.toNat_setWidth]
  have hd3 : dly.toNat ≠ 3 := fun h => hd (BitVec.eq_of_toNat_eq h)
  unfold symbolIn
  dsimp only
  rw [hfrom, hheld]
  simp only [Bool.not_true, Bool.true_or, Bool.or_false, Bool.false_eq_true, if_false, ht, if_true, hnp, Bool.and_false, htime, Bool.not_false, Bool.and_true, hd3]
  rw [BitVec.ofNat_toNat, BitVec.ofNat_toNat, BitVec.ofNat_toNat, BitVec.setWidth_eq, BitVec.setWidth_eq]
  generalize hu : (modTmk s fun t => { t with sym := kput none t.sym p (some ⟨tt, dly, at_⟩), missRun := 0 }) = u
  have hgrid : nextGrid u = nextGrid s := by rw [← hu]; rfl
  have hselu : selPort u = selPort s := by rw [← hu]; rfl
  rw [hgrid, hng, decide_eq_true rfl, if_pos rfl, hselu, if_pos hsel, ← hu]
  rfl

/-- Settles O25: each operation is one update of the state, with the symbols that its ports send. -/
theorem tickSymbolsTravel : Obligations.TickSymbolsTravel := by
  intro p tt dly at_ pk s hr
  refine ⟨fun hg ht hl hn => answers_live rfl hr ?_, fun hrole hsel hp hlive hheld ht hno hpast htime hd => answers_live rfl hr ?_,
    fun q hin ht hps hsel harr => answers_live rfl hr ?_, fun ht harr hdown hidle => answers_live rfl hr ?_,
    fun htyp hok hact hsel => answers_live rfl hr ?_⟩
  · -- launch
    simp only [tickLaunch, hg, ht, hl, hn, Bool.not_false, decide_true, Bool.and_self, if_true]
    rw [tickSend_eq]
    exact ⟨rfl, congrArg (fun b => { s with tmk := { s.tmk with launched := b } }) hl.symm⟩
  · -- receipt
    rw [symbolIn_kept s p tt dly at_ hrole hsel hp hlive hheld ht hno hpast htime hd]
    obtain ⟨l, a, he⟩ := alignSync_only (tickSend (modTmk s fun t => { t with sym := kput none t.sym p (some ⟨tt, dly, at_⟩), missRun := 0 })
        (activeDowns s) (tt.zeroExtend 40) dly.toNat fun q => at_ + fwdLat p q)
    rw [he, tickSend_eq]
    exact ⟨kget_kput_same none s.tmk.sym p.val (some ⟨tt, dly, at_⟩), rfl, rfl, rfl, rfl⟩
  · -- the own symbol of a forwarded pass
    simp only [hin, ht, hps, harr, Bool.not_false, decide_true, Bool.and_self, if_true, hsel]
    rw [tickSend_eq]
    exact ⟨rfl, rfl, rfl⟩
  · -- idle wake
    simp only [ht, harr, decide_true, Bool.and_self, if_true, hdown, List.foldl_cons, List.foldl_nil, p.isLt, dite_true, Fin.eta, idleExit, hidle]
    refine ⟨?_, ?_, rfl, rfl⟩
    · exact congrArg PortSt.idleTx (portOf_modPort_same s p.val fun t => { t with idleTx := false, idleTill := now s + 80, quietFrom := now s + 80 })
    · exact congrArg PortSt.idleTill (portOf_modPort_same s p.val fun t => { t with idleTx := false, idleTill := now s + 80, quietFrom := now s + 80 })
  · -- ALIGN
    obtain ⟨k, hk⟩ := creditBack_portsOnly s p.val pk
    have hactive : isActive (creditBack s p.val pk) p.val = true := by rw [(sameLinks_creditBack s p.val pk).isActive, hact]
    have hselected : selPort (creditBack s p.val pk) = some p.val := by rw [hk, ← hsel]; rfl
    simp only [hact, htyp, hok, hactive, hselected, beq_self_eq_true, Bool.and_self, if_true]
    obtain ⟨l, a, he⟩ := alignSync_only (modTmk (creditBack s p.val pk) fun t => { t with path := bitOf (pk.payload.getD 0 0) 0 })
    rw [he, hk]
    exact ⟨rfl, rfl, rfl, rfl⟩

end Sys2Proof.Machine
end

section
/-! SUPPORT. Announced periods and renumberings: the packets that announce them and the boundaries where they take effect (R44 to R54). -/

namespace Sys2Proof.Machine

open Sys2Proof

/-! Links stand where registers of other blocks change. -/

theorem SameLinks.refl (s : State) : SameLinks s s := ⟨fun _ => rfl, fun _ => rfl⟩

theorem dirOf_of_role_bits {s t : State} (hf : reg t (fltR 0x090) = reg s (fltR 0x090))
    (ht : ∀ p, rf t (trlR (0x100 + 0x40 * p)) 2 0 = rf s (trlR (0x100 + 0x40 * p)) 2 0) (p : Nat) : dirOf t p = dirOf s p := by
  unfold dirOf
  rw [hf, ht p]

theorem sameLinks_setReg_apart (s : State) {a : Nat} (v : Word) (hf : a ≠ fltR 0x090) (ht : ∀ p, a ≠ trlR (0x100 + 0x40 * p)) :
    SameLinks s (setReg s a v) :=
  ⟨dirOf_of_role_bits (reg_setReg_other s a v _ hf.symm) fun p => by rw [rf, rf, reg_setReg_other s a v _ (ht p).symm], fun _ => rfl⟩

theorem fld_low_of_clear31 (w m : Word) : fld (w &&& ~~~(wd 0x80000000 &&& m)) 2 0 = fld w 2 0 := by
  refine Nat.eq_of_testBit_eq fun i => ?_
  rw [testBit_fld, testBit_fld, BitVec.getLsbD_and, BitVec.getLsbD_not, BitVec.getLsbD_and, wd, show (0x80000000 : Nat) = 2 ^ 31 from rfl, getLsbD_pow]
  by_cases h : i < 3
  · have h31 : ¬ 31 = 0 + i := by omega
    rw [decide_eq_false h31, Bool.and_false, Bool.false_and, Bool.not_false, decide_eq_true (by omega : 0 + i < 32), Bool.and_self, Bool.and_true]
  · rw [decide_eq_false (by omega : ¬ i < 2 + 1 - 0), Bool.false_and, Bool.false_and]

theorem sameLinks_report (s : State) (src : Nat) (k : Kind) (a : Nat) : SameLinks s (report s src k a) := by
  unfold report whenB
  dsimp only
  split
  · refine ⟨dirOf_of_role_bits (reg_setReg_other s _ _ _ (by decide)) fun p => ?_, fun _ => rfl⟩
    show rf (unflag s (fltR 0x080) 0x80000000) _ 2 0 = _
    unfold unflag
    rw [rf, reg_setReg]
    split
    next e => rw [fld_low_of_clear31, ← e, rf]
    next => rfl
  · exact ⟨fun _ => rfl, fun _ => rfl⟩

theorem sameLinks_edgeCfgFault (s : State) : SameLinks s (edgeCfgFault s) := by
  have hother : ∀ p, edgeStat ≠ trlR (0x100 + 0x40 * p) := fun p => by simp only [edgeStat, rdlR, trlR]; omega
  have hset := sameLinks_setReg_apart s (a := edgeStat) (reg s edgeStat ||| wd 8) (by decide) hother
  have hflag : SameLinks s (flag s edgeStat 8) := ⟨hset.dir, hset.stage⟩
  exact hflag.trans (sameLinks_report _ 130 .edgeCfg edgeStat)

/-- A broken period check touches the fault hub, the edge status and SYS_QUAR. -/
theorem sameLinks_periodCheck (s : State) (n : Nat) : SameLinks s (periodCheck s n) := by
  have hkept : ∀ (b : Bool) (f : State → State) (u : State), (∀ v, SameLinks v (f v)) → SameLinks u (if b then u else f u) := by
    intro b f u h
    cases b
    · exact h u
    · exact SameLinks.refl u
  have hquar : ∀ u : State, SameLinks u (quarantine u 4) := fun u => sameLinks_setReg u _ (by decide)
  exact (((hkept _ edgeCfgFault s sameLinks_edgeCfgFault).trans (hkept _ (report · 218 .snsCfg (snsR 0x010)) _ fun u => sameLinks_report u ..)).trans
    (hkept _ (lpeCfgFault · (lpeR 0x000)) _ fun u => sameLinks_report u ..)).trans (hkept _ (quarantine · 4) _ hquar)

theorem report_tmk (s : State) (src : Nat) (k : Kind) (a : Nat) : (report s src k a).tmk = s.tmk := by
  unfold report whenB
  dsimp only
  split <;> rfl

theorem periodCheck_tmk (s : State) (n : Nat) : (periodCheck s n).tmk = s.tmk := by
  have hkept : ∀ (b : Bool) (f : State → State) (u : State), (∀ v, (f v).tmk = v.tmk) → (if b then u else f u).tmk = u.tmk := by
    intro b f u h
    cases b
    · exact h u
    · rfl
  exact (((hkept _ (quarantine · 4) _ fun _ => rfl).trans (hkept _ (lpeCfgFault · (lpeR 0x000)) _ fun u => report_tmk u ..)).trans
    (hkept _ (report · 218 .snsCfg (snsR 0x010)) _ fun u => report_tmk u ..)).trans (hkept _ edgeCfgFault s fun u => report_tmk (flag u edgeStat 8) ..)

/-! Announcements. -/

/-- The payload of a RENUMBER packet (R45, R49). -/
def annWords : Announce → List Word
  | .period u k => [wd u.toNat, wd (k.toNat / 2 ^ 32), wd k.toNat]
  | .renumber k g => [wd (2 ^ 24), wd (k.toNat / 2 ^ 32), wd k.toNat, wd (g.toNat / 2 ^ 32), wd g.toNat]

theorem annSend_eq (a : Announce) (s : State) (p : Nat) : annSend a s p = enqueue s p (ownPacket s 0 0 0x1A 2 0 (annWords a)) false := by
  cases a <;> rfl

theorem portOf_annSend (a : Announce) (s : State) (p q : Nat) :
    portOf (annSend a s p) q =
      if q = p then { portOf s p with q2 := (portOf s p).q2 ++ [ownPacket s 0 0 0x1A 2 0 (annWords a)] } else portOf s q := by
  rw [annSend_eq, enqueue, portOf_modPort]
  rfl

/-- From s to t no C2 packet has left its queue. -/
def Q2Grows (s t : State) : Prop := ∀ q, (portOf s q).q2 ⊆ (portOf t q).q2

theorem Q2Grows.refl (s : State) : Q2Grows s s := fun _ => List.Subset.refl _

theorem Q2Grows.trans {s t u : State} (a : Q2Grows s t) (b : Q2Grows t u) : Q2Grows s u := fun q => List.Subset.trans (a q) (b q)

theorem q2Grows_foldl {α : Type} (f : State → α → State) (h : ∀ s a, Q2Grows s (f s a)) (l : List α) (s : State) : Q2Grows s (l.foldl f s) := by
  induction l generalizing s with
  | nil => exact Q2Grows.refl s
  | cons a l ih => exact (h s a).trans (ih _)

theorem Q2Grows.waits {s t : State} (h : Q2Grows s t) {q typ : Nat} {pay : List Word} (hw : Waits2 s q typ pay) : Waits2 t q typ pay := by
  obtain ⟨k, hk, hkind⟩ := hw
  exact ⟨k, h q hk, hkind⟩

theorem q2Grows_modPort (s : State) (p : Nat) (f : PortSt → PortSt) (h : ∀ t, t.q2 ⊆ (f t).q2) : Q2Grows s (modPort s p f) := by
  intro q
  rw [portOf_modPort]
  split
  next e => subst e; exact h _
  next => exact List.Subset.refl _

theorem q2Grows_enqueue (s : State) (p : Nat) (pk : Packet) (d : Bool) : Q2Grows s (enqueue s p pk d) := by
  refine q2Grows_modPort s p _ fun t => ?_
  by_cases h1 : pk.cls = 1
  · rw [if_pos h1]; exact List.Subset.refl _
  by_cases h2 : pk.cls = 2
  · rw [if_neg h1, if_pos h2]; exact List.subset_append_left _ _
  · rw [if_neg h1, if_neg h2]; cases d <;> exact List.Subset.refl _

theorem q2Grows_annSend (a : Announce) (s : State) (p : Nat) : Q2Grows s (annSend a s p) := by
  rw [annSend_eq]; exact q2Grows_enqueue s p _ false

theorem q2Grows_alignSync (s : State) : Q2Grows s (alignSync s) := by
  have hsend : ∀ (u : State) (p : Nat), Q2Grows u (alignSend u p) := fun u p =>
    (q2Grows_modPort u p (fun t => { t with alignTick := 0 }) fun _ => List.Subset.refl _).trans (q2Grows_enqueue _ p _ false)
  unfold alignSync
  dsimp only
  split
  · exact Q2Grows.refl s
  · exact q2Grows_foldl alignSend hsend (activeDowns s) (modTmk s fun t => { t with align := alignNow s })

theorem annSend_waits (a : Announce) (s : State) (p : Nat) : Waits2 (annSend a s p) p 0x1A (annWords a) := by
  refine ⟨ownPacket s 0 0 0x1A 2 0 (annWords a), ?_, rfl, rfl, rfl⟩
  rw [portOf_annSend, if_pos rfl]
  exact List.mem_append_right _ (List.mem_singleton_self _)

theorem foldl_annSend_waits (a : Announce) (l : List Nat) (s : State) (q : Nat) (hq : q ∈ l) : Waits2 (l.foldl (annSend a) s) q 0x1A (annWords a) := by
  induction l generalizing s with
  | nil => exact absurd hq (List.not_mem_nil)
  | cons p l ih =>
    rw [List.foldl_cons]
    rcases List.mem_cons.mp hq with rfl | hq
    · exact (q2Grows_foldl (annSend a) (q2Grows_annSend a) l _).waits (annSend_waits a s q)
    · exact ih _ hq

theorem announce_waits (s : State) (a : Announce) : ∀ q ∈ activeDowns s, Waits2 (announce s a) q 0x1A (annWords a) :=
  fun q hq => foldl_annSend_waits a _ s q (List.mem_append_left _ hq)

theorem annSend_portsOnly (a : Announce) (s : State) (p : Nat) : PortsOnly s (annSend a s p) := by
  rw [annSend_eq]; exact portsOnly_enqueue ..

theorem PortsOnly.trans {s t u : State} (h : PortsOnly s t) (k : PortsOnly t u) : PortsOnly s u := by
  obtain ⟨l, rfl⟩ := h
  obtain ⟨l', rfl⟩ := k
  exact ⟨l', rfl⟩

theorem announce_portsOnly (s : State) (a : Announce) : PortsOnly s (announce s a) := by
  have h : ∀ (l : List Nat) (u : State), PortsOnly u (l.foldl (annSend a) u) := by
    intro l
    induction l with
    | nil => exact portsOnly_refl
    | cons p l ih => exact fun u => (annSend_portsOnly a u p).trans (ih _)
  exact h _ s

theorem wd_toNat {w : Nat} (x : BitVec w) : wd x.toNat = x.setWidth 32 := BitVec.ofNat_toNat 32 x

/-- The words of a number in a RENUMBER packet, highest first. -/
def numberWords (x : BitVec 40) : List Word := [(x >>> 32).setWidth 32, x.setWidth 32]

theorem annWords_period (u : BitVec 8) (k : BitVec 40) : annWords (.period u k) = [wd u.toNat] ++ numberWords k := by
  simp only [annWords, numberWords, wd_div_two_pow, wd_toNat]
  rfl

theorem annWords_renumber (k g : BitVec 40) : annWords (.renumber k g) = [0x01000000] ++ numberWords k ++ numberWords g := by
  simp only [annWords, numberWords, wd_div_two_pow, wd_toNat]
  rfl

theorem announce_tmk (s : State) (a : Announce) : (announce s a).tmk = s.tmk := by
  obtain ⟨l, h⟩ := announce_portsOnly s a
  rw [h]

/-! A write of TMK_TICK_PERIOD. -/

def periodRow : RegRow := reg1 0x008 0x14 [(7, 0, .rw)]

theorem rowOf_period : rowOf (tmkR 0x008) = some periodRow := by decide

theorem fld_low8 (w : Word) : fld w 7 0 = w.toNat % 256 := by simp [fld]

theorem ofNat8_toNat {n : Nat} (h : n < 256) : (BitVec.ofNat 8 n).toNat = n := by rw [BitVec.toNat_ofNat, Nat.mod_eq_of_lt h]

theorem periodWrite_announces (s : State) (o : Origin) (val : Word) (hrole : roleOf s = .station) (hc : s.tmk.coupled = false)
    (hann : s.tmk.annPer = none) (h8 : 8 ≤ val.toNat % 256) (h128 : val.toNat % 256 ≤ 128) (hsns : snsOkFor s (val.toNat % 256) = true)
    (hlpe : lpeOkFor s (val.toNat % 256) = true) :
    periodWrite s o val = announce (modTmk (setReg s (tmkR 0x008) (softTake (reg s (tmkR 0x008)) periodRow val)) fun t =>
      { t with annPer := some (val.toNat % 256, s.tmk.tick + 64) }) (.period (BitVec.ofNat 8 (val.toNat % 256)) (s.tmk.tick + 64)) := by
  have hok : ¬ (roleOf s ≠ .station ∨ s.tmk.coupled = true ∨ s.tmk.annPer.isSome = true ∨ val.toNat % 256 < 8 ∨ 128 < val.toNat % 256 ∨
      snsOkFor s (val.toNat % 256) = false) := by
    simp [hrole, hc, hann, hsns]; omega
  unfold periodWrite
  dsimp only
  rw [fld_low8, if_neg hok, hlpe, genWrite_soft_only s o _ val periodRow rowOf_period (by decide) (by simp [periodRow, reg1, accMask])]
  rfl

/-! TMK_CTRL: COUPLE. -/

/-- From s to t TMK_CTRL changes and software's marks of the cycle, nothing else. -/
def CtrlOnly (s t : State) : Prop := (∃ r w, t = { s with regs := r, swSet := w }) ∧ ∀ x, x ≠ tmkR 0 → reg t x = reg s x

theorem CtrlOnly.links {s t : State} (h : CtrlOnly s t) : SameLinks s t := by
  obtain ⟨⟨r, w, rfl⟩, hreg⟩ := h
  exact ⟨dirOf_of_regs fun x hx => hreg x (by simp only [tmkR]; omega), fun _ => rfl⟩

theorem CtrlOnly.generates {s t : State} (h : CtrlOnly s t) : generates t = generates s := by
  have hlinks := h.links
  obtain ⟨⟨r, w, rfl⟩, hreg⟩ := h
  have hpair : rb { s with regs := r, swSet := w } (sysR 0x050) 31 = rb s (sysR 0x050) 31 := by rw [rb, rb, hreg _ (by decide)]
  simp only [Machine.generates, standbyStation, primPort, partnerPort, hlinks.portsOf, hpair]
  rfl

theorem CtrlOnly.gridNear {s t : State} (h : CtrlOnly s t) (at_ : Nat) : gridNear t at_ = gridNear s at_ := by
  obtain ⟨⟨r, w, rfl⟩, hreg⟩ := h
  have hepoch : epochPs { s with regs := r, swSet := w } = epochPs s := by
    simp only [epochPs, rf, hreg (tmkR 0x010) (by decide), hreg (tmkR 0x014) (by decide), hreg (tmkR 0x018) (by decide)]
  simp only [Machine.gridNear, hepoch, pt0At, ptRate, hreg (tmkR (0x110 + 0x40 * 0)) (by decide)]
  rfl

theorem CtrlOnly.trans {s t u : State} (a : CtrlOnly s t) (b : CtrlOnly t u) : CtrlOnly s u := by
  obtain ⟨⟨r, w, rfl⟩, ha⟩ := a
  obtain ⟨⟨r', w', rfl⟩, hb⟩ := b
  exact ⟨⟨r', w', rfl⟩, fun x hx => (hb x hx).trans (ha x hx)⟩

theorem ctrlOnly_setReg (s : State) (v : Word) : CtrlOnly s (setReg s (tmkR 0) v) := ⟨⟨_, _, rfl⟩, fun x hx => reg_setReg_other s _ v x hx⟩

/-- A write of COUPLE leaves PT0_VALID and comes to the question whether the grid can be taken. -/
theorem tmkCtrlWrite_couple (s : State) (o : Origin) :
    ∃ u, CtrlOnly s u ∧ rb u (tmkR 0) 1 = rb s (tmkR 0) 1 ∧ tmkCtrlWrite s o (tmkCtrlBit s 2) = coupleTry u := by
  have hbit : ∀ j, j < 32 → bitOf (tmkCtrlBit s 2) j = (decide (j = 2) || (decide (j = 1) && rb s (tmkR 0x000) 1)) :=
    fun j hj => bitOf_tmkCtrlBit s 2 j hj
  have hrow := genWrite_soft s o (tmkR 0x000) (tmkCtrlBit s 2) tmkCtrlRow rowOf_tmkCtrl (by decide)
  refine ⟨genWrite s o (tmkR 0x000) (tmkCtrlBit s 2), ?_, ?_, ?_⟩
  · rw [hrow]
    refine (ctrlOnly_setReg s (softTake (reg s (tmkR 0x000)) tmkCtrlRow (tmkCtrlBit s 2))).trans ?_
    unfold whenB
    split
    · exact ⟨⟨_, _, rfl⟩, fun _ _ => rfl⟩
    · exact ⟨⟨_, _, rfl⟩, fun _ _ => rfl⟩
  · have hreg : reg (genWrite s o (tmkR 0x000) (tmkCtrlBit s 2)) (tmkR 0) = softTake (reg s (tmkR 0x000)) tmkCtrlRow (tmkCtrlBit s 2) := by
      refine Eq.trans ?_ (reg_setReg_same s (tmkR 0) _)
      rw [hrow]
      unfold whenB
      split <;> rfl
    rw [rb, hreg, tmkCtrl_valid, hbit 1 (by omega)]
    simp
  · unfold tmkCtrlWrite
    rw [hbit 2 (by omega), hbit 3 (by omega), hbit 4 (by omega)]
    simp

/-- The command ends as it is read. -/
def coupleTaken (s : State) : State := setReg s (tmkR 0x000) (setBit (reg s (tmkR 0x000)) 2 false)

theorem rb_coupleTaken (s : State) (j : Nat) (hj : j < 32) : rb (coupleTaken s) (tmkR 0) j = if j = 2 then false else rb s (tmkR 0) j := by
  rw [coupleTaken, rb, reg_setReg_same, bitOf_setBit _ _ _ _ hj]
  rfl

theorem coupleTry_eq (s : State) : coupleTry s =
    let u := coupleTaken s
    if generates u && rb u (tmkR 0x000) 1 && !u.tmk.coupled && preRun u then
      announce (modTmk u fun t => { t with annNum := some (u.tmk.tick + 64, gridNear u u.tmk.lastPs + 64) })
        (.renumber (u.tmk.tick + 64) (gridNear u u.tmk.lastPs + 64))
    else report u 33 .coupleRefused (tmkR 0x000) := rfl

theorem couple_announces (s : State) (o : Origin) (hg : generates s = true) (hv : rb s (tmkR 0) 1 = true) (hc : s.tmk.coupled = false)
    (hp : preRun s = true) :
    ∃ u, CtrlOnly s u ∧ rb u (tmkR 0) 2 = false ∧ tmkCtrlWrite s o (tmkCtrlBit s 2) =
      announce (modTmk u fun t => { t with annNum := some (s.tmk.tick + 64, gridNear s s.tmk.lastPs + 64) })
        (.renumber (s.tmk.tick + 64) (gridNear s s.tmk.lastPs + 64)) := by
  obtain ⟨u, hu, hone, hwrite⟩ := tmkCtrlWrite_couple s o
  have hct := hu.trans (ctrlOnly_setReg u (setBit (reg u (tmkR 0x000)) 2 false))
  have hgen : generates (coupleTaken u) = true := hct.generates.trans hg
  have hgrid : gridNear (coupleTaken u) s.tmk.lastPs = gridNear s s.tmk.lastPs := hct.gridNear _
  have hvalid : rb (coupleTaken u) (tmkR 0) 1 = true := by rw [rb_coupleTaken u 1 (by omega), if_neg (by omega), hone, hv]
  have htmk : (coupleTaken u).tmk = s.tmk := by obtain ⟨⟨r, w, h⟩, -⟩ := hu; rw [h]; rfl
  have hpre : preRun (coupleTaken u) = true := by obtain ⟨⟨r, w, h⟩, -⟩ := hu; rw [h, ← hp]; rfl
  refine ⟨coupleTaken u, hct, by rw [rb_coupleTaken u 2 (by omega), if_pos rfl], ?_⟩
  rw [hwrite, coupleTry_eq]
  simp only [hgen, hvalid, htmk, hc, hpre, hgrid, Bool.not_false, Bool.and_self, if_true]

theorem couple_refused (s : State) (o : Origin) (hv : rb s (tmkR 0) 1 = false) :
    ∃ u, CtrlOnly s u ∧ rb u (tmkR 0) 2 = false ∧ tmkCtrlWrite s o (tmkCtrlBit s 2) = report u 33 .coupleRefused (tmkR 0x000) := by
  obtain ⟨u, hu, hone, hwrite⟩ := tmkCtrlWrite_couple s o
  have hvalid : rb (coupleTaken u) (tmkR 0) 1 = false := by rw [rb_coupleTaken u 1 (by omega), if_neg (by omega), hone, hv]
  refine ⟨coupleTaken u, hu.trans (ctrlOnly_setReg u _), by rw [rb_coupleTaken u 2 (by omega), if_pos rfl], ?_⟩
  rw [hwrite, coupleTry_eq]
  simp only [hvalid, Bool.and_false, Bool.false_and, Bool.false_eq_true, if_false]

/-! A node that has lost the number. -/

theorem ticknoReq_portsOnly (s : State) : PortsOnly s (ticknoReq s) := by
  unfold ticknoReq
  split
  · split
    · exact portsOnly_enqueue ..
    · exact portsOnly_refl s
  · exact portsOnly_refl s

theorem numberLost_quiet (s : State) (h : notInjecting s = true) : PortsOnly
    (modTmk (modFlt s fun f => { f with bus := f.bus ++ [(now s, faultMsg 32 .ttNumber (tmkR 0x020) false)] }) fun t => { t with okNo := false })
    (numberLost s) := by
  unfold numberLost
  rw [report_quiet s _ _ _ h]
  exact ticknoReq_portsOnly _

/-! A renumbering cancels armed TT compares (R54). -/

/-- One unit. -/
def cmpCancelTT (s : State) (m : Nat) : State := if cmpState s m = 1 ∧ cmpBase s m = 1 then setCmp s m 0xB else s

theorem cmpState_setCmp_same (s : State) (m v : Nat) (hv : v < 16) : cmpState (setCmp s m v) m = v := rf_setRf_same s _ 19 16 v (by decide) hv

theorem reg_cmpCancelTT_other (s : State) (k a : Nat) (h : a ≠ cmpR k 0) : reg (cmpCancelTT s k) a = reg s a := by
  unfold cmpCancelTT
  split
  · exact reg_setRf_other _ _ _ _ _ _ h
  · rfl

theorem foldl_cmpCancelTT (l : List Nat) (s : State) (m : Nat) (hm : m ∈ l) (h1 : cmpState s m = 1) (hb : cmpBase s m = 1) :
    cmpState (l.foldl cmpCancelTT s) m = 0xB := by
  have hkeep : ∀ (l : List Nat) (u : State), cmpState u m = 0xB → cmpState (l.foldl cmpCancelTT u) m = 0xB := by
    intro l
    induction l with
    | nil => exact fun u h => h
    | cons k l ih =>
      intro u h
      refine ih _ ?_
      by_cases e : m = k
      · subst e; rwa [cmpCancelTT, if_neg (by omega)]
      · rw [← h, cmpState, rf, reg_cmpCancelTT_other u k _ (by simp only [cmpR, tmkR]; omega)]; rfl
  induction l generalizing s with
  | nil => exact absurd hm List.not_mem_nil
  | cons k l ih =>
    rw [List.foldl_cons]
    by_cases e : m = k
    · subst e
      exact hkeep l _ (by rw [cmpCancelTT, if_pos ⟨h1, hb⟩, cmpState_setCmp_same _ _ _ (by decide)])
    · have hother : reg (cmpCancelTT s k) (cmpR m 0) = reg s (cmpR m 0) := reg_cmpCancelTT_other s k _ (by simp only [cmpR, tmkR]; omega)
      have hl : m ∈ l := (List.mem_cons.mp hm).resolve_left e
      exact ih (cmpCancelTT s k) hl (by rw [← h1, cmpState, rf, hother]; rfl) (by rw [← hb, cmpBase, rf, hother]; rfl)

theorem cancelTT_eq (s : State) : cancelTT s = (List.range 8).foldl cmpCancelTT s := rfl

/-- An announcement that comes from the selected port is kept and passed on. -/
theorem announceIn_from (s : State) (p : Nat) (hact : isActive s p = true) (hsel : selPort s = some p) (hrole : roleOf s ≠ .station) :
    (isActive s p && selPort s == some p && (roleOf s != .station || standbyStation s)) = true := by
  simp [hact, hsel, hrole]

theorem announceIn_period (s : State) (p : Nat) (u : BitVec 8) (k : BitVec 40) (hact : isActive s p = true) (hsel : selPort s = some p)
    (hrole : roleOf s ≠ .station) (h8 : 8 ≤ u.toNat) (h128 : u.toNat ≤ 128) (hno : s.tmk.okNo = true) :
    announceIn s p (.period u k) = announce (periodCheck (modTmk s fun t => { t with annPer := some (u.toNat, k) }) u.toNat) (.period u k) := by
  unfold announceIn
  dsimp only
  rw [announceIn_from s p hact hsel hrole, if_neg (by simp), if_neg (by omega)]
  simp only [modTmk, hno, if_true]

theorem announceIn_renumber (s : State) (p : Nat) (k g : BitVec 40) (hact : isActive s p = true) (hsel : selPort s = some p)
    (hrole : roleOf s ≠ .station) (hkg : k ≠ g) :
    announceIn s p (.renumber k g) = announce (modTmk s fun t => { t with annNum := some (k, g) }) (.renumber k g) := by
  unfold announceIn
  dsimp only
  rw [announceIn_from s p hact hsel hrole, if_neg (by simp), if_neg hkg]

/-- Settles O26: what is announced waits on the ACTIVE DOWN ports, and the boundary applies what was announced. -/
theorem periodAndRenumbering : Obligations.PeriodAndRenumbering := by
  intro o val p u k g on s hr k64 words
  refine ⟨fun hrole hc hann h8 h128 hsns hlpe => answers_live rfl hr ?_, fun hg hv hc hp => answers_live rfl hr ?_,
    fun hv hi => answers_live rfl hr ?_, fun hrole hp => answers_live rfl hr ?_, answers_live rfl hr ?_,
    fun hact hsel hrole h8 h128 hno => answers_live rfl hr ?_, fun hact hsel hrole hkg => answers_live rfl hr ?_,
    fun n hann hn hk => answers_live rfl hr ?_, fun hann hg hi => answers_live rfl hr ?_, fun d hann hd => answers_live rfl hr ?_,
    fun hact hdir hheld hno hper hnum hp256 => answers_live rfl hr ?_⟩
  · -- a write of TMK_TICK_PERIOD
    rw [periodWrite_announces s o val hrole hc hann h8 h128 hsns hlpe]
    have hn : val.toNat % 256 < 256 := Nat.mod_lt _ (by decide)
    have hlinks := sameLinks_setReg s (softTake (reg s (tmkR 0x008)) periodRow val) (a := tmkR 0x008) (by decide)
    refine ⟨by rw [announce_tmk]; rfl, by rw [announce_tmk]; rfl, fun q hq => ?_⟩
    have hw := announce_waits (modTmk (setReg s (tmkR 0x008) (softTake (reg s (tmkR 0x008)) periodRow val)) fun t =>
      { t with annPer := some (val.toNat % 256, s.tmk.tick + 64) }) (.period (BitVec.ofNat 8 (val.toNat % 256)) (s.tmk.tick + 64)) q
      (hlinks.activeDowns.symm ▸ hq)
    rwa [annWords_period, ofNat8_toNat hn] at hw
  · -- COUPLE
    obtain ⟨v, hv, htwo, hwrite⟩ := couple_announces s o hg hv hc hp
    obtain ⟨l, hl⟩ := announce_portsOnly (modTmk v fun t => { t with annNum := some (s.tmk.tick + 64, gridNear s s.tmk.lastPs + 64) })
      (.renumber (s.tmk.tick + 64) (gridNear s s.tmk.lastPs + 64))
    have hw := announce_waits (modTmk v fun t => { t with annNum := some (s.tmk.tick + 64, gridNear s s.tmk.lastPs + 64) })
      (.renumber (s.tmk.tick + 64) (gridNear s s.tmk.lastPs + 64))
    rw [annWords_renumber] at hw
    rw [hwrite]
    refine ⟨by rw [hl]; rfl, by rw [hl]; exact htwo, ?_, fun q hq => hw q (hv.links.activeDowns.symm ▸ hq)⟩
    obtain ⟨⟨r, w, rfl⟩, -⟩ := hv
    rw [hl]
    rfl
  · -- COUPLE refused
    obtain ⟨v, hv, htwo, hwrite⟩ := couple_refused s o hv
    have hinj : notInjecting v = true := by rw [← hi, notInjecting, rb, hv.2 _ (by decide)]; rfl
    rw [hwrite, report_quiet v _ _ _ hinj]
    obtain ⟨⟨r, w, rfl⟩, -⟩ := hv
    exact ⟨rfl, rfl, htwo⟩
  · -- DECOUPLE
    have hbit : ∀ j, j < 32 → bitOf (tmkCtrlBit s 3) j = (decide (j = 3) || (decide (j = 1) && rb s (tmkR 0x000) 1)) :=
      fun j hj => bitOf_tmkCtrlBit s 3 j hj
    rw [tmkCtrlWrite_plain s o _ (hbit 2 (by omega)), hbit 3 (by omega), hbit 4 (by omega), hrole, hp]
    exact ⟨rfl, rfl⟩
  · -- PT0_VALID
    have hbit : ∀ j, j < 32 → bitOf (setBit 0 1 on) j = if j = 1 then on else false := fun j hj => by
      rw [bitOf_setBit _ _ _ _ hj, bitOf_eq (0 : Word)]; simp
    rw [tmkCtrlWrite_plain s o _ (hbit 2 (by omega)), hbit 3 (by omega), hbit 4 (by omega)]
    refine ⟨?_, fun x hx => reg_setReg_other s _ _ x hx, rfl⟩
    show rb (setReg s (tmkR 0x000) _) (tmkR 0) 1 = on
    rw [rb, reg_setReg_same, tmkCtrl_valid, hbit 1 (by omega), if_pos rfl]
  · -- a period is announced
    have hcredit := sameLinks_creditSend s p.val 1 0 0
    obtain ⟨l, hl⟩ := creditSend_portsOnly s p.val 1 0 0
    have hann := announceIn_period (creditSend s p.val 1 0 0) p.val u k (by rw [hcredit.isActive, hact]) (by rw [hl, ← hsel]; rfl)
      (by rw [hl]; exact hrole) h8 h128 (by rw [hl, ← hno])
    obtain ⟨v, hv⟩ : ∃ v, v = modTmk (creditSend s p.val 1 0 0) fun t => { t with annPer := some (u.toNat, k) } := ⟨_, rfl⟩
    rw [← hv] at hann
    have hlinks : SameLinks s (periodCheck v u.toNat) := by
      have hmod : SameLinks (creditSend s p.val 1 0 0) v := by rw [hv]; exact ⟨fun _ => rfl, fun _ => rfl⟩
      exact (hcredit.trans hmod).trans (sameLinks_periodCheck v u.toNat)
    obtain ⟨l', a', he⟩ := alignSync_only (announceIn (creditSend s p.val 1 0 0) p.val (.period u k))
    have htmk : (announceIn (creditSend s p.val 1 0 0) p.val (.period u k)).tmk = v.tmk := by rw [hann, announce_tmk, periodCheck_tmk]
    refine ⟨by rw [he, htmk, hv]; rfl, by rw [he, htmk, hv, hl]; rfl, fun q hq => ?_⟩
    have hw := announce_waits (periodCheck v u.toNat) (.period u k) q (hlinks.activeDowns.symm ▸ hq)
    rw [annWords_period, wd_toNat] at hw
    rw [hann]
    exact (q2Grows_alignSync _).waits hw
  · -- a renumbering is announced
    have hcredit := sameLinks_creditSend s p.val 1 0 0
    obtain ⟨l, hl⟩ := creditSend_portsOnly s p.val 1 0 0
    have hann := announceIn_renumber (creditSend s p.val 1 0 0) p.val k g (by rw [hcredit.isActive, hact]) (by rw [hl, ← hsel]; rfl)
      (by rw [hl]; exact hrole) hkg
    obtain ⟨v, hv⟩ : ∃ v, v = modTmk (creditSend s p.val 1 0 0) fun t => { t with annNum := some (k, g) } := ⟨_, rfl⟩
    rw [← hv] at hann
    have hlinks : SameLinks s v := by
      have hmod : SameLinks (creditSend s p.val 1 0 0) v := by rw [hv]; exact ⟨fun _ => rfl, fun _ => rfl⟩
      exact hcredit.trans hmod
    obtain ⟨l'', hp⟩ := announce_portsOnly v (.renumber k g)
    obtain ⟨l', a', he⟩ := alignSync_only (announce v (.renumber k g))
    rw [hann]
    refine ⟨by rw [he, hp, hv]; rfl, by rw [he, hp, hv, hl]; rfl, by rw [he, hp, hv, hl]; rfl, fun q hq => ?_⟩
    have hw := announce_waits v (.renumber k g) q (hlinks.activeDowns.symm ▸ hq)
    rw [annWords_renumber] at hw
    exact (q2Grows_alignSync _).waits hw
  · -- the announced period takes effect
    have hb : periodBoundary s = modTmk (setRf s (tmkR 0x008) 7 0 n) fun t => { t with period := n, annPer := none, nextPs := t.lastPs + n * 500000 } := by
      have hsome : (since s k).isNone = false := by simpa using hk
      unfold periodBoundary
      rw [hann]
      dsimp only
      rw [hsome, if_neg Bool.false_ne_true]
    obtain ⟨l, a, he⟩ := alignSync_only (periodBoundary s)
    rw [he, hb]
    exact ⟨rfl, rfl, rf_setRf_same s _ 7 0 n (by decide) hn, rfl, fun x hx => reg_setRf_other s _ _ _ _ x hx⟩
  · -- no announcement
    have hb : periodBoundary s = numberLost s := by
      unfold periodBoundary
      rw [hann]
      dsimp only
      rw [hg, if_neg Bool.false_ne_true]
    obtain ⟨l, a, he⟩ := alignSync_only (periodBoundary s)
    obtain ⟨l', hl⟩ := numberLost_quiet s hi
    rw [he, hb, hl]
    exact ⟨rfl, rfl, rfl⟩
  · -- the announced number takes effect
    have hb : renumberBoundary s = modTmk (cancelTT s) fun t =>
        { t with tick := g + BitVec.ofNat 40 d, annNum := none, okNo := true, coupled := if roleOf s = .station then true else t.coupled } := by
      unfold renumberBoundary
      rw [hann]
      dsimp only
      rw [hd]
    obtain ⟨l, a, he⟩ := alignSync_only (renumberBoundary s)
    rw [he, hb]
    refine ⟨rfl, rfl, rfl, fun hrole => if_pos hrole, fun m h1 h2 => ?_⟩
    exact foldl_cmpCancelTT (List.range 8) s m.val (List.mem_range.mpr m.isLt) h1 h2
  · -- a parent answers
    obtain ⟨l, hl⟩ := creditSend_portsOnly s p.val 1 0 0
    have hlinks := sameLinks_creditSend s p.val 1 0 0
    obtain ⟨v, hv⟩ : ∃ v, v = creditSend s p.val 1 0 0 := ⟨_, rfl⟩
    rw [← hv] at hl hlinks ⊢
    have htmk : v.tmk = s.tmk := by rw [hl]
    have hnext : nextNo v = nextNo s := by rw [nextNo, htmk]; rfl
    have hb : ticknoAnswer v p.val = annSend (.period (BitVec.ofNat 8 s.tmk.period) (nextNo s)) (annSend (.renumber (nextNo s) (nextNo s)) v p.val) p.val := by
      obtain ⟨l₁, h₁⟩ := (annSend_portsOnly (.renumber (nextNo s) (nextNo s)) v p.val).trans
        (annSend_portsOnly (.period (BitVec.ofNat 8 s.tmk.period) (nextNo s)) _ p.val)
      unfold ticknoAnswer
      simp only [hlinks.isActive, hact, hlinks.dir, hdir, htmk, hheld, hno, beq_self_eq_true, Bool.true_or, Bool.and_self, if_true, hnext, h₁, hper, hnum]
    have hw := annSend_waits (.renumber (nextNo s) (nextNo s)) v p.val
    have hw' := annSend_waits (.period (BitVec.ofNat 8 s.tmk.period) (nextNo s)) (annSend (.renumber (nextNo s) (nextNo s)) v p.val) p.val
    rw [annWords_renumber] at hw
    rw [annWords_period, ofNat8_toNat hp256] at hw'
    obtain ⟨l₁, h₁⟩ := (annSend_portsOnly (.renumber (nextNo s) (nextNo s)) v p.val).trans
      (annSend_portsOnly (.period (BitVec.ofNat 8 s.tmk.period) (nextNo s)) _ p.val)
    rw [hb]
    refine ⟨(q2Grows_annSend _ _ p.val).waits hw, hw', ?_⟩
    rw [h₁, hl]

end Sys2Proof.Machine
end

section
/-! SUPPORT. Compare units and launch slots: their registers, what arming decides and what a target that has come does (R69 to R76). -/

namespace Sys2Proof.Machine

open Sys2Proof

/-! Their register rows (Table 2-7). -/

def cmpCtrlRow : RegRow := regN 0x200 8 0x10 0 [(19, 16, .ro), (10, 8, .rw), (6, 4, .rw), (0, 0, .wo)]

theorem rowOf_cmpCtrl : ∀ m : Fin 8, rowOf (cmpR m 0) = some cmpCtrlRow := by decide
theorem rowOf_cmpLo : ∀ m : Fin 8, rowOf (cmpR m 8) = some (regN 0x208 8 0x10 0 (whole .rw)) := by decide
theorem rowOf_lchNs : ∀ j : Fin 4, rowOf (lchR j 8) = some (regN 0x308 4 0x10 0 (whole .rw)) := by decide

theorem softTake_whole (cur val : Word) (base n st rst : Nat) : softTake cur (regN base n st rst (whole .rw)) val = val := by
  have hall : maskOf 31 0 = BitVec.allOnes 32 := by decide
  simp only [softTake, regN, whole, List.foldl_cons, List.foldl_nil, fieldWrite, hall, BitVec.not_allOnes, BitVec.and_zero, BitVec.zero_or,
    BitVec.and_allOnes]

/-- A register without fields of its own takes the word. -/
theorem genWrite_whole (s : State) (o : Origin) (a : Nat) (val : Word) {base n st rst : Nat} (h : rowOf a = some (regN base n st rst (whole .rw))) :
    genWrite s o a val = setReg s a val := by
  rw [genWrite_soft_only s o a val _ h rfl (by simp [accMask, regN, whole]), softTake_whole]

theorem genWrite_cmpCtrl (s : State) (o : Origin) (m : Fin 8) (val : Word) :
    genWrite s o (cmpR m 0) val = setReg s (cmpR m 0) (softTake (reg s (cmpR m 0)) cmpCtrlRow val) :=
  genWrite_soft_only s o _ val _ (rowOf_cmpCtrl m) rfl (by simp [accMask, cmpCtrlRow, regN])

/-! Compare units. -/

theorem cmpR_ne {m k a b : Nat} (ha : a < 0x10) (hb : b < 0x10) (h : a ≠ b) : cmpR m a ≠ cmpR k b := by
  simp only [cmpR, tmkR]; omega

theorem reg_setCmp_other (s : State) (m v x : Nat) (h : x ≠ cmpR m 0) : reg (setCmp s m v) x = reg s x := reg_setRf_other s _ _ _ _ x h

/-- The state that a write of the low target word gives a unit. -/
def cmpCode (s : State) (m : Nat) (val : Word) : Nat :=
  if 4 < cmpBase s m ∨ (isCell s = true ∧ 2 ≤ cmpBase s m) then 0xA
  else if cmpDelta (setReg s (cmpR m 8) val) m (cmpBase s m) < 1 then 8
  else if 2147483648 ≤ cmpDelta (setReg s (cmpR m 8) val) m (cmpBase s m) then 9
  else if cmpBase s m = 1 ∧ periodLt s ≤ fld val 14 0 then 0xA else 1

theorem cmpCode_lt (s : State) (m : Nat) (val : Word) : cmpCode s m val < 16 := by
  unfold cmpCode
  split
  · decide
  split
  · decide
  split
  · decide
  split <;> decide

theorem cmpArm_eq (s : State) (o : Origin) (m : Fin 8) (val : Word) : cmpArm s o m val = setCmp (setReg s (cmpR m 8) val) m (cmpCode s m val) := by
  have hbase : cmpBase (setReg s (cmpR m 8) val) m = cmpBase s m := by
    rw [cmpBase, rf, reg_setReg_other _ _ _ _ (cmpR_ne (by decide) (by decide) (by decide))]; rfl
  unfold cmpArm cmpCode
  dsimp only
  rw [genWrite_whole s o _ val (rowOf_cmpLo m), hbase]
  simp only [Bool.or_eq_true, Bool.and_eq_true, decide_eq_true_eq]
  rfl

theorem cmpArm_regs (s : State) (o : Origin) (m : Fin 8) (val : Word) :
    reg (cmpArm s o m val) (cmpR m 8) = val ∧ cmpState (cmpArm s o m val) m = cmpCode s m val ∧
      (∀ x, x ≠ cmpR m 0 → x ≠ cmpR m 8 → reg (cmpArm s o m val) x = reg s x) ∧ { cmpArm s o m val with regs := s.regs } = s := by
  rw [cmpArm_eq]
  refine ⟨?_, cmpState_setCmp_same _ _ _ (cmpCode_lt s m val), fun x h0 h8 => ?_, rfl⟩
  · rw [reg_setCmp_other _ _ _ _ (cmpR_ne (by decide) (by decide) (by decide)), reg_setReg_same]
  · rw [reg_setCmp_other _ _ _ _ h0, reg_setReg_other _ _ _ _ h8]

theorem cmpDelta_lt (s : State) (m : Nat) (val : Word) : cmpDelta (setReg s (cmpR m 8) val) m 0 =
    signedMod (2 ^ 64) (((reg s (cmpR m 4)).toNat * 2 ^ 32 + val.toNat : Nat) - (now s : Int)) := by
  unfold cmpDelta
  rw [reg_setReg_same, reg_setReg_other _ _ _ _ (cmpR_ne (by decide) (by decide) (by decide))]
  rfl

/-! An event flag of every running core. -/

theorem coreOf_raiseEv (s : State) (n m k : Nat) : (coreOf (raiseEv s n m) k).st = (coreOf s k).st ∧
    (coreOf (raiseEv s n m) k).ev = if k = n ∧ coreRuns (coreOf s k) = true then (coreOf s k).ev ||| wd m else (coreOf s k).ev := by
  unfold raiseEv
  rw [coreOf_modCore]
  by_cases e : k = n
  · subst e
    rw [if_pos rfl]
    by_cases h : coreRuns (coreOf s k) = true
    · rw [if_pos h, if_pos ⟨rfl, h⟩]; exact ⟨rfl, rfl⟩
    · rw [if_neg h, if_neg fun c => h c.2]; exact ⟨rfl, rfl⟩
  · rw [if_neg e, if_neg fun c => e c.1]; exact ⟨rfl, rfl⟩

theorem coreRuns_of_st {c d : Core} (h : d.st = c.st) : coreRuns d = coreRuns c := by simp only [coreRuns, h]

theorem ev_foldl_raiseEv (l : List Nat) (s : State) (m k : Nat) :
    (coreOf (l.foldl (fun s n => raiseEv s n m) s) k).ev =
      if k ∈ l ∧ coreRuns (coreOf s k) = true then (coreOf s k).ev ||| wd m else (coreOf s k).ev := by
  induction l generalizing s with
  | nil => simp
  | cons n l ih =>
    obtain ⟨hst, hev⟩ := coreOf_raiseEv s n m k
    rw [List.foldl_cons, ih, coreRuns_of_st hst, hev]
    by_cases hr : coreRuns (coreOf s k) = true
    · by_cases e : k = n
      · subst e; simp [hr, BitVec.or_assoc]
      · simp [e, hr]
    · simp [hr]

/-- Every running core has the flags, and one that has a flag keeps it. -/
theorem ev_raiseEvAll (s : State) (m : Nat) (c : CoreId) (h : coreRuns (coreOf s c) = true) :
    (coreOf (raiseEvAll s m) c).ev = (coreOf s c).ev ||| wd m := by
  unfold raiseEvAll
  rw [ev_foldl_raiseEv, if_pos ⟨List.mem_range.mpr c.isLt, h⟩]

theorem raiseEvAll_cores (s : State) (m : Nat) : ∃ l, raiseEvAll s m = { s with cores := l } := by
  have h : ∀ (l : List Nat) (u : State), ∃ k, l.foldl (fun s n => raiseEv s n m) u = { u with cores := k } := by
    intro l
    induction l with
    | nil => exact fun u => ⟨u.cores, rfl⟩
    | cons n l ih =>
      intro u
      obtain ⟨k, hk⟩ := ih (raiseEv u n m)
      exact ⟨k, hk⟩
  exact h _ s

/-! Firing. -/

theorem rb_setCmp (s : State) (m v i : Nat) (h : i < 16) : rb (setCmp s m v) (cmpR m 0) i = rb s (cmpR m 0) i :=
  rb_setRf_apart s _ 19 16 v i (.inl h)

/-- The capture engine's part of a firing. -/
def cmpCaptures (s : State) (m : Nat) : State := if rb s (cmpR m 0) 9 then capTrig (setCmp s m 2) 8 else setCmp s m 2

theorem cmpFire_eq (s : State) (m : Nat) : cmpFire s m 2 = if rb s (cmpR m 0) 10 then raiseEvAll (cmpCaptures s m) (2 ^ m) else cmpCaptures s m := by
  have hcap : ∀ u : State, rb (capTrig u 8) (cmpR m 0) 10 = rb u (cmpR m 0) 10 := fun _ => rfl
  unfold cmpFire cmpCaptures
  dsimp only
  rw [rb_setCmp s m 2 9 (by decide)]
  split <;> simp only [hcap, rb_setCmp s m 2 10 (by decide)]

theorem cmpCaptures_regs (s : State) (m : Nat) : (cmpCaptures s m).cores = s.cores ∧ ∀ x, reg (cmpCaptures s m) x = reg (setCmp s m 2) x := by
  unfold cmpCaptures
  split
  · exact ⟨rfl, fun _ => rfl⟩
  · exact ⟨rfl, fun _ => rfl⟩

theorem cmpFire_fires (s : State) (m : Fin 8) :
    cmpState (cmpFire s m 2) m = 2 ∧ (∀ x, x ≠ cmpR m 0 → reg (cmpFire s m 2) x = reg s x) ∧
      (rb s (cmpR m 0) 10 = true → ∀ c : CoreId, coreRuns (coreOf s c) = true → (coreOf (cmpFire s m 2) c).ev.getLsbD m.val = true) ∧
      (rb s (cmpR m 0) 10 = false → (cmpFire s m 2).cores = s.cores) ∧ (rb s (cmpR m 0) 9 = false → (cmpFire s m 2).cap = s.cap) := by
  obtain ⟨hcores, hregs⟩ := cmpCaptures_regs s m
  have hcoreOf : ∀ n, coreOf (cmpCaptures s m) n = coreOf s n := fun n => by rw [coreOf, hcores]; rfl
  obtain ⟨l, hl⟩ := raiseEvAll_cores (cmpCaptures s m) (2 ^ m.val)
  have hall : ∀ x, reg (cmpFire s m 2) x = reg (setCmp s m 2) x := fun x => by
    rw [cmpFire_eq]
    split
    · rw [hl]; exact hregs x
    · exact hregs x
  generalize hu : cmpFire s m 2 = u at hall ⊢
  refine ⟨?_, fun x hx => (hall x).trans (reg_setCmp_other s m 2 x hx), fun hb c hc => ?_, fun hb => ?_, fun hb => ?_⟩
  · rw [cmpState, rf, hall]; exact cmpState_setCmp_same s m 2 (by decide)
  · rw [← hu, cmpFire_eq, if_pos hb, ev_raiseEvAll _ _ _ (by rw [hcoreOf]; exact hc), BitVec.getLsbD_or, wd, getLsbD_pow, decide_eq_true (by omega),
      decide_eq_true rfl, Bool.and_self, Bool.or_true]
  · rw [← hu, cmpFire_eq, hb, if_neg Bool.false_ne_true, hcores]
  · have hcap : (cmpCaptures s m).cap = s.cap := by rw [cmpCaptures, hb, if_neg Bool.false_ne_true]; rfl
    rw [← hu, cmpFire_eq]
    split
    · rw [hl]; exact hcap
    · exact hcap

/-! Launch slots. -/

theorem lchR_ne {j k a b : Nat} (ha : a < 0x10) (hb : b < 0x10) (h : a ≠ b) : lchR j a ≠ lchR k b := by
  simp only [lchR, tmkR]; omega

theorem lchState_setLch_same (s : State) (j v : Nat) (hv : v < 16) : lchState (setLch s j v) j = v := rf_setRf_same s _ 19 16 v (by decide) hv

theorem reg_setLch_other (s : State) (j v x : Nat) (h : x ≠ lchR j 0) : reg (setLch s j v) x = reg s x := reg_setRf_other s _ _ _ _ x h

theorem lchDelta_write (s : State) (j : Nat) (val : Word) : lchDelta (setReg s (lchR j 8) val) j =
    signedMod (2 ^ 32 * 1000000000) (((reg s (lchR j 4)).toNat * 1000000000 + val.toNat : Nat) -
      ((ptSec (ptOf s (lchPt s j)) % 2 ^ 32 * 1000000000 + ptNs (ptOf s (lchPt s j)) : Nat) : Int)) := by
  have hpt : lchPt (setReg s (lchR j 8) val) j = lchPt s j := by
    rw [lchPt, rf, reg_setReg_other _ _ _ _ (lchR_ne (by decide) (by decide) (by decide))]; rfl
  unfold lchDelta
  rw [hpt, reg_setReg_same, reg_setReg_other _ _ _ _ (lchR_ne (by decide) (by decide) (by decide))]
  rfl

theorem lchArm_eq (s : State) (o : Origin) (j : Fin 4) (val : Word) :
    let d := signedMod (2 ^ 32 * 1000000000) (((reg s (lchR j 4)).toNat * 1000000000 + val.toNat : Nat) -
      ((ptSec (ptOf s (lchPt s j)) % 2 ^ 32 * 1000000000 + ptNs (ptOf s (lchPt s j)) : Nat) : Int))
    lchArm s o j val = setLch (setReg s (lchR j 8) val) j (if d < 2000 then 8 else if 2147483648 ≤ d then 9 else 1) := by
  unfold lchArm
  dsimp only
  rw [genWrite_whole s o _ val (rowOf_lchNs j), lchDelta_write]

/-- A frame leaves in the group and of the length with which it waited. -/
theorem ptpOut_kept (s : State) (e at_ : Nat) (n : Option Nat) (f : EthTx) : ((ptpOut s e at_ n f).group, (ptpOut s e at_ n f).len) = (f.group, f.len) := by
  unfold ptpOut
  dsimp only
  split
  · rfl
  · split <;> rfl
  · split
    · split <;> rfl
    · split
      · split
        · split <;> rfl
        · rfl
      · rfl

theorem epochNow_kept (s : State) (f : EthTx) : ((epochNow s f).group, (epochNow s f).len) = (f.group, f.len) := by
  unfold epochNow
  split <;> rfl

theorem ethStart_sends (s : State) (e : Fin 2) (at_ : Nat) (n : Option Nat) (f : EthTx) :
    ∃ p g, ethStart s e at_ n f = { s with stp := p, sent := s.sent ++ [.eth e g] } ∧ (g.group, g.len) = (f.group, f.len) := by
  unfold ethStart
  refine ⟨_, _, rfl, ?_⟩
  split
  · exact ptpOut_kept ..
  · exact epochNow_kept ..

/-- The length of the frame of a slot's descriptor (Table 12-1). -/
def lchLen (s : State) (j : Nat) : Nat := ethLen (Config.txFrame (rf s (lchR j 0) 15 8) s.mem) + tagLen s

/-- The frame of a slot leaves, where it is not too long. -/
def lchFrame (s : State) (j : Nat) (e : Fin 2) : State :=
  let at_ := Nat.max (now s) (kget 0 s.stp.busyTil e)
  let s := modStp s fun t => { t with lchAt := kput none t.lchAt e (some (now s - (-(lchDiff s j)).toNat / 2)) }
  if 1518 < lchLen s j then s else ethStart s e at_ (some (lchPt s j)) ⟨1, lchLen s j, none, Config.txFrame (rf s (lchR j 0) 15 8) s.mem, none⟩

theorem lchSend_eq (s : State) (j st : Nat) (h2 : lchPort s j < 2) (hup : ethUp s (lchPort s j) = true) :
    ∃ a b, lchSend s j st = setLch (if st = 0xE then setReg (setReg (lchFrame s j ⟨lchPort s j, h2⟩) (lchR j 4) a) (lchR j 8) b
      else lchFrame s j ⟨lchPort s j, h2⟩) j st := by
  unfold lchSend
  dsimp only
  rw [hup, Bool.not_true, if_neg Bool.false_ne_true, dif_pos h2]
  exact ⟨_, _, rfl⟩

theorem lchFrame_regs (s : State) (j : Nat) (e : Fin 2) (x : Nat) : reg (lchFrame s j e) x = reg s x := by
  unfold lchFrame
  dsimp only
  split
  · rfl
  · rfl

theorem lchFrame_sent (s : State) (j : Nat) (e : Fin 2) :
    (lchLen s j ≤ 1518 → ∃ f, (lchFrame s j e).sent = s.sent ++ [.eth e f] ∧ (f.group, f.len) = (1, lchLen s j)) ∧
      (1518 < lchLen s j → (lchFrame s j e).sent = s.sent) := by
  unfold lchFrame
  dsimp only
  obtain ⟨u, hu⟩ : ∃ u, u = modStp s fun t => { t with lchAt := kput none t.lchAt e (some (now s - (-(lchDiff s j)).toNat / 2)) } := ⟨_, rfl⟩
  have hlen : lchLen u j = lchLen s j := by rw [hu]; rfl
  have hsent : u.sent = s.sent := by rw [hu]; rfl
  rw [← hu, hlen]
  refine ⟨fun h => ?_, fun h => by rw [if_pos h, hsent]⟩
  rw [if_neg (by omega)]
  obtain ⟨p, g, he, hg⟩ := ethStart_sends u e (Nat.max (now s) (kget 0 s.stp.busyTil e)) (some (lchPt u j))
    ⟨1, lchLen s j, none, Config.txFrame (rf u (lchR j 0) 15 8) u.mem, none⟩
  exact ⟨g, by rw [he, hsent], hg⟩

theorem lchPort_lt (s : State) (j : Nat) : lchPort s j < 2 := fld_lt _ 0 0

/-- A slot whose port takes its frame. -/
theorem lchSend_launches (s : State) (j st : Nat) (hst : st < 16) (hup : ethUp s (lchPort s j) = true) :
    lchState (lchSend s j st) j = st ∧
      (lchLen s j ≤ 1518 → ∃ e f, (lchSend s j st).sent = s.sent ++ [.eth e f] ∧ e.val = lchPort s j ∧ (f.group, f.len) = (1, lchLen s j)) ∧
      (1518 < lchLen s j → (lchSend s j st).sent = s.sent) ∧
      (∀ x, x ≠ lchR j 0 → x ≠ lchR j 4 → x ≠ lchR j 8 → reg (lchSend s j st) x = reg s x) := by
  obtain ⟨a, b, he⟩ := lchSend_eq s j st (lchPort_lt s j) hup
  obtain ⟨hshort, hlong⟩ := lchFrame_sent s j ⟨lchPort s j, lchPort_lt s j⟩
  rw [he]
  obtain ⟨v, hv⟩ : ∃ v, v = lchFrame s j ⟨lchPort s j, lchPort_lt s j⟩ := ⟨_, rfl⟩
  have hreg : ∀ x, reg v x = reg s x := fun x => by rw [hv]; exact lchFrame_regs s j _ x
  rw [← hv] at hshort hlong ⊢
  have hsent : (setLch (if st = 0xE then setReg (setReg v (lchR j 4) a) (lchR j 8) b else v) j st).sent = v.sent := by split <;> rfl
  refine ⟨lchState_setLch_same _ j st hst, fun h => ?_, fun h => by rw [hsent, hlong h], fun x h0 h4 h8 => ?_⟩
  · obtain ⟨f, hf, hkind⟩ := hshort h
    exact ⟨_, f, by rw [hsent, hf], rfl, hkind⟩
  · rw [reg_setLch_other _ _ _ _ h0]
    split
    · rw [reg_setReg_other _ _ _ _ h8, reg_setReg_other _ _ _ _ h4, hreg]
    · exact hreg x

/-! A step of a PT without armed units. -/

theorem foldl_skip {α : Type} (l : List α) (c : State → α → Bool) (f : State → α → State) (s : State) (h : ∀ a ∈ l, c s a = false) :
    l.foldl (fun s a => if c s a then f s a else s) s = s := by
  induction l with
  | nil => rfl
  | cons a l ih =>
    rw [List.foldl_cons, h a List.mem_cons_self, if_neg Bool.false_ne_true]
    exact ih fun b hb => h b (List.mem_cons_of_mem a hb)

theorem ptChange_alone (s : State) (n v : Nat) (hc : ∀ c : Fin 8, cmpState s c ≠ 1) (hl : ∀ i : Fin 4, lchState s i ≠ 1) :
    ptChange s n v = modTmk s fun t => { t with pt := kput 0 t.pt n (v % ptMod) } := by
  have hcmp : ∀ u : State, (∀ x, reg u x = reg s x) → ∀ m ∈ List.range 8, (cmpState u m == 1 && cmpBase u m == n + 2) = false := by
    intro u hu m hm
    have hm1 : cmpState u m ≠ 1 := by rw [cmpState, rf, hu]; exact hc ⟨m, List.mem_range.mp hm⟩
    simp [hm1]
  have hlch : ∀ u : State, (∀ x, reg u x = reg s x) → ∀ j ∈ List.range 4, (lchState u j == 1 && lchPt u j == n) = false := by
    intro u hu j hj
    have hj1 : lchState u j ≠ 1 := by rw [lchState, rf, hu]; exact hl ⟨j, List.mem_range.mp hj⟩
    simp [hj1]
  unfold ptChange
  dsimp only
  rw [foldl_skip _ (fun s m => cmpState s m == 1 && cmpBase s m == n + 2) cmpTry s (hcmp s fun _ => rfl),
    foldl_skip _ (fun s j => lchState s j == 1 && lchPt s j == n) lchTry s (hlch s fun _ => rfl)]
  obtain ⟨u, hu⟩ : ∃ u, u = modTmk s fun t => { t with pt := kput 0 t.pt n (v % ptMod) } := ⟨_, rfl⟩
  have hreg : ∀ x, reg u x = reg s x := fun x => by rw [hu]; rfl
  rw [← hu, foldl_skip _ (fun s m => cmpState s m == 1 && cmpBase s m == n + 2) cmpStepped u (hcmp u hreg),
    foldl_skip _ (fun s j => lchState s j == 1 && lchPt s j == n) lchStepped u (hlch u hreg)]

/-- Settles O27: what each unit and slot decides, and what its firing, launch or cancelling leaves. -/
theorem compareAndLaunchUnits : Obligations.CompareAndLaunchUnits := by
  intro o m j n val s hr cd v ld
  refine ⟨fun hb => answers_live rfl hr ?_, answers_live rfl hr ?_, fun h1 hm => answers_live rfl hr ?_, fun h1 hb => answers_live rfl hr ?_,
    fun hreach => answers_live rfl hr ?_, fun h1 hup hd hy hfree => answers_live rfl hr ?_, fun h1 hup hd => answers_live rfl hr ?_,
    fun hreach hc hl => answers_live rfl hr ?_⟩
  · -- base LT
    obtain ⟨hlo, hstate, hother, hframe⟩ := cmpArm_regs s o m val
    refine ⟨hlo, hstate.trans ?_, hother, hframe⟩
    rw [cmpCode, hb, if_neg (by simp), cmpDelta_lt]
    simp only [Nat.zero_ne_one, false_and, if_false]
    rfl
  · -- any base
    obtain ⟨hlo, hstate, -, -⟩ := cmpArm_regs s o m val
    exact ⟨hlo, hstate⟩
  · -- a match
    rw [cmpTry, if_pos ⟨h1, hm⟩]
    exact cmpFire_fires s m
  · -- CANCEL
    have harmed : (decide (cmpState s m = 1) && (bitOf val 0 || decide (fld val 6 4 ≠ cmpBase s m))) = true := by rw [hb, decide_eq_true h1]; rfl
    unfold cmpCtrl
    dsimp only
    rw [harmed, if_pos rfl, genWrite_cmpCtrl]
    exact ⟨cmpState_setCmp_same _ m _ (by decide), fun x hx => by rw [reg_setCmp_other _ _ _ _ hx, reg_setReg_other _ _ _ _ hx], rfl⟩
  · -- a launch time
    have he := lchArm_eq s o j val
    rw [gate, hreach, if_pos rfl, he]
    refine ⟨?_, lchState_setLch_same _ j _ ?_, fun x h0 h8 => ?_, rfl⟩
    · rw [reg_setLch_other _ _ _ _ (lchR_ne (by decide) (by decide) (by decide)), reg_setReg_same]
    · split
      · decide
      split <;> decide
    · rw [reg_setLch_other _ _ _ _ h0, reg_setReg_other _ _ _ _ h8]
  · -- a launch
    have htry : lchTry s j = lchSend s j (if lchNear s j || decide (lchDiff s j < -16) then 0xE else 2) := by
      unfold lchTry
      dsimp only
      rw [if_neg (by omega), hup, hy, decide_eq_false (by omega : ¬ now s < kget 0 s.stp.busyTil (lchPort s j))]
      rfl
    rw [htry]
    exact lchSend_launches s j _ (by split <;> decide) hup
  · -- no link
    have htry : lchTry s j = setLch s j 0xF := by
      unfold lchTry
      dsimp only
      rw [if_neg (by omega), hup]
      rfl
    rw [htry]
    exact ⟨lchState_setLch_same _ j _ (by decide), fun x hx => reg_setLch_other s j _ x hx, rfl⟩
  · -- a PT step
    have hcmp : ∀ c, cmpR c 0 ≠ tmkR (0x114 + 0x40 * n.val) := fun c => by simp only [cmpR, tmkR]; omega
    have hlch : ∀ i, lchR i 0 ≠ tmkR (0x114 + 0x40 * n.val) := fun i => by simp only [lchR, tmkR]; omega
    have hmod : (((ptOf s n : Int) + val.toInt * (ptOne : Int)) % (ptMod : Int)).toNat % ptMod =
        (((ptOf s n : Int) + val.toInt * (ptOne : Int)) % (ptMod : Int)).toNat := by
      refine Nat.mod_eq_of_lt ?_
      have h0 : (0 : Int) ≤ ((ptOf s n : Int) + val.toInt * (ptOne : Int)) % (ptMod : Int) := Int.emod_nonneg _ (by decide)
      have h1 : ((ptOf s n : Int) + val.toInt * (ptOne : Int)) % (ptMod : Int) < ptMod := Int.emod_lt_of_pos _ (by decide)
      omega
    rw [gate, hreach, if_pos rfl, ptStep, ptChange_alone _ _ _
      (fun c => by rw [cmpState, rf, reg_setReg_other _ _ _ _ (hcmp c)]; exact hc c)
      (fun i => by rw [lchState, rf, reg_setReg_other _ _ _ _ (hlch i)]; exact hl i), hmod]
    refine ⟨?_, fun k hk => ?_, reg_setReg_same s _ val, fun x hx => reg_setReg_other s _ val x hx, rfl⟩
    · exact kget_kput_same 0 s.tmk.pt n.val _
    · exact (kget_kput 0 s.tmk.pt n.val k _).trans (if_neg hk)

end Sys2Proof.Machine
end

section
/-! SUPPORT. What the work of a tick leaves of the time base and of the cores: LT, the tick state but TT_ALIGN, what each core does and its TICK
flag. The lemmas stand in the order of the model's files and rewrite the part after an operation to the part before it, as the
memory frames above do. -/

namespace Sys2Proof.Machine

open Sys2Proof

/-- LT, the time state without TT_ALIGN, and of each core whether it runs and its TICK flag. -/
def tickPart (s : State) := (s.lt, { s.tmk with align := false }, fun n => ((coreOf s n).st, (coreOf s n).ev.getLsbD 8))

/-! The writers of the state. -/

@[simp] theorem setReg_tickPart (s : State) (a : Nat) (v : Word) : tickPart (setReg s a v) = tickPart s := rfl
@[simp] theorem setRf_tickPart (s : State) (a hi lo v : Nat) : tickPart (setRf s a hi lo v) = tickPart s := rfl
@[simp] theorem flag_tickPart (s : State) (a m : Nat) : tickPart (flag s a m) = tickPart s := rfl
@[simp] theorem unflag_tickPart (s : State) (a m : Nat) : tickPart (unflag s a m) = tickPart s := rfl
@[simp] theorem send_tickPart (s : State) (x : Sent) : tickPart (send s x) = tickPart s := rfl
@[simp] theorem modPort_tickPart (s : State) (p : Nat) (f : PortSt → PortSt) : tickPart (modPort s p f) = tickPart s := rfl
@[simp] theorem modSys_tickPart (s : State) (f : Sys → Sys) : tickPart (modSys s f) = tickPart s := rfl
@[simp] theorem modTrr_tickPart (s : State) (f : Trr → Trr) : tickPart (modTrr s f) = tickPart s := rfl
@[simp] theorem modRdl_tickPart (s : State) (f : Rdl → Rdl) : tickPart (modRdl s f) = tickPart s := rfl
@[simp] theorem modSwg_tickPart (s : State) (f : Swg → Swg) : tickPart (modSwg s f) = tickPart s := rfl
@[simp] theorem modSup_tickPart (s : State) (f : Sup → Sup) : tickPart (modSup s f) = tickPart s := rfl
@[simp] theorem modSns_tickPart (s : State) (f : Sns → Sns) : tickPart (modSns s f) = tickPart s := rfl
@[simp] theorem modLpe_tickPart (s : State) (f : Lpe → Lpe) : tickPart (modLpe s f) = tickPart s := rfl
@[simp] theorem modStp_tickPart (s : State) (f : Stp → Stp) : tickPart (modStp s f) = tickPart s := rfl
@[simp] theorem modCap_tickPart (s : State) (f : Cap → Cap) : tickPart (modCap s f) = tickPart s := rfl
@[simp] theorem modFlt_tickPart (s : State) (f : Flt → Flt) : tickPart (modFlt s f) = tickPart s := rfl
@[simp] theorem modSaf_tickPart (s : State) (f : Saf → Saf) : tickPart (modSaf s f) = tickPart s := rfl
@[simp] theorem modNv_tickPart (s : State) (f : Nv → Nv) : tickPart (modNv s f) = tickPart s := rfl
@[simp] theorem modSvb_tickPart (s : State) (f : Svb → Svb) : tickPart (modSvb s f) = tickPart s := rfl
@[simp] theorem modPair_tickPart (s : State) (f : Pair → Pair) : tickPart (modPair s f) = tickPart s := rfl
@[simp] theorem modTbl_tickPart (s : State) (f : Tbl → Tbl) : tickPart (modTbl s f) = tickPart s := rfl

@[simp] theorem ite_tickPart (c : Prop) [Decidable c] (a b : State) : tickPart (if c then a else b) = if c then tickPart a else tickPart b :=
  apply_ite tickPart c a b

@[simp] theorem dite_tickPart (c : Prop) [Decidable c] (a : c → State) (b : ¬ c → State) :
    tickPart (dite c a b) = if h : c then tickPart (a h) else tickPart (b h) := apply_dite tickPart c a b

@[simp] theorem foldl_tickPart {α : Type} (f : State → α → State) (h : ∀ s a, tickPart (f s a) = tickPart s) (l : List α) (s : State) :
    tickPart (l.foldl f s) = tickPart s := foldl_keeps tickPart f h l s

@[simp] theorem whenB_tickPart (b : Bool) (f : State → State) (s : State) (h : tickPart (f s) = tickPart s) : tickPart (whenB b f s) = tickPart s := by
  simp -implicitDefEqProofs [whenB, h]

/-- An update of a core that leaves what it does and its TICK flag. -/
theorem modCore_tickPart (s : State) (n : Nat) (f : Core → Core) (h : ∀ c, ((f c).st, (f c).ev.getLsbD 8) = (c.st, c.ev.getLsbD 8)) :
    tickPart (modCore s n f) = tickPart s := by
  have hcore : (fun k => ((coreOf (modCore s n f) k).st, (coreOf (modCore s n f) k).ev.getLsbD 8)) = fun k => ((coreOf s k).st, (coreOf s k).ev.getLsbD 8) := by
    funext k
    rw [coreOf_modCore]
    split
    next e => rw [h, e]
    next => rfl
  unfold tickPart
  rw [hcore]
  rfl

/-! The operations. -/

@[simp] theorem swMark_tickPart (s : State) (a m : Nat) : tickPart (swMark s a m) = tickPart s := rfl

@[simp] theorem actionEnd_tickPart (s : State) (a m : Nat) (again : State → State) (h : ∀ s, tickPart (again s) = tickPart s) :
    tickPart (actionEnd s a m again) = tickPart s := by simp -implicitDefEqProofs [actionEnd, h]

@[simp] theorem countUp_tickPart (s : State) (a hi lo : Nat) : tickPart (countUp s a hi lo) = tickPart s := by simp -implicitDefEqProofs [countUp]

@[simp] theorem report_tickPart (s : State) (src : Nat) (k : Kind) (addr : Nat) : tickPart (report s src k addr) = tickPart s := by
  simp -implicitDefEqProofs [report]

@[simp] theorem discard_tickPart (s : State) (cause src blk : Nat) (work : Bool) : tickPart (discard s cause src blk work) = tickPart s := by
  simp -implicitDefEqProofs [discard]

@[simp] theorem safLog_tickPart (s : State) (typ : Nat) (node : BitVec 14) (addr : Nat) (old new : Word) :
    tickPart (safLog s typ node addr old new) = tickPart s := by simp -implicitDefEqProofs [safLog]

@[simp] theorem enqueue_tickPart (s : State) (p : Nat) (pk : Packet) (data : Bool) : tickPart (enqueue s p pk data) = tickPart s := by
  simp -implicitDefEqProofs [enqueue]

@[simp] theorem dropWork_tickPart (s : State) : tickPart (dropWork s) = tickPart s := by
  have hcore : ∀ (u : State) (n : Nat), tickPart (modCore u n fun c => { c with txq := [] }) = tickPart u := fun u n => modCore_tickPart u n _ fun _ => rfl
  simp -implicitDefEqProofs [dropWork, hcore]

@[simp] theorem turnOffAt_tickPart (s : State) (origin : Nat) : tickPart (turnOffAt s origin) = tickPart s := by simp -implicitDefEqProofs [turnOffAt]

@[simp] theorem turnOff_tickPart (s : State) : tickPart (turnOff s) = tickPart s := by simp -implicitDefEqProofs [turnOff]

@[simp] theorem partnerCmd_tickPart (s : State) (val : Word) : tickPart (partnerCmd s val) = tickPart s := by unfold partnerCmd; split <;> simp -implicitDefEqProofs

@[simp] theorem peerTell_tickPart (s : State) (v : Bool) : tickPart (peerTell s v) = tickPart s := by simp -implicitDefEqProofs [peerTell]

@[simp] theorem intlDrop_tickPart (s : State) : tickPart (intlDrop s) = tickPart s := by simp -implicitDefEqProofs [intlDrop]

@[simp] theorem undoMark_tickPart (s : State) : tickPart (undoMark s) = tickPart s := by simp -implicitDefEqProofs [undoMark]

@[simp] theorem wordsBack_tickPart (w : List Word) (s : State) : tickPart (wordsBack w s) = tickPart s := by simp -implicitDefEqProofs [wordsBack]

@[simp] theorem transBack_tickPart (u : Undo) (s : State) : tickPart (transBack u s) = tickPart s := by simp -implicitDefEqProofs [transBack]

@[simp] theorem dropTrans_tickPart (s : State) : tickPart (dropTrans s) = tickPart s := by unfold dropTrans; split <;> simp -implicitDefEqProofs

@[simp] theorem aliveBegin_tickPart (s : State) : tickPart (aliveBegin s) = tickPart s := by simp -implicitDefEqProofs [aliveBegin]

@[simp] theorem testLeave_tickPart (s : State) : tickPart (testLeave s) = tickPart s := by simp -implicitDefEqProofs [testLeave]

@[simp] theorem safeEffects_tickPart (s : State) : tickPart (safeEffects s) = tickPart s := by simp -implicitDefEqProofs [safeEffects]

@[simp] theorem safeCore_tickPart (s : State) (bit : Nat) (src : Option Nat) : tickPart (safeCore s bit src) = tickPart s := by
  (unfold safeCore; dsimp only; repeat' split) <;> simp -implicitDefEqProofs

@[simp] theorem testAbort_tickPart (s : State) : tickPart (testAbort s) = tickPart s := by simp -implicitDefEqProofs [testAbort]

@[simp] theorem demandOut_tickPart (s : State) : tickPart (demandOut s) = tickPart s := by simp -implicitDefEqProofs [demandOut]

@[simp] theorem demandCore_tickPart (s : State) (bit : Nat) : tickPart (demandCore s bit) = tickPart s := by simp -implicitDefEqProofs [demandCore]

@[simp] theorem enterSafe_tickPart (s : State) (bit : Nat) (src : Option Nat) : tickPart (enterSafe s bit src) = tickPart s := by
  simp -implicitDefEqProofs [enterSafe]

@[simp] theorem cayLeave_tickPart (s : State) (p : Nat) (sc : BitVec 2) (hops dep : Nat) : tickPart (cayLeave s p sc hops dep) = tickPart s := by
  unfold cayLeave; split <;> rfl

@[simp] theorem caySend_tickPart (s : State) (ps : List Nat) (sc : BitVec 2) (hops : Nat) (dep : Nat → Nat) : tickPart (caySend s ps sc hops dep) = tickPart s := by
  simp -implicitDefEqProofs [caySend]

@[simp] theorem cayApply_tickPart (s : State) (sc : BitVec 2) (loc : Bool) (hops ports at_ : Nat) : tickPart (cayApply s sc loc hops ports at_) = tickPart s := by
  simp -implicitDefEqProofs [cayApply]

@[simp] theorem cayLaunch_tickPart (s : State) (sc : BitVec 2) : tickPart (cayLaunch s sc) = tickPart s := by simp -implicitDefEqProofs [cayLaunch]

@[simp] theorem safDemand_tickPart (s : State) (bit : Nat) : tickPart (safDemand s bit) = tickPart s := by simp -implicitDefEqProofs [safDemand]

@[simp] theorem safLock_tickPart (s : State) (node : BitVec 14) : tickPart (safLock s node) = tickPart s := by simp -implicitDefEqProofs [safLock]

@[simp] theorem alignSend_tickPart (s : State) (p : Nat) : tickPart (alignSend s p) = tickPart s := by simp -implicitDefEqProofs [alignSend]

@[simp] theorem alignSync_tickPart (s : State) : tickPart (alignSync s) = tickPart s := by
  obtain ⟨l, a, h⟩ := alignSync_only s
  rw [h]
  rfl

@[simp] theorem firstRise_tickPart (s : State) : tickPart (firstRise s) = tickPart s := by simp -implicitDefEqProofs [firstRise]

@[simp] theorem outReturn_tickPart (s : State) : tickPart (outReturn s) = tickPart s := by simp -implicitDefEqProofs [outReturn]

@[simp] theorem settle_tickPart (s : State) (i : Nat) : tickPart (settle s i) = tickPart s := by simp -implicitDefEqProofs [settle]

@[simp] theorem settleAll_tickPart (s : State) : tickPart (settleAll s) = tickPart s := by simp -implicitDefEqProofs [settleAll]

@[simp] theorem testDue_tickPart (s : State) : tickPart (testDue s) = tickPart s := by simp -implicitDefEqProofs [testDue]

@[simp] theorem forcedEnd_tickPart (s : State) : tickPart (forcedEnd s) = tickPart s := by simp -implicitDefEqProofs [forcedEnd]

@[simp] theorem rdlStart_tickPart (s : State) : tickPart (rdlStart s) = tickPart s := by simp -implicitDefEqProofs [rdlStart]

@[simp] theorem setMode_tickPart (s : State) (m : Mode) : tickPart (setMode s m) = tickPart s := by simp -implicitDefEqProofs [setMode]

@[simp] theorem sarLatch_tickPart (late : KV (Option Word)) (s : State) (c : Nat) : tickPart (sarLatch late s c) = tickPart s := by
  (unfold sarLatch; dsimp only; repeat' split) <;> simp -implicitDefEqProofs

@[simp] theorem snsLatch_tickPart (s : State) : tickPart (snsLatch s) = tickPart s := by simp -implicitDefEqProofs [snsLatch]

@[simp] theorem qTrigger_tickPart (s : State) (c : Nat) (hit : Option (Nat × Word)) : tickPart (qTrigger s c hit) = tickPart s := by
  simp -implicitDefEqProofs [qTrigger]

@[simp] theorem wakeStep_tickPart (s : State) : tickPart (wakeStep s) = tickPart s := by (unfold wakeStep; dsimp only; repeat' split) <;> simp -implicitDefEqProofs

@[simp] theorem bsStep_tickPart (s : State) (m : Nat) : tickPart (bsStep s m) = tickPart s := by simp -implicitDefEqProofs [bsStep]

@[simp] theorem ledger_tickPart (s : State) : tickPart (ledger s) = tickPart s := by simp -implicitDefEqProofs [ledger]

@[simp] theorem ledgerMeasure_tickPart (s : State) (mw : Nat) : tickPart (ledgerMeasure s mw) = tickPart s := by simp -implicitDefEqProofs [ledgerMeasure]

@[simp] theorem ledgerNewTick_tickPart (s : State) : tickPart (ledgerNewTick s) = tickPart s := by simp -implicitDefEqProofs [ledgerNewTick]

@[simp] theorem holdupCheck_tickPart (s : State) : tickPart (holdupCheck s) = tickPart s := by simp -implicitDefEqProofs [holdupCheck]

@[simp] theorem rdlTick_tickPart (s : State) : tickPart (rdlTick s) = tickPart s := by simp -implicitDefEqProofs [rdlTick]

@[simp] theorem modInst_tickPart (s : State) (i : Nat) (f : Inst → Inst) : tickPart (modInst s i f) = tickPart s := by simp -implicitDefEqProofs [modInst]

@[simp] theorem feedbackLost_tickPart (s : State) (i : Nat) : tickPart (feedbackLost s i) = tickPart s := by simp -implicitDefEqProofs [feedbackLost]

@[simp] theorem referenceLatch_tickPart (s : State) : tickPart (referenceLatch s) = tickPart s := by unfold referenceLatch; split <;> simp -implicitDefEqProofs

@[simp] theorem lpeTick_tickPart (s : State) : tickPart (lpeTick s) = tickPart s := by simp -implicitDefEqProofs [lpeTick]

@[simp] theorem svTick_tickPart (s : State) : tickPart (svTick s) = tickPart s := by simp -implicitDefEqProofs [svTick]

@[simp] theorem syncReq_tickPart (s : State) : tickPart (syncReq s) = tickPart s := by simp -implicitDefEqProofs [syncReq]

@[simp] theorem pairCompare_tickPart (s : State) : tickPart (pairCompare s) = tickPart s := by unfold pairCompare; dsimp only; split <;> simp -implicitDefEqProofs

@[simp] theorem imageLoad_tickPart (s : State) : tickPart (imageLoad s) = tickPart s := by simp -implicitDefEqProofs [imageLoad]

@[simp] theorem interlock_tickPart (s : State) (level : Bool) : tickPart (interlock s level) = tickPart s := by simp -implicitDefEqProofs [interlock]

@[simp] theorem pairTick_tickPart (s : State) (level : Bool) : tickPart (pairTick s level) = tickPart s := by simp -implicitDefEqProofs [pairTick]

@[simp] theorem overrunTick_tickPart (s : State) : tickPart (overrunTick s) = tickPart s := by simp -implicitDefEqProofs [overrunTick]

@[simp] theorem cellReady_tickPart (s : State) : tickPart (cellReady s) = tickPart s := by simp -implicitDefEqProofs [cellReady]

@[simp] theorem alignTick_tickPart (s : State) : tickPart (alignTick s) = tickPart s := by simp -implicitDefEqProofs [alignTick]


/-! The cores at a tick. -/

/-- The end of a TWAIT. -/
def tickWake (c : Core) : Core := if c.wait = some .tick then { c with woken := true } else c

theorem coresTick_eq (s : State) : coresTick s = (List.range 4).foldl (fun s n => modCore s n tickWake) (raiseEvAll s 0x100) := rfl

theorem tickWakes_tickPart (s : State) : tickPart ((List.range 4).foldl (fun s n => modCore s n tickWake) s) = tickPart s :=
  foldl_keeps tickPart (fun s n => modCore s n tickWake) (fun u n => modCore_tickPart u n tickWake fun c => by unfold tickWake; split <;> rfl) _ s

theorem alignTick_portsOnly (s : State) : PortsOnly s (alignTick s) := by
  have h : ∀ (l : List Nat) (u : State), PortsOnly u (l.foldl (fun s p =>
      if 1023 ≤ (portOf s p).alignTick then alignSend s p else modPort s p fun t => { t with alignTick := t.alignTick + 1 }) u) := by
    intro l
    induction l with
    | nil => exact portsOnly_refl
    | cons p l ih =>
      intro u
      rw [List.foldl_cons]
      refine PortsOnly.trans ?_ (ih _)
      split
      · exact ⟨_, rfl⟩
      · exact ⟨_, rfl⟩
  exact h _ s

/-- The work of a tick before the cores take part. -/
def tickWork (s : State) (x : TickIn) : State :=
  overrunTick (rdlTick (lpeTick (pairTick (ledgerNewTick (ledger (ledgerMeasure (svTick (snsLatch s)) x.feedMw.toNat))) x.intlIn)))

/-- And after it, up to the mode command that falls due. -/
def tickAfter (s : State) : State := holdupCheck (cellReady (alignSync (outReturn (firstRise s))))

theorem applyTick_eq (s : State) (x : TickIn) : applyTick s x =
    modCap (alignTick (modSys (tickAfter (coresTick (tickWork s x))) fun y => { y with cmdDue := true, lateTold := false })) fun c => { c with rowN := 0 } := rfl

theorem tickWork_tickPart (s : State) (x : TickIn) : tickPart (tickWork s x) = tickPart s := by simp -implicitDefEqProofs [tickWork]

theorem tickAfter_tickPart (s : State) : tickPart (tickAfter s) = tickPart s := by simp -implicitDefEqProofs [tickAfter]

theorem applyTick_cmdDue (s : State) (x : TickIn) : (applyTick s x).sys.cmdDue = true := by
  rw [applyTick_eq]
  obtain ⟨l, h⟩ := alignTick_portsOnly (modSys (tickAfter (coresTick (tickWork s x))) fun y => { y with cmdDue := true, lateTold := false })
  rw [h]
  rfl

/-- After a tick the time base is the one it came with, and each running core has its TICK flag. -/
theorem applyTick_tickPart (s : State) (x : TickIn) :
    tickPart (applyTick s x) = tickPart (raiseEvAll (tickWork s x) 0x100) := by
  rw [applyTick_eq, modCap_tickPart, alignTick_tickPart, modSys_tickPart, tickAfter_tickPart, coresTick_eq, tickWakes_tickPart]

theorem applyTick_raises (s : State) (x : TickIn) (n : CoreId) (h : coreRuns (coreOf s n) = true) : (coreOf (applyTick s x) n).ev.getLsbD 8 = true := by
  have hwork := tickWork_tickPart s x
  have htick := applyTick_tickPart s x
  simp only [tickPart, Prod.mk.injEq, funext_iff] at hwork htick
  have hruns : coreRuns (coreOf (tickWork s x) n) = true := by rw [coreRuns_of_st (hwork.2.2 n).1, h]
  rw [(htick.2.2 n).2, ev_raiseEvAll _ _ _ hruns, BitVec.getLsbD_or, wd, show (0x100 : Nat) = 2 ^ 8 from rfl, getLsbD_pow]
  simp

theorem applyTick_time (s : State) (x : TickIn) : (applyTick s x).lt = s.lt ∧ ∃ a, (applyTick s x).tmk = { s.tmk with align := a } := by
  have hwork := tickWork_tickPart s x
  have htick := applyTick_tickPart s x
  obtain ⟨l, hl⟩ := raiseEvAll_cores (tickWork s x) 0x100
  rw [hl] at htick
  simp only [tickPart, Prod.mk.injEq] at hwork htick
  have htmk := htick.2.1.trans hwork.2.1
  exact ⟨htick.1.trans hwork.1, (applyTick s x).tmk.align, congrArg (fun t : Tmk => { t with align := (applyTick s x).tmk.align }) htmk⟩

/-! Where the tick comes from. -/

/-- The new tick's number, phase and instant, LT and the cores. -/
def advPart (s : State) := (s.tmk.tick, s.tmk.phase, s.tmk.lastPs, s.tmk.ticked, s.lt, s.cores)

theorem advPart_tickAdvance (s : State) (at_ : Nat) : advPart (tickAdvance s at_) = (nextNo s, 0, at_, true, s.lt, s.cores) := rfl

theorem advPart_report (s : State) (src : Nat) (k : Kind) (a : Nat) : advPart (report s src k a) = advPart s := by
  unfold report whenB
  dsimp only
  split <;> rfl

theorem advPart_tmkFlag (s : State) (b : Nat) (k : Kind) : advPart (tmkFlag s b k) = advPart s := advPart_report (flag s (tmkR 0x004) (2 ^ b)) ..

theorem advPart_ite (c : Prop) [Decidable c] (a b : State) (h : advPart a = advPart b) : advPart (if c then a else b) = advPart b := by
  split
  · exact h
  · rfl

theorem selectParent_kept (s : State) (b : Bool) : (advPart (selectParent s b), nextNo (selectParent s b)) = (advPart s, nextNo s) := by
  unfold selectParent
  split <;> rfl

theorem primaryDown_kept (s : State) : (advPart (primaryDown s), (primaryDown s).tmk.missRun) = (advPart s, s.tmk.missRun) := by
  unfold primaryDown selectParent
  dsimp only
  split
  · split <;> rfl
  · rfl

theorem stationTick_advances (s : State) (hg : generates s = true) (hn : s.tmk.nextPs ≤ nowPs s) :
    ∃ u, stationTick s = some u ∧ advPart u = (nextNo s, 0, s.tmk.nextPs, true, s.lt, s.cores) := by
  unfold stationTick
  rw [hg, decide_eq_false (by omega : ¬ nowPs s < s.tmk.nextPs), if_neg (by simp)]
  refine ⟨_, rfl, ?_⟩
  rw [← advPart_tickAdvance]
  dsimp only
  split
  · split <;> rfl
  · split <;> rfl

theorem symbolTick_advances (s : State) (c : Nat × Bool × Bool × Bool) (hg : generates s = false) (hc : tickChoice s = some c) (hn : c.1 ≤ nowPs s) :
    ∃ u, symbolTick s = some u ∧ advPart u = (nextNo s, 0, c.1, true, s.lt, s.cores) := by
  obtain ⟨inst, sec, next, skew⟩ := c
  unfold symbolTick
  rw [hg, if_neg Bool.false_ne_true, hc]
  dsimp only
  rw [if_neg (by omega)]
  obtain ⟨u, hu⟩ : ∃ u, u = modTmk (tickAdvance (selectParent s sec) inst) fun t => { t with follow := true } := ⟨_, rfl⟩
  have hadv : advPart u = (nextNo s, 0, inst, true, s.lt, s.cores) := by
    have hsel := selectParent_kept s sec
    simp only [advPart, Prod.mk.injEq] at hsel
    obtain ⟨⟨-, -, -, -, hlt, hcores⟩, hno⟩ := hsel
    rw [hu, ← hno, ← hlt, ← hcores]
    rfl
  rw [← hu]
  refine ⟨_, rfl, ?_⟩
  rw [(Prod.mk.inj (primaryDown_kept _)).1, (Prod.mk.inj (selectParent_kept _ next)).1, advPart_ite _ _ _ (advPart_tmkFlag ..),
    advPart_ite _ _ _ (advPart_tmkFlag ..), advPart_ite _ _ _ (advPart_tmkFlag ..), hadv]

theorem missedTick_advances (s : State) (hg : generates s = false) (ht : s.tmk.ticked = true) (hc : tickChoice s = none) (hn : expectPs s ≤ nowPs s) :
    ∃ u, missedTick s = some u ∧ advPart u = (nextNo s, 0, expectPs s, true, s.lt, s.cores) ∧
      (inPass s = false → u.tmk.missRun = min 15 (s.tmk.missRun + 1)) := by
  have hadv := primaryDown_kept (tickAdvance s (expectPs s))
  obtain ⟨u, hu⟩ : ∃ u, u = primaryDown (tickAdvance s (expectPs s)) := ⟨_, rfl⟩
  rw [← hu] at hadv
  obtain ⟨hpart, hmiss⟩ := Prod.mk.inj hadv
  have hmiss : u.tmk.missRun = s.tmk.missRun := hmiss
  unfold missedTick
  rw [hg, ht, hc, decide_eq_false (by omega : ¬ nowPs s < expectPs s), if_neg (by simp)]
  dsimp only
  rw [← hu]
  by_cases hp : inPass s = true
  · rw [if_pos hp]
    exact ⟨u, rfl, hpart, fun h => absurd hp (by rw [h]; decide)⟩
  · rw [if_neg hp]
    obtain ⟨v, hv⟩ : ∃ v, v = tmkFlag (modTmk u fun t => { t with missRun := Nat.min 15 (u.tmk.missRun + 1) }) 1 .tickMissing := ⟨_, rfl⟩
    have hvpart : (advPart v, v.tmk.missRun) = (advPart u, Nat.min 15 (u.tmk.missRun + 1)) := by
      rw [hv, Prod.mk.injEq]
      exact ⟨advPart_tmkFlag .., congrArg Tmk.missRun (report_tmk (flag _ (tmkR 0x004) (2 ^ 1)) ..)⟩
    obtain ⟨hvadv, hvmiss⟩ := Prod.mk.inj hvpart
    rw [← hv]
    refine ⟨_, rfl, ?_, fun _ => ?_⟩
    · rw [advPart_ite _ _ _ (advPart_report v ..), hvadv, hpart]; rfl
    · rw [apply_ite State.tmk, report_tmk, ite_self, hvmiss, hmiss]

/-- A tick that has been applied: the number, phase and instant it took, the mode command due, and TICK at every running core. -/
theorem applyTick_ticked (s u : State) (x : TickIn) (at_ : Nat) (hu : advPart u = (nextNo s, 0, at_, true, s.lt, s.cores)) :
    let t := applyTick u x
    t.tmk.tick = nextNo s ∧ t.tmk.phase = 0 ∧ t.tmk.lastPs = at_ ∧ t.tmk.ticked = true ∧ t.sys.cmdDue = true ∧
      (∀ n : CoreId, coreRuns (coreOf s n) = true → (coreOf t n).ev.getLsbD 8 = true) ∧ t.lt = s.lt := by
  obtain ⟨hlt, a, htmk⟩ := applyTick_time u x
  simp only [advPart, Prod.mk.injEq] at hu
  obtain ⟨htick, hphase, hlast, hticked, hult, hcores⟩ := hu
  refine ⟨?_, ?_, ?_, ?_, applyTick_cmdDue u x, fun n hn => applyTick_raises u x n (by rw [coreOf, hcores]; exact hn), hlt.trans hult⟩
  · rw [htmk, ← htick]
  · rw [htmk, ← hphase]
  · rw [htmk, ← hlast]
  · rw [htmk, ← hticked]

theorem tickWhen_some {f : State → Option State} {x : TickIn} {s u : State} (h : f s = some u) : tickWhen f x s = applyTick u x := by
  rw [tickWhen, h]

/-- A symbol of the primary port alone decides the tick. -/
theorem tickChoice_primary (s : State) (p : Nat) (y : TickSym) (hp : primPort s = some p) (hy : kget none s.tmk.sym p = some y)
    (hs : ∀ q, secPort s = some q → kget none s.tmk.sym q = none) : tickChoice s = some (symInstant s p y, false, false, false) := by
  unfold tickChoice
  rw [hp]
  cases hq : secPort s with
  | none => simp [hy]
  | some q => simp [hy, hs q hq]

/-- Settles O24: each of the three ways advances the time base once, and the work of the tick keeps it. -/
theorem tickIsApplied : Obligations.TickIsApplied := by
  intro x s hr
  have hsymbol : ∀ c, generates s = false → tickChoice s = some c → c.1 ≤ nowPs s → Answers (.tickApply x) s fun t =>
      t.tmk.tick = nextNo s ∧ t.tmk.phase = 0 ∧ t.tmk.lastPs = c.1 ∧ t.tmk.ticked = true ∧ t.sys.cmdDue = true ∧
        (∀ n : CoreId, coreRuns (coreOf s n) = true → (coreOf t n).ev.getLsbD 8 = true) ∧ t.lt = s.lt := fun c hg hc hn => by
    obtain ⟨u, hu, hadv⟩ := symbolTick_advances s c hg hc hn
    refine answers_live rfl hr ?_
    rw [tickWhen_some hu]
    exact applyTick_ticked s u x _ hadv
  refine ⟨fun hg hn => answers_live rfl hr ?_, fun p y hg hp hy hs hn => ?_, hsymbol, fun hg ht hc hn => answers_live rfl hr ?_⟩
  · obtain ⟨u, hu, hadv⟩ := stationTick_advances s hg hn
    rw [tickWhen_some hu]
    exact applyTick_ticked s u x _ hadv
  · exact hsymbol _ hg (tickChoice_primary s p y hp hy hs) hn
  · obtain ⟨u, hu, hadv, hmiss⟩ := missedTick_advances s hg ht hc hn
    rw [tickWhen_some hu]
    obtain ⟨-, a, htmk⟩ := applyTick_time u x
    exact ⟨applyTick_ticked s u x _ hadv, fun hp => by rw [htmk, ← hmiss hp]⟩

end Sys2Proof.Machine
end

section
/-! SUPPORT. The station port: frames that wait and leave, frames that are received, and sampled values (R317 to R329). -/

namespace Sys2Proof.Machine

open Sys2Proof

/-! Which frame leaves. -/

/-- The frame of the lowest group. -/
theorem ethPick_lowest (l : List EthTx) (f : EthTx) (h : ethPick l = some f) : f ∈ l ∧ ∀ g ∈ l, g.group ≤ 5 → f.group ≤ g.group := by
  rw [ethPick, List.head?_filterMap, List.findSome?_eq_some_iff] at h
  obtain ⟨before, a, after, hrange, hfind, hnone⟩ := h
  have hgroup : f.group = a := by simpa using List.find?_some hfind
  refine ⟨List.mem_of_find?_eq_some hfind, fun g hg h5 => ?_⟩
  have hsorted := (List.pairwise_lt_range (n := 6))
  rw [hrange, List.pairwise_append] at hsorted
  have hmem : g.group ∈ before ++ a :: after := hrange ▸ List.mem_range.mpr (by omega)
  rcases List.mem_append.mp hmem with hb | hb
  · have hno := List.find?_eq_none.mp (hnone _ hb) g hg
    simp at hno
  · rcases List.mem_cons.mp hb with rfl | hb
    · omega
    · have hlt := (List.pairwise_cons.mp hsorted.2.1).1 _ hb
      omega

theorem ethPick_single (f : EthTx) (h : f.group = 5) : ethPick [f] = some f := by
  simp [ethPick, List.range, List.range.loop, h]

/-! Bytes of a PTP message. -/

theorem foldl_be_reverse (l : List Byte) : l.reverse.foldl (fun a b => a * 256 + b.toNat) 0 = leNat l := by
  rw [List.foldl_reverse]
  induction l with
  | nil => rfl
  | cons b l ih => rw [List.foldr_cons, ih, leNat]; omega

/-- The big-endian number of n bytes that stand at a place. -/
theorem beAt_of_drop {l : List Byte} {i n v : Nat} {rest : List Byte} (h : l.drop i = (natLe n v).reverse ++ rest) : beAt l i n = v % 256 ^ n := by
  rw [beAt, h, List.take_left' (by rw [List.length_reverse, length_natLe]), foldl_be_reverse, leNat_natLe]

theorem drop_putBytes_at (l bs : List Byte) (i : Nat) (h : i ≤ l.length) : (putBytes l i bs).drop i = bs ++ l.drop (i + bs.length) := by
  rw [putBytes, List.append_assoc, List.drop_left' (by rw [List.length_take]; omega)]

/-- Bytes behind those that are replaced stand. -/
theorem drop_putBytes_behind (l bs : List Byte) (i j : Nat) (h : i + bs.length ≤ j) (hl : i ≤ l.length) : (putBytes l i bs).drop j = l.drop j := by
  have hdrop : (putBytes l i bs).drop j = ((putBytes l i bs).drop i).drop (j - i) := by rw [List.drop_drop]; congr 1; omega
  rw [hdrop, drop_putBytes_at l bs i hl, List.drop_append, List.drop_eq_nil_of_le (by omega), List.nil_append, List.drop_drop]
  congr 1
  omega

theorem length_putBytes (l bs : List Byte) (i : Nat) (h : i + bs.length ≤ l.length) : (putBytes l i bs).length = l.length := by
  simp only [putBytes, List.length_append, List.length_take, List.length_drop]
  omega

/-- A Sync of the part's own carries the time of its PT as it leaves. -/
theorem ptpOut_sync (s : State) (e : Nat) (g : EthTx) (o q : Nat) (hat : ptpAt g.what = some o) (hrx : g.rx = none)
    (hsync : ptpType g.what o = 0) :
    (ptpOut s e (now s) (some q) g).what =
      ptpCorrect (putBytes g.what (o + 34) ((natLe 6 (ptSec (ptAt s q 0))).reverse ++ (natLe 4 (ptNs (ptAt s q 0))).reverse)) o ((ptAt s q 0 : Int) % ptOne) := by
  unfold ptpOut
  simp only [hat, hrx, hsync, sub_self, if_true]

theorem ptpOut_time (s : State) (e : Nat) (g : EthTx) (o q : Nat) (hat : ptpAt g.what = some o) (hlen : o + 44 ≤ g.what.length) (hrx : g.rx = none)
    (hsync : ptpType g.what o = 0) :
    beAt (ptpOut s e (now s) (some q) g).what (o + 34) 6 = ptSec (ptAt s q 0) % 2 ^ 48 ∧ beAt (ptpOut s e (now s) (some q) g).what (o + 40) 4 = ptNs (ptAt s q 0) := by
  obtain ⟨bs, hbs⟩ : ∃ bs, bs = (natLe 6 (ptSec (ptAt s q 0))).reverse ++ (natLe 4 (ptNs (ptAt s q 0))).reverse := ⟨_, rfl⟩
  have hten : bs.length = 10 := by rw [hbs, List.length_append, List.length_reverse, List.length_reverse, length_natLe, length_natLe]
  have hput : (putBytes g.what (o + 34) bs).length = g.what.length := length_putBytes _ _ _ (by omega)
  have hdrop : (ptpOut s e (now s) (some q) g).what.drop (o + 34) =
      (natLe 6 (ptSec (ptAt s q 0))).reverse ++ ((natLe 4 (ptNs (ptAt s q 0))).reverse ++ g.what.drop (o + 34 + bs.length)) := by
    rw [ptpOut_sync s e g o q hat hrx hsync, ← hbs, ptpCorrect,
      drop_putBytes_behind _ _ _ _ (by rw [List.length_reverse, length_natLe]; omega) (by omega), drop_putBytes_at _ _ _ (by omega), hbs, List.append_assoc]
  refine ⟨beAt_of_drop hdrop, ?_⟩
  have hdrop6 : (ptpOut s e (now s) (some q) g).what.drop (o + 40) = (natLe 4 (ptNs (ptAt s q 0))).reverse ++ g.what.drop (o + 34 + bs.length) := by
    rw [show o + 40 = o + 34 + 6 from rfl, ← List.drop_drop, hdrop, List.drop_left' (by rw [List.length_reverse, length_natLe])]
  rw [beAt_of_drop hdrop6]
  refine Nat.mod_eq_of_lt (Nat.lt_trans (Nat.mod_lt _ (by decide)) (by decide))

/-! Frames that wait. -/

/-- From s to t only waiting frames change. -/
def TxqOnly (s t : State) : Prop := ∃ q, t = { s with stp := { s.stp with txq := q } }

theorem TxqOnly.trans {s t u : State} (a : TxqOnly s t) (b : TxqOnly t u) : TxqOnly s u := by
  obtain ⟨q, rfl⟩ := a
  obtain ⟨q', rfl⟩ := b
  exact ⟨q', rfl⟩

theorem txq_ethQueue (s : State) (e q : Nat) (f : EthTx) :
    kget [] (ethQueue s e f).stp.txq q = kget [] s.stp.txq q ++ if q = e then [f] else [] := by
  show kget [] (kput [] s.stp.txq e (kget [] s.stp.txq e ++ [f])) q = _
  rw [kget_kput]
  split
  next h => rw [h]
  next => rw [List.append_nil]

theorem foldl_ethQueue_txqOnly (l : List Nat) (f : EthTx) (s : State) : TxqOnly s (l.foldl (fun s e => ethQueue s e f) s) := by
  induction l generalizing s with
  | nil => exact ⟨s.stp.txq, rfl⟩
  | cons e l ih => exact TxqOnly.trans ⟨_, rfl⟩ (ih (ethQueue s e f))

theorem txq_foldl_ethQueue (l : List Nat) (f : EthTx) (s : State) (q : Nat) (h : l.Nodup) :
    kget [] (l.foldl (fun s e => ethQueue s e f) s).stp.txq q = kget [] s.stp.txq q ++ if q ∈ l then [f] else [] := by
  induction l generalizing s with
  | nil => simp
  | cons e l ih =>
    obtain ⟨he, hl⟩ := List.nodup_cons.mp h
    rw [List.foldl_cons, ih _ hl, txq_ethQueue, List.append_assoc]
    by_cases hq : q = e
    · subst hq; simp [he]
    · simp [hq]

theorem ethOrig_txqOnly (s : State) (ps : List Nat) (f : EthTx) : TxqOnly s (ethOrig s ps f) := by
  unfold ethOrig
  dsimp only
  split
  · exact ⟨s.stp.txq, rfl⟩
  · exact foldl_ethQueue_txqOnly ..

theorem txq_ethOrig (s : State) (ps : List Nat) (f : EthTx) (q : Nat) (h : ps.Nodup) :
    kget [] (ethOrig s ps f).stp.txq q =
      kget [] s.stp.txq q ++ if q ∈ ps ∧ f.len + tagLen s ≤ 1518 then [{ f with len := f.len + tagLen s }] else [] := by
  unfold ethOrig
  dsimp only
  split
  next hlong => rw [if_neg fun c => absurd c.2 (by omega), List.append_nil]
  next hshort =>
    rw [txq_foldl_ethQueue _ _ _ _ h]
    by_cases hq : q ∈ ps
    · rw [if_pos hq, if_pos ⟨hq, by omega⟩]
    · rw [if_neg hq, if_neg fun c => hq c.1]

theorem ethPorts_nodup (s : State) : (ethPorts s).Nodup := by
  have hup : ([0, 1].filter (ethUp s)).Nodup := List.Nodup.filter _ (by decide)
  unfold ethPorts
  dsimp only
  split
  · exact hup.sublist (List.take_sublist _ _)
  · exact hup

/-- A frame queued on a port of a part without redundancy waits there. -/
theorem ethFrom_single (s : State) (e : Nat) (f : EthTx) (hred : redMode s = 0) (hf : f.len ≤ 1518) : ethFrom s e f = ethQueue s e f := by
  rw [ethFrom, hred, if_pos rfl, ethOrig, tagLen, hred, if_pos rfl]
  dsimp only
  rw [if_neg (by omega)]
  rfl

/-! Transmission. -/

/-- What a frame carries as it leaves does not depend on the frames that wait. -/
theorem ptpOut_of_queues (s : State) (x : KV (List EthTx)) (b : KV Nat) (e at_ : Nat) (n : Option Nat) (f : EthTx) :
    ptpOut { s with stp := { s.stp with txq := x, busyTil := b } } e at_ n f = ptpOut s e at_ n f := by
  have hat : ∀ k d, ptAt { s with stp := { s.stp with txq := x, busyTil := b } } k d = ptAt s k d := fun _ _ => rfl
  have hspan : ∀ k d, ptSpan { s with stp := { s.stp with txq := x, busyTil := b } } k d = ptSpan s k d := fun _ _ => rfl
  simp only [ptpOut, hat, hspan]
  rfl

/-- A frame as it leaves a port. -/
def ethOut (s : State) (e : Fin 2) (n : Option Nat) (g : EthTx) : EthTx := if ethRaw g then ptpOut s e (now s) n g else epochNow s g

theorem ethOut_len (s : State) (e : Fin 2) (n : Option Nat) (g : EthTx) : (ethOut s e n g).len = g.len := by
  unfold ethOut
  split
  · exact (Prod.mk.inj (ptpOut_kept s e (now s) n g)).2
  · exact (Prod.mk.inj (epochNow_kept s g)).2

/-- A frame leaves a free port: the port is busy for its time and the frame no longer waits. -/
theorem ethStart_eq (s : State) (e : Fin 2) (n : Option Nat) (g : EthTx) :
    ethStart (modStp s fun t => { t with txq := kmod [] t.txq e (·.erase g) }) e (now s) n g =
      { s with stp := { s.stp with txq := kput [] s.stp.txq e ((kget [] s.stp.txq e).erase g), busyTil := kput 0 s.stp.busyTil e (now s + ethTime g.len) },
               sent := s.sent ++ [.eth e (ethOut s e n g)] } := by
  rw [ethOut, ← ptpOut_of_queues s (kput [] s.stp.txq e ((kget [] s.stp.txq e).erase g)) (kput 0 s.stp.busyTil e (now s + ethTime g.len))]
  rfl

theorem ethStart_taken (s : State) (e : Fin 2) (n : Option Nat) (g : EthTx) :
    let t := ethStart (modStp s fun t => { t with txq := kmod [] t.txq e (·.erase g) }) e (now s) n g
    t.sent = s.sent ++ [.eth e (ethOut s e n g)] ∧ kget [] t.stp.txq e = (kget [] s.stp.txq e).erase g ∧
      kget 0 t.stp.busyTil e = now s + ((ethOut s e n g).len + 20) * 4 ∧ { t with stp := s.stp, sent := s.sent } = s := by
  rw [ethStart_eq, ethOut_len]
  exact ⟨rfl, kget_kput_same [] s.stp.txq e.val _, kget_kput_same 0 s.stp.busyTil e.val (now s + ethTime g.len), rfl⟩

theorem supervise_single (s : State) (h : redMode s = 0) : supervise s = s := by rw [supervise, h, if_pos (.inl rfl)]

/-- What leaves a port that is up: the frame picked, where neither a frame nor a launch slot occupies it. -/
def ethLeave (s : State) (e : Fin 2) : State :=
  if now s < kget 0 s.stp.busyTil e ∨ lchBlocks s e then s
  else match ethPick (kget [] s.stp.txq e) with
    | some f => ethStart (modStp s fun t => { t with txq := kmod [] t.txq e (·.erase f) }) e (now s) (ptpInst s e f) f
    | none => s

theorem ethTx_single (s : State) (e : Fin 2) (d : Option (BitVec 8)) (u : State) (hu : ethFirmware s e d = u) (hup : ethUp s e = true) (hred : redMode u = 0) :
    ethTx s e d = ethLeave u e := by
  unfold ethTx
  rw [hup, hu, supervise_single u hred]
  cases hp : ethPick (kget [] u.stp.txq e) <;> simp only [ethLeave, hp, Bool.not_true, Bool.false_eq_true, if_false]

theorem ethLeave_idle (s : State) (e : Fin 2) (h : now s < kget 0 s.stp.busyTil e ∨ lchBlocks s e = true ∨ ethPick (kget [] s.stp.txq e) = none) :
    ethLeave s e = s := by
  unfold ethLeave
  split
  · rfl
  next hfree =>
    rw [(h.resolve_left fun c => hfree (.inl c)).resolve_left fun c => hfree (.inr c)]

theorem ethLeave_picked (s : State) (e : Fin 2) (g : EthTx) (hbusy : kget 0 s.stp.busyTil e ≤ now s) (hl : lchBlocks s e = false)
    (hg : ethPick (kget [] s.stp.txq e) = some g) :
    ethLeave s e = ethStart (modStp s fun t => { t with txq := kmod [] t.txq e (·.erase g) }) e (now s) (ptpInst s e g) g := by
  have hfree : ¬ (now s < kget 0 s.stp.busyTil e ∨ lchBlocks s e = true) := by rw [hl]; simp; omega
  rw [ethLeave, if_neg hfree, hg]

/-! Reception. -/

theorem ethTake_down (s : State) (e : Nat) (f : EthFrame) (h : ethUp s e = false) : ethTake s e f = (s, false) := by
  rw [ethTake, h]
  rfl

theorem ethTake_damaged (s : State) (e : Nat) (f : EthFrame) (h : ethUp s e = true) (hbad : 1528 < f.len ∨ f.fcsOk = false) :
    ethTake s e f = (countUp s (stpR 0x030) 31 0, false) := by
  rw [ethTake, h, if_neg (by decide), if_pos hbad]

/-- A frame is looked up among those received: the first copy goes on to its function. -/
def ethLookUp (s : State) (l : List Byte) : State × Bool :=
  match ethSeq s l with
  | none => (s, true)
  | some q =>
    if (dupLive s).any fun d => d.1 == ethSource l && d.2.1 == q then (countUp s (stpR 0x038) 31 0, false)
    else (modStp s fun t => { t with dup := ((ethSource l, q, now s) :: dupLive s).take 512 }, true)

/-- A whole frame is stamped, forwarded and looked up. -/
theorem ethTake_whole (s : State) (e : Nat) (f : EthFrame) (h : ethUp s e = true) (hlen : f.len ≤ 1528) (hok : f.fcsOk = true) :
    ethTake s e f =
      let u := ethForward (ethStamp s e f.bytes) e f.bytes
      if redMode u = 2 ∧ ethSource f.bytes = BitVec.ofNat 48 (beAt (ownMac u) 0 6) then (u, false) else ethLookUp u f.bytes := by
  have hgood : ¬ (1528 < f.len ∨ f.fcsOk = false) := by rw [hok]; simp; omega
  unfold ethTake
  rw [h, if_neg (by decide), if_neg hgood]
  cases hq : ethSeq (ethForward (ethStamp s e f.bytes) e f.bytes) f.bytes <;> simp only [ethLookUp, hq]

theorem ethStamp_plain (s : State) (e : Nat) (l : List Byte) (h : ptpEvent l = none) : ethStamp s e l = s := by
  unfold ethStamp
  rw [h]

/-- Arrival stamps are kept for a PTP event message. -/
theorem ethStamp_only (s : State) (e : Nat) (l : List Byte) : ∃ x y, ethStamp s e l = { s with stp := { s.stp with stamp := x, pdReq := y } } := by
  unfold ethStamp
  dsimp only
  split
  · split
    · exact ⟨_, _, rfl⟩
    · exact ⟨_, s.stp.pdReq, rfl⟩
  · exact ⟨s.stp.stamp, s.stp.pdReq, rfl⟩

theorem ethStamp_event (s : State) (e : Nat) (l : List Byte) (o : Nat) (h : ptpEvent l = some o) :
    kget none (ethStamp s e l).stp.stamp e = some (ptpStamp s e (now s - 4 * (l.length + 4)) l o) := by
  unfold ethStamp
  rw [h]
  dsimp only
  split
  · exact kget_kput_same none s.stp.stamp e (some (ptpStamp s e (now s - 4 * (l.length + 4)) l o))
  · exact kget_kput_same none s.stp.stamp e (some (ptpStamp s e (now s - 4 * (l.length + 4)) l o))

theorem ethForward_single (s : State) (e : Nat) (l : List Byte) (h : redMode s ≠ 2) : ethForward s e l = s := by
  rw [ethForward, if_pos (.inl h)]

theorem ethSeq_single (s : State) (l : List Byte) (h : redMode s = 0) : ethSeq s l = none := by
  simp [ethSeq, h]

/-- A part without redundancy takes every whole frame as the first copy. -/
theorem ethTake_single (s : State) (e : Nat) (f : EthFrame) (h : ethUp s e = true) (hlen : f.len ≤ 1528) (hok : f.fcsOk = true) (hred : redMode s = 0) :
    ethTake s e f = (ethStamp s e f.bytes, true) := by
  obtain ⟨x, y, hs⟩ := ethStamp_only s e f.bytes
  have hred' : redMode (ethStamp s e f.bytes) = 0 := by rw [hs]; exact hred
  rw [ethTake_whole s e f h hlen hok]
  dsimp only
  rw [ethForward_single _ _ _ (by omega), if_neg (fun c => absurd c.1 (by omega)), ethLookUp, ethSeq_single _ _ hred']

theorem ethUntag_single (s : State) (l : List Byte) (h : redMode s = 0) : ethUntag s l = l := by
  rw [ethUntag, ethSeq_single s l h]
  rfl

/-- In PRP the second copy of a frame is counted. -/
theorem ethTake_duplicate (s : State) (e : Nat) (f : EthFrame) (q : BitVec 16) (h : ethUp s e = true) (hlen : f.len ≤ 1528) (hok : f.fcsOk = true)
    (hred : redMode s = 1) (hev : ptpEvent f.bytes = none) (hq : ethSeq s f.bytes = some q)
    (hdup : ∃ d ∈ s.stp.dup, d.1 = ethSource f.bytes ∧ d.2.1 = q ∧ now s < d.2.2 + 200000000) :
    ethTake s e f = (countUp s (stpR 0x038) 31 0, false) := by
  have hany : ((dupLive s).any fun d => d.1 == ethSource f.bytes && d.2.1 == q) = true := by
    obtain ⟨d, hd, hsrc, hseq, hyoung⟩ := hdup
    refine List.any_eq_true.mpr ⟨d, ?_, by simp [hsrc, hseq]⟩
    exact List.mem_filter.mpr ⟨hd, decide_eq_true (show now s < d.2.2 + ms 400 from hyoung)⟩
  rw [ethTake_whole s e f h hlen hok, ethStamp_plain s e _ hev]
  dsimp only
  rw [ethForward_single _ _ _ (by omega), if_neg (fun c => absurd c.1 (by omega)), ethLookUp, hq]
  dsimp only
  rw [hany, if_pos rfl]

/-- What becomes of a frame that a port has taken. -/
def ethGiven (s : State) (e : Nat) (l : List Byte) : State :=
  match arpReply s l, echoReply s l with
  | some b, _ => ethFrom s e ⟨5, ethLen b, none, b, none⟩
  | none, some b => ethFrom s e ⟨5, ethLen b, none, b, none⟩
  | none, none =>
    if ethConsumed s l then s
    else if s.stp.ring.length < 64 then
      modStp s fun t => { t with ring := t.ring ++ [⟨l, if (ptpEvent l).isSome then kget none t.stamp e else none⟩] }
    else countUp s (stpR 0x034) 31 0

/-- The ring after firmware has taken descriptors. -/
def ringFreed (s : State) (n : Nat) : State := { s with stp := { s.stp with ring := s.stp.ring.drop n } }

theorem ethFrameIn_eq (s : State) (e : Nat) (f : EthFrame) (n : Nat) :
    ethFrameIn s e f n = if (ethTake (ringFreed s n) e f).2 then ethGiven (ethTake (ringFreed s n) e f).1 e (ethUntag (ethTake (ringFreed s n) e f).1 f.bytes)
      else (ethTake (ringFreed s n) e f).1 := by
  unfold ethFrameIn
  rw [show (modStp s fun t => { t with ring := t.ring.drop n }) = ringFreed s n from rfl]
  generalize hr : ethTake (ringFreed s n) e f = r
  dsimp only
  rw [hr]
  obtain ⟨u, b⟩ := r
  cases b
  · simp only [Bool.not_false, Bool.false_eq_true, if_false, if_true]
  · simp only [Bool.not_true, Bool.false_eq_true, if_false, if_true]
    generalize ethUntag u f.bytes = l
    cases ha : arpReply u l with
    | some b => simp only [ethGiven, ha]
    | none => cases he : echoReply u l <;> simp only [ethGiven, ha, he]

theorem ethFrameIn_refused (s u : State) (e : Nat) (f : EthFrame) (n : Nat) (h : ethTake (ringFreed s n) e f = (u, false)) : ethFrameIn s e f n = u := by
  rw [ethFrameIn_eq, h]
  rfl

theorem ethFrameIn_single (s : State) (e : Nat) (f : EthFrame) (n : Nat) (h : ethUp s e = true) (hlen : f.len ≤ 1528) (hok : f.fcsOk = true)
    (hred : redMode s = 0) : ethFrameIn s e f n = ethGiven (ethStamp (ringFreed s n) e f.bytes) e f.bytes := by
  obtain ⟨x, y, hs⟩ := ethStamp_only (ringFreed s n) e f.bytes
  have hred' : redMode (ethStamp (ringFreed s n) e f.bytes) = 0 := by rw [hs]; exact hred
  rw [ethFrameIn_eq, ethTake_single (ringFreed s n) e f h hlen hok hred]
  dsimp only
  rw [if_pos rfl, ethUntag_single _ _ hred']

/-- A frame that no function takes. -/
theorem ethGiven_unclaimed (s : State) (e : Nat) (l : List Byte) (ha : arpReply s l = none) (he : echoReply s l = none) (hc : ethConsumed s l = false) :
    ethGiven s e l = if s.stp.ring.length < 64 then
      modStp s fun t => { t with ring := t.ring ++ [⟨l, if (ptpEvent l).isSome then kget none t.stamp e else none⟩] } else countUp s (stpR 0x034) 31 0 := by
  unfold ethGiven
  rw [ha, he]
  dsimp only
  rw [hc, if_neg Bool.false_ne_true]

/-- A request that is answered. -/
theorem ethGiven_reply (s : State) (e : Nat) (l b : List Byte) (h : arpReply s l = some b ∨ (arpReply s l = none ∧ echoReply s l = some b)) :
    ethGiven s e l = ethFrom s e ⟨5, ethLen b, none, b, none⟩ := by
  unfold ethGiven
  rcases h with ha | ⟨ha, he⟩
  · rw [ha]
  · rw [ha, he]

theorem stp_countUp (s : State) (a hi lo : Nat) : (countUp s a hi lo).stp = s.stp := by
  unfold countUp
  dsimp only
  split <;> rfl

theorem countUp_regsOnly (s : State) (a hi lo : Nat) : { countUp s a hi lo with regs := s.regs } = s := by
  unfold countUp
  dsimp only
  split <;> rfl

/-- What a port does with a frame it has taken leaves what it has forwarded and the frames that wait. -/
theorem ethGiven_kept (s : State) (e : Nat) (l : List Byte) : (ethGiven s e l).stp.fwdSeen = s.stp.fwdSeen ∧
    ∀ q, ∃ r, kget [] (ethGiven s e l).stp.txq q = kget [] s.stp.txq q ++ r := by
  have hfrom : ∀ g, (ethFrom s e g).stp.fwdSeen = s.stp.fwdSeen ∧ ∀ q, ∃ r, kget [] (ethFrom s e g).stp.txq q = kget [] s.stp.txq q ++ r := by
    intro g
    have hports : (if redMode s = 0 then [e] else ethPorts s).Nodup := by
      split
      · exact List.nodup_singleton e
      · exact ethPorts_nodup s
    obtain ⟨x, hx⟩ := ethOrig_txqOnly s (if redMode s = 0 then [e] else ethPorts s) g
    exact ⟨by rw [ethFrom, hx], fun q => ⟨_, txq_ethOrig s _ g q hports⟩⟩
  unfold ethGiven
  split
  · exact hfrom _
  · exact hfrom _
  split
  · exact ⟨rfl, fun q => ⟨[], (List.append_nil _).symm⟩⟩
  split
  · exact ⟨rfl, fun q => ⟨[], (List.append_nil _).symm⟩⟩
  · rw [stp_countUp]; exact ⟨rfl, fun q => ⟨[], (List.append_nil _).symm⟩⟩

/-! HSR. -/

theorem ethForward_seen (s : State) (e : Nat) (l : List Byte) (q : BitVec 16) (hq : ethSeq s l = some q)
    (h : s.stp.fwdSeen.contains (e, ethSource l, q) = true) : ethForward s e l = s := by
  unfold ethForward
  dsimp only
  rw [if_pos (.inr (.inr (.inr (.inr (.inr (by rw [hq]; exact h))))))]

theorem ethForward_new (s : State) (e : Nat) (l : List Byte) (q : BitVec 16) (hred : redMode s = 2) (hup : ethUp s (1 - e) = true)
    (hmac : l.take 6 ≠ ownMac s) (hsrc : ethSource l ≠ BitVec.ofNat 48 (beAt (ownMac s) 0 6)) (hptp : ptpAt l = none) (hq : ethSeq s l = some q)
    (h : s.stp.fwdSeen.contains (e, ethSource l, q) = false) :
    ethForward s e l = ethQueue (modStp s fun t => { t with fwdSeen := ((e, ethSource l, q) :: s.stp.fwdSeen).take 512 }) (1 - e)
      ⟨5, l.length + 4, none, l, none⟩ := by
  have hgo : ¬ (redMode s ≠ 2 ∨ l.take 6 = ownMac s ∨ ethSource l = BitVec.ofNat 48 (beAt (ownMac s) 0 6) ∨ (!ethUp s (1 - e)) = true ∨
      ((ptpAt l).isSome = true ∧ rb s (stpR 0) 10 = false) ∨ (ethSeq s l).any (fun q => s.stp.fwdSeen.contains (e, ethSource l, q)) = true) := by
    rw [hq, hptp, hup, Option.any_some, h]
    simp [hred, hmac, hsrc]
  unfold ethForward
  dsimp only
  rw [if_neg hgo, hq, hptp]
  rfl

/-- The look-up among received frames leaves what has been forwarded and waits. -/
theorem ethTake_kept (s : State) (e : Nat) (f : EthFrame) (h : ethUp s e = true) (hlen : f.len ≤ 1528) (hok : f.fcsOk = true) (hev : ptpEvent f.bytes = none) :
    ((ethTake s e f).1.stp.fwdSeen, (ethTake s e f).1.stp.txq) = ((ethForward s e f.bytes).stp.fwdSeen, (ethForward s e f.bytes).stp.txq) := by
  rw [ethTake_whole s e f h hlen hok, ethStamp_plain s e _ hev]
  dsimp only
  split
  · rfl
  unfold ethLookUp
  split
  · rfl
  split
  · dsimp only; rw [stp_countUp]
  · rfl

theorem ethFrameIn_kept (s : State) (e : Nat) (f : EthFrame) (n : Nat) (h : ethUp s e = true) (hlen : f.len ≤ 1528) (hok : f.fcsOk = true)
    (hev : ptpEvent f.bytes = none) : (ethFrameIn s e f n).stp.fwdSeen = (ethForward (ringFreed s n) e f.bytes).stp.fwdSeen ∧
      ∀ q, ∃ r, kget [] (ethFrameIn s e f n).stp.txq q = kget [] (ethForward (ringFreed s n) e f.bytes).stp.txq q ++ r := by
  obtain ⟨hseen, htxq⟩ := Prod.mk.inj (ethTake_kept (ringFreed s n) e f h hlen hok hev)
  rw [ethFrameIn_eq, ← hseen, ← htxq]
  split
  · exact ethGiven_kept _ _ _
  · exact ⟨rfl, fun q => ⟨[], (List.append_nil _).symm⟩⟩

/-- A frame that is not addressed to the part alone goes on through the other port, once. -/
theorem ethFrameIn_forwards (s : State) (e : Fin 2) (f : EthFrame) (n : Nat) (q : BitVec 16) (h : ethUp s e = true) (hlen : f.len ≤ 1528) (hok : f.fcsOk = true)
    (hred : redMode s = 2) (hup : ethUp s (1 - e.val) = true) (hmac : f.bytes.take 6 ≠ ownMac s)
    (hsrc : ethSource f.bytes ≠ BitVec.ofNat 48 (beAt (ownMac s) 0 6)) (hptp : ptpAt f.bytes = none) (hq : ethSeq s f.bytes = some q) :
    if s.stp.fwdSeen.contains (e.val, ethSource f.bytes, q) then (ethFrameIn s e f n).stp.fwdSeen = s.stp.fwdSeen
    else (∃ l, kget [] (ethFrameIn s e f n).stp.txq (1 - e.val) = kget [] s.stp.txq (1 - e.val) ++ ⟨5, f.len, none, f.bytes, none⟩ :: l) ∧
      (e.val, ethSource f.bytes, q) ∈ (ethFrameIn s e f n).stp.fwdSeen := by
  have hev : ptpEvent f.bytes = none := by rw [ptpEvent, hptp]; rfl
  obtain ⟨hseen, htxq⟩ := ethFrameIn_kept s e f n h hlen hok hev
  by_cases hc : s.stp.fwdSeen.contains (e.val, ethSource f.bytes, q) = true
  · rw [if_pos hc, hseen, ethForward_seen (ringFreed s n) e f.bytes q hq hc]
    rfl
  · rw [if_neg hc, hseen]
    have hnew := ethForward_new (ringFreed s n) e f.bytes q hred hup hmac hsrc hptp hq (Bool.eq_false_iff.mpr hc)
    obtain ⟨r, hr⟩ := htxq (1 - e.val)
    rw [hnew] at hr ⊢
    refine ⟨⟨r, ?_⟩, List.mem_cons_self⟩
    rw [hr, txq_ethQueue, if_pos rfl, List.append_assoc]
    rfl

/-! Sampled values. -/

/-- A trigger touches the loop engine, and the bus where the cascade is in overrun. -/
def TriggerOnly (s t : State) : Prop := ∃ b l, t = { s with flt := { s.flt with bus := b }, lpe := l }

theorem TriggerOnly.trans {s t u : State} (a : TriggerOnly s t) (b : TriggerOnly t u) : TriggerOnly s u := by
  obtain ⟨x, y, rfl⟩ := a
  obtain ⟨x', y', rfl⟩ := b
  exact ⟨x', y', rfl⟩

theorem qTrigger_only (s : State) (c : Nat) (hit : Option (Nat × Word)) (h : notInjecting s = true) : TriggerOnly s (qTrigger s c hit) := by
  unfold qTrigger
  dsimp only
  rw [report_quiet s _ _ _ h]
  split
  · exact ⟨_, _, rfl⟩
  · exact ⟨s.flt.bus, _, rfl⟩

theorem lpe_report (s : State) (src : Nat) (k : Kind) (a : Nat) : (report s src k a).lpe = s.lpe := by
  unfold report whenB
  dsimp only
  split <;> rfl

theorem qTrigger_pends (s : State) (c : Nat) (hit : Option (Nat × Word)) : ⟨c, hit⟩ ∈ (qTrigger s c hit).lpe.pend :=
  List.mem_append_right _ (List.mem_singleton_self _)

/-- A cascade that waits goes on waiting, whichever is triggered. -/
theorem qTrigger_keeps_pend (s : State) (c q : Nat) (hit : Option (Nat × Word)) (h : ⟨q, hit⟩ ∈ s.lpe.pend) : ⟨q, hit⟩ ∈ (qTrigger s c hit).lpe.pend := by
  by_cases e : q = c
  · subst e; exact qTrigger_pends s q hit
  · refine List.mem_append_left _ (List.mem_filter.mpr ⟨?_, by simpa using e⟩)
    split
    · rw [lpe_report]; exact h
    · exact h

/-- A cascade of the trigger source is triggered. -/
def qTriggerAt (trig ix : Nat) (hit : Option (Nat × Word)) (s : State) (c : Nat) : State :=
  if rb s (qcR c 0) 31 && rf s (qcR c 0) 30 28 == trig && rf s (qcR c 0) 27 24 == ix then qTrigger s c hit else s

theorem qTriggers_eq (s : State) (trig ix : Nat) (hit : Option (Nat × Word)) :
    qTriggers s trig ix hit = (List.range 16).foldl (qTriggerAt trig ix hit) s := rfl

theorem qTriggerAt_only (trig ix : Nat) (hit : Option (Nat × Word)) (s : State) (c : Nat) (h : notInjecting s = true) :
    TriggerOnly s (qTriggerAt trig ix hit s c) := by
  unfold qTriggerAt
  split
  · exact qTrigger_only s c hit h
  · exact ⟨s.flt.bus, s.lpe, rfl⟩

theorem foldl_qTriggerAt_only (trig ix : Nat) (hit : Option (Nat × Word)) (l : List Nat) (s : State) (h : notInjecting s = true) :
    TriggerOnly s (l.foldl (qTriggerAt trig ix hit) s) := by
  induction l generalizing s with
  | nil => exact ⟨s.flt.bus, s.lpe, rfl⟩
  | cons c l ih =>
    have hstep := qTriggerAt_only trig ix hit s c h
    refine hstep.trans (ih _ ?_)
    obtain ⟨b, x, hx⟩ := hstep
    rw [hx, ← h]
    rfl

theorem foldl_qTriggerAt_keeps (trig ix : Nat) (hit : Option (Nat × Word)) (l : List Nat) (s : State) (q : Nat) (h : ⟨q, hit⟩ ∈ s.lpe.pend) :
    ⟨q, hit⟩ ∈ (l.foldl (qTriggerAt trig ix hit) s).lpe.pend := by
  induction l generalizing s with
  | nil => exact h
  | cons c l ih =>
    refine ih _ ?_
    unfold qTriggerAt
    split
    · exact qTrigger_keeps_pend s c q hit h
    · exact h

theorem foldl_qTriggerAt_pends (trig ix : Nat) (hit : Option (Nat × Word)) (l : List Nat) (s : State) (q : Nat) (hi : notInjecting s = true) (hq : q ∈ l)
    (hon : (rb s (qcR q 0) 31 && rf s (qcR q 0) 30 28 == trig && rf s (qcR q 0) 27 24 == ix) = true) :
    ⟨q, hit⟩ ∈ (l.foldl (qTriggerAt trig ix hit) s).lpe.pend := by
  induction l generalizing s with
  | nil => exact absurd hq List.not_mem_nil
  | cons c l ih =>
    rw [List.foldl_cons]
    by_cases e : q = c
    · subst e
      refine foldl_qTriggerAt_keeps trig ix hit l _ q ?_
      rw [qTriggerAt, if_pos hon]
      exact qTrigger_pends s q hit
    · obtain ⟨b, x, hx⟩ := qTriggerAt_only trig ix hit s c hi
      exact ih _ (by rw [hx, ← hi]; rfl) ((List.mem_cons.mp hq).resolve_left e) (by rw [hx, ← hon]; rfl)

theorem qTriggers_none (s : State) (trig ix : Nat) (hit : Option (Nat × Word)) (h : ∀ q, q < 16 → rb s (qcR q 0) 31 = false) : qTriggers s trig ix hit = s :=
  foldl_skip (List.range 16) (fun s c => rb s (qcR c 0) 31 && rf s (qcR c 0) 30 28 == trig && rf s (qcR c 0) 27 24 == ix) (fun s c => qTrigger s c hit) s
    fun q hq => by simp [h q (List.mem_range.mp hq)]

/-- A sample is kept with its time. -/
def svTaken (s : State) (k : Nat) (f : SvFrame) : State :=
  modStp s fun t =>
    { t with svPrev := kput default t.svPrev k (kget default s.stp.svNow k), svNow := kput default t.svNow k ⟨f.values, f.smpCnt, f.synch⟩
             svAt := kput 0 t.svAt k (now s), svSeen := kput false t.svSeen k true, svLate := kput false t.svLate k false
             svSame := (List.range f.values.length).foldl (fun m v =>
               let same := kget false s.stp.svSeen k && (f.values.getD v (0, 0)).1 == ((kget default s.stp.svNow k).values.getD v (0, 0)).1
               kput 0 m (32 * k + v) (if same then kget 0 m (32 * k + v) + 1 else 1)) t.svSame }

/-- The configured form of a subscribed frame (R325). -/
def SvForm (s : State) (k : Nat) (f : SvFrame) : Prop :=
  f.rateOk = true ∧ f.nasdu = fld (reg s (stpSub k 0)) 19 16 ∧ f.values.length = Nat.max 1 (fld (reg s (stpSub k 0)) 28 24)

theorem svForm_iff (s : State) (k : Nat) (f : SvFrame) : SvForm s k f ↔
    (!f.rateOk || f.nasdu != fld (reg s (stpSub k 0)) 19 16 || f.values.length != Nat.max 1 (fld (reg s (stpSub k 0)) 28 24)) = false := by
  simp [SvForm, and_assoc]

theorem svFrameIn_form (s : State) (k : Nat) (f : SvFrame) (hen : bitOf (reg s (stpSub k 0)) 31 = true) (hon : stpOn s = true) (hf : SvForm s k f) :
    svFrameIn s k f =
      let u := qTriggers (svTaken s k f) 2 k none
      if f.synch.toNat < 2 ∧ bitOf (reg s (stpSub k 0)) 29 = true then report (flag u (stpSub k 4) 0x20) 258 .svSync (stpSub k 4) else u := by
  unfold svFrameIn
  dsimp only
  rw [hen, hon, if_neg (by decide), (svForm_iff s k f).mp hf, if_neg Bool.false_ne_true]
  rfl

theorem svFrameIn_other (s : State) (k : Nat) (f : SvFrame) (hen : bitOf (reg s (stpSub k 0)) 31 = true) (hon : stpOn s = true) (hf : ¬ SvForm s k f) :
    svFrameIn s k f = report (flag s (stpSub k 4) 8) 258 .svLen (stpSub k 4) := by
  have hbad := Bool.eq_true_of_not_eq_false fun h => hf ((svForm_iff s k f).mpr h)
  unfold svFrameIn
  dsimp only
  rw [hen, hon, if_neg (by decide), hbad, if_pos rfl]

theorem svFrameIn_off (s : State) (k : Nat) (f : SvFrame) (h : bitOf (reg s (stpSub k 0)) 31 = false) : svFrameIn s k f = s := by
  unfold svFrameIn
  dsimp only
  rw [h, Bool.not_false, Bool.true_or, if_pos rfl]

/-- Setting a flag of a subscription arms no injection. -/
theorem notInjecting_flag (s : State) (k : Fin 16) (m : Nat) (h : notInjecting s = true) : notInjecting (flag s (stpSub k 4) m) = true := by
  rw [← h, notInjecting, rb, reg_flag_other _ _ _ _ (by simp only [fltR, stpSub, stpR]; omega)]
  rfl

/-- A flag of a subscription and its report. -/
theorem svFault (s : State) (k : Fin 16) (i : Nat) (x : Kind) (hi : i < 32) (h : notInjecting s = true) :
    let t := report (flag s (stpSub k 4) (2 ^ i)) 258 x (stpSub k 4)
    Reports s t 258 x (stpSub k 4) ∧ rb t (stpSub k 4) i = true ∧ t.stp = s.stp ∧ t.lpe = s.lpe := by
  have hflag : rb (flag s (stpSub k 4) (2 ^ i)) (stpSub k 4) i = true := by
    rw [rb_flag _ _ _ _ hi, Nat.testBit_two_pow_self, Bool.or_true]
  dsimp only
  rw [report_quiet _ _ _ _ (notInjecting_flag s k (2 ^ i) h)]
  exact ⟨rfl, hflag, rfl, rfl⟩

/-- A sampled-value frame that a part without redundancy takes. -/
theorem ethFirst_single (s : State) (e : Nat) (f : EthFrame) (g : State → List Byte → State) (h : ethUp s e = true) (hlen : f.len ≤ 1528) (hok : f.fcsOk = true)
    (hred : redMode s = 0) (hev : ptpEvent f.bytes = none) : ethFirst s e f g = g s f.bytes := by
  rw [ethFirst, ethTake_single s e f h hlen hok hred, ethStamp_plain s e _ hev]
  dsimp only
  rw [if_pos rfl, ethUntag_single s _ hred]

theorem stpOn_of_up (s : State) (e : Nat) (h : ethUp s e = true) : stpOn s = true := by
  simp only [ethUp, ethOn, Bool.and_eq_true] at h
  exact h.1.2

/-- A sample of the configured form: what is kept, which cascades run, and what is reported of its synchronisation. -/
theorem svFrameIn_takes (s : State) (k : Fin 16) (v : SvFrame) (hi : notInjecting s = true) (hen : bitOf (reg s (stpSub k 0)) 31 = true)
    (hon : stpOn s = true) (hf : SvForm s k v) :
    let t := svFrameIn s k v
    t.stp = (svTaken s k v).stp ∧
      (∀ q, q < 16 → rb s (qcR q 0) 31 = true → rf s (qcR q 0) 30 28 = 2 → rf s (qcR q 0) 27 24 = k.val → ⟨q, none⟩ ∈ t.lpe.pend) ∧
      ((∀ q, q < 16 → rb s (qcR q 0) 31 = false) →
        (2 ≤ v.synch.toNat ∨ bitOf (reg s (stpSub k 0)) 29 = false → { t with stp := s.stp } = s) ∧
        (v.synch.toNat < 2 → bitOf (reg s (stpSub k 0)) 29 = true → Reports s t 258 .svSync (stpSub k 4) ∧ rb t (stpSub k 4) 5 = true)) := by
  have hit : notInjecting (svTaken s k v) = true := hi
  have honly := foldl_qTriggerAt_only 2 k none (List.range 16) (svTaken s k v) hit
  have hpend : ∀ q, q < 16 → rb s (qcR q 0) 31 = true → rf s (qcR q 0) 30 28 = 2 → rf s (qcR q 0) 27 24 = k.val →
      ⟨q, none⟩ ∈ (qTriggers (svTaken s k v) 2 k none).lpe.pend := fun q hq h31 h2 hk =>
    foldl_qTriggerAt_pends 2 k none (List.range 16) (svTaken s k v) q hit (List.mem_range.mpr hq)
      (show (rb s (qcR q 0) 31 && rf s (qcR q 0) 30 28 == 2 && rf s (qcR q 0) 27 24 == k.val) = true by rw [h31, h2, hk]; simp)
  obtain ⟨u, hu⟩ : ∃ u, u = qTriggers (svTaken s k v) 2 k none := ⟨_, rfl⟩
  have hustp : u.stp = (svTaken s k v).stp := by obtain ⟨b, l, hx⟩ := honly; rw [hu, qTriggers_eq, hx]
  have huinj : notInjecting u = true := by obtain ⟨b, l, hx⟩ := honly; rw [hu, qTriggers_eq, hx, ← hi]; rfl
  obtain ⟨hreports, hbit, hstp, hlpe⟩ := svFault u k 5 .svSync (by decide) huinj
  have hnone : (∀ q, q < 16 → rb s (qcR q 0) 31 = false) → u = svTaken s k v := fun h => by rw [hu]; exact qTriggers_none (svTaken s k v) 2 k none h
  rw [← hu] at hpend
  dsimp only
  rw [svFrameIn_form s k v hen hon hf]
  dsimp only
  rw [← hu]
  by_cases hs : v.synch.toNat < 2 ∧ bitOf (reg s (stpSub k 0)) 29 = true
  · rw [if_pos hs]
    refine ⟨hstp.trans hustp, fun q hq h31 h2 hk => hlpe ▸ hpend q hq h31 h2 hk, fun hq => ⟨fun h => ?_, fun _ _ => ⟨?_, hbit⟩⟩⟩
    · rcases h with h | h
      · omega
      · rw [hs.2] at h; exact absurd h (by decide)
    · have hbus : u.flt.bus = s.flt.bus ∧ now u = now s := by rw [hnone hq]; exact ⟨rfl, rfl⟩
      have hr := hreports
      rwa [Reports, hbus.1, hbus.2] at hr
  · rw [if_neg hs]
    refine ⟨hustp, hpend, fun hq => ⟨fun _ => ?_, fun h1 h2 => absurd ⟨h1, h2⟩ hs⟩⟩
    rw [hnone hq]
    rfl

/-! Publication. -/

/-- The number of a sample instant (R329). -/
def pubKey (s : State) (m : Nat) : Nat :=
  let rate := [4000, 4800, 12800, 14400, 96000].getD (fld (reg s (stpPub m 0)) 22 20) 4800
  ptSec (ptOf s 0) * rate + ptNs (ptOf s 0) * rate / 1000000000 + 1

/-- The datagram of a sample instant with one value. -/
def pubFrame (s : State) (m : Nat) : EthTx :=
  let n := ptNs (ptOf s 0) * [4000, 4800, 12800, 14400, 96000].getD (fld (reg s (stpPub m 0)) 22 20) 4800 / 1000000000
  ⟨2, 72, none, [BitVec.ofNat 8 m, BitVec.ofNat 8 (n / 256), BitVec.ofNat 8 n, if rb s (tmkR 0) 1 then 2 else 0] ++
    wordBytes (pubValue s (rf s (stpPub m 16) 15 0)), none⟩

theorem svPublish_one (s : State) (m : Nat) (hen : bitOf (reg s (stpPub m 0)) 31 = true) (hon : stpOn s = true) (h1 : fld (reg s (stpPub m 0)) 28 24 = 1)
    (hkey : kget 0 s.stp.pubNo m ≠ pubKey s m) :
    svPublish s m = ethSend (modStp s fun t => { t with pubNo := kput 0 t.pubNo m (pubKey s m) }) (pubFrame s m) := by
  have hgo : (!bitOf (reg s (stpPub m 0)) 31 || !stpOn s || pubKey s m == kget 0 s.stp.pubNo m) = false := by
    rw [hen, hon]; simpa using fun h => hkey h.symm
  unfold svPublish
  unfold pubKey at hgo ⊢
  dsimp only at hgo ⊢
  rw [hgo, if_neg Bool.false_ne_true, h1]
  rfl

theorem svPublish_not (s : State) (m : Nat) (h : bitOf (reg s (stpPub m 0)) 31 = false ∨ stpOn s = false ∨ kget 0 s.stp.pubNo m = pubKey s m) :
    svPublish s m = s := by
  have hstop : (!bitOf (reg s (stpPub m 0)) 31 || !stpOn s || pubKey s m == kget 0 s.stp.pubNo m) = true := by
    rcases h with h | h | h <;> simp [h]
  unfold svPublish
  unfold pubKey at hstop
  dsimp only at hstop ⊢
  rw [if_pos hstop]

theorem tagLen_le (s : State) : tagLen s ≤ 6 := by
  unfold tagLen
  split <;> decide

theorem ethTx_idle (s : State) (e : Fin 2) (h : ethUp s e = false ∨ (redMode s = 0 ∧ (now s < kget 0 s.stp.busyTil e ∨ lchBlocks s e = true ∨
    ethPick (kget [] s.stp.txq e) = none))) : ethTx s e none = s := by
  by_cases hup : ethUp s e = true
  · obtain ⟨hred, hwait⟩ := h.resolve_left (by rw [hup]; decide)
    rw [ethTx_single s e none s rfl hup hred, ethLeave_idle s e hwait]
  · rw [ethTx, Bool.eq_false_iff.mpr hup]
    rfl

theorem ethTx_picked (s : State) (e : Fin 2) (g : EthTx) (hup : ethUp s e = true) (hred : redMode s = 0) (hbusy : kget 0 s.stp.busyTil e ≤ now s)
    (hl : lchBlocks s e = false) (hg : ethPick (kget [] s.stp.txq e) = some g) :
    ethTx s e none = ethStart (modStp s fun t => { t with txq := kmod [] t.txq e (·.erase g) }) e (now s) (ptpInst s e g) g := by
  rw [ethTx_single s e none s rfl hup hred, ethLeave_picked s e g hbusy hl hg]

/-- A frame that firmware queues on an idle port leaves it at once. -/
theorem ethTx_firmware (s : State) (e : Fin 2) (d : BitVec 8) (hup : ethUp s e = true) (hred : redMode s = 0) (hbusy : kget 0 s.stp.busyTil e ≤ now s)
    (hl : lchBlocks s e = false) (hempty : kget [] s.stp.txq e = []) (hptp : ptpAt (Config.txFrame d.toNat s.mem) = none)
    (hlen : ethLen (Config.txFrame d.toNat s.mem) ≤ 1518) :
    let g : EthTx := ⟨5, ethLen (Config.txFrame d.toNat s.mem), none, Config.txFrame d.toNat s.mem, none⟩
    let t := ethTx s e (some d)
    t.sent = s.sent ++ [.eth e g] ∧ kget [] t.stp.txq e = [] ∧ kget 0 t.stp.busyTil e = now s + (g.len + 20) * 4 ∧
      { t with stp := s.stp, sent := s.sent } = s := by
  obtain ⟨g, hgdef⟩ : ∃ g : EthTx, g = ⟨5, ethLen (Config.txFrame d.toNat s.mem), none, Config.txFrame d.toNat s.mem, none⟩ := ⟨_, rfl⟩
  have hfw : ethFirmware s e (some d) = ethQueue s e g := by
    rw [ethFirmware, hptp, ← ethFrom_single s e g hred (by rw [hgdef]; exact hlen), hgdef]
    rfl
  have htxq : kget [] (ethQueue s e g).stp.txq e = [g] := by rw [txq_ethQueue, hempty, if_pos rfl]; rfl
  have hpick : ethPick [g] = some g := ethPick_single g (by rw [hgdef])
  have hout : ethOut (ethQueue s e g) e (ptpInst (ethQueue s e g) e g) g = g := by
    have hraw : ethRaw g = true := by rw [hgdef]; rfl
    have hat : ptpAt g.what = none := by rw [hgdef]; exact hptp
    rw [ethOut, hraw, if_pos rfl, ptpOut]
    dsimp only
    rw [hat]
  obtain ⟨hsent, hleft, hbusy', hframe⟩ := ethStart_taken (ethQueue s e g) e (ptpInst (ethQueue s e g) e g) g
  have hgo : ethTx s e (some d) = ethStart (modStp (ethQueue s e g) fun t => { t with txq := kmod [] t.txq e (·.erase g) }) e (now (ethQueue s e g))
      (ptpInst (ethQueue s e g) e g) g := by
    rw [ethTx_single s e (some d) (ethQueue s e g) hfw hup hred, ethLeave_picked (ethQueue s e g) e g hbusy hl (by rw [htxq, hpick])]
  have hlen' : g.len = ethLen (Config.txFrame d.toNat s.mem) := by rw [hgdef]
  rw [hout] at hsent hbusy'
  rw [hlen'] at hbusy'
  dsimp only
  rw [← hgdef, hgo]
  refine ⟨hsent, ?_, hbusy', congrArg (fun t : State => { t with stp := s.stp }) hframe⟩
  rw [htxq, List.erase_cons_head] at hleft
  exact hleft

/-- A counter of the port rises by one, and the rest stands. -/
theorem countUp_counts (s : State) (n o : Nat) :
    rf (countUp (ringFreed s n) (stpR o) 31 0) (stpR o) 31 0 = Nat.min 4294967295 (rf s (stpR o) 31 0 + 1) ∧
      (∀ a, a ≠ stpR o → reg (countUp (ringFreed s n) (stpR o) 31 0) a = reg s a) ∧
      { countUp (ringFreed s n) (stpR o) 31 0 with regs := s.regs } = ringFreed s n :=
  ⟨rf_countUp (ringFreed s n) (stpR o) 31 0 (by decide), fun a ha => reg_countUp_other (ringFreed s n) (stpR o) 31 0 a ha, countUp_regsOnly (ringFreed s n) ..⟩

/-- A frame for the receive ring of a part without redundancy. -/
theorem ethFrameIn_ring (s : State) (e : Nat) (f : EthFrame) (n : Nat) (h : ethUp s e = true) (hlen : f.len ≤ 1528) (hok : f.fcsOk = true)
    (hred : redMode s = 0) (ha : arpReply s f.bytes = none) (he : echoReply s f.bytes = none) (hc : ethConsumed s f.bytes = false) :
    ethFrameIn s e f n = if (s.stp.ring.drop n).length < 64 then
      modStp (ethStamp (ringFreed s n) e f.bytes) fun t => { t with ring := t.ring ++ [⟨f.bytes, if (ptpEvent f.bytes).isSome then kget none t.stamp e else none⟩] }
      else countUp (ethStamp (ringFreed s n) e f.bytes) (stpR 0x034) 31 0 := by
  obtain ⟨x, y, hs⟩ := ethStamp_only (ringFreed s n) e f.bytes
  obtain ⟨u, hu⟩ : ∃ u, u = ethStamp (ringFreed s n) e f.bytes := ⟨_, rfl⟩
  have hua : arpReply u f.bytes = none := by rw [hu, hs]; exact ha
  have hue : echoReply u f.bytes = none := by rw [hu, hs]; exact he
  have huc : ethConsumed u f.bytes = false := by rw [hu, hs]; exact hc
  have hring : u.stp.ring = s.stp.ring.drop n := by rw [hu, hs]; rfl
  rw [ethFrameIn_single s e f n h hlen hok hred, ← hu, ethGiven_unclaimed u e f.bytes hua hue huc, hring]

/-- Settles O51, clause by clause from what each operation of the port does. -/
theorem ethernetAndSampledValues : Obligations.EthernetAndSampledValues := by
  refine ⟨ethPick_lowest, fun e f n k v m s hr hi => ?_⟩
  intro u counted whole plain cfg form noQ free sends
  have hform : form ↔ SvForm s k v := Iff.rfl
  refine ⟨fun hon => answers_live rfl hr ?_, fun hon => answers_live rfl hr ?_, fun hup => answers_live rfl hr ?_, fun hup => answers_live rfl hr ?_,
    fun g hfree hg => answers_live rfl hr ?_, fun d hfree hempty hptp hlen => answers_live rfl hr ?_,
    fun g o q hat hlen hrx hsync => ptpOut_time s e g o q hat hlen hrx hsync, fun h => answers_live rfl hr (ethTx_idle s e h),
    fun hup => answers_live rfl hr ?_, fun hup hbad => answers_live rfl hr ?_, fun q hw hred hev hq hdup => answers_live rfl hr ?_,
    fun q hw hred hup hmac hsrc hptp hq => answers_live rfl hr ?_, fun hp ha he hc => ⟨fun hroom => answers_live rfl hr ?_, fun hev hfull => answers_live rfl hr ?_⟩,
    fun b hp hev hb => answers_live rfl hr ?_, fun hp hev hm hen hf => answers_live rfl hr ?_, fun hp hev hm hen hf => answers_live rfl hr ?_,
    fun hp hev hno => answers_live rfl hr ?_, fun hen hseen hlate htime => answers_live rfl hr ?_, fun hno => answers_live rfl hr ?_, ?_⟩
  · -- link
    rw [hon]
    rfl
  · rw [hon]
    rfl
  · -- link loss
    have hquiet : notInjecting (modStp s fun t => { t with link := t.link &&& ~~~ BitVec.ofNat 2 (2 ^ e.val) }) = true := hi
    have hdown : (s.stp.link &&& ~~~ BitVec.ofNat 2 (2 ^ e.val)).toNat.testBit e.val = false := by
      rw [BitVec.testBit_toNat, BitVec.getLsbD_and, BitVec.getLsbD_not, BitVec.getLsbD_ofNat, Nat.testBit_two_pow_self]
      simp
    rw [hup, if_pos rfl, report_quiet _ _ _ _ hquiet]
    refine ⟨rfl, ?_, rfl, rfl⟩
    show (ethOn s e && (s.stp.link &&& ~~~ BitVec.ofNat 2 (2 ^ e.val)).toNat.testBit e.val) = false
    rw [hdown, Bool.and_false]
  · rw [hup]
    rfl
  · -- a waiting frame
    obtain ⟨hup, hred, hbusy, hl⟩ := hfree
    rw [ethTx_picked s e g hup hred hbusy hl hg]
    exact ethStart_taken s e (ptpInst s e g) g
  · -- a frame of firmware
    obtain ⟨hup, hred, hbusy, hl⟩ := hfree
    exact ethTx_firmware s e d hup hred hbusy hl hempty hptp hlen
  · -- a port without link
    exact ethFrameIn_refused s _ e f n (ethTake_down (ringFreed s n) e f hup)
  · -- a damaged frame
    rw [ethFrameIn_refused s _ e f n (ethTake_damaged (ringFreed s n) e f hup hbad)]
    exact countUp_counts s n 0x030
  · -- a duplicate
    obtain ⟨hup, hlen, hok⟩ := hw
    rw [ethFrameIn_refused s _ e f n (ethTake_duplicate (ringFreed s n) e f q hup hlen hok hred hev hq hdup)]
    exact countUp_counts s n 0x038
  · -- HSR
    obtain ⟨hup', hlen, hok⟩ := hw
    exact ethFrameIn_forwards s e f n q hup' hlen hok hred hup hmac hsrc hptp hq
  · -- the receive ring
    obtain ⟨⟨hup, hlen, hok⟩, hred⟩ := hp
    rw [ethFrameIn_ring s e f n hup hlen hok hred ha he hc, if_pos hroom]
    refine ⟨?_, ?_, fun hev => ?_, fun o ho => ?_⟩
    · obtain ⟨x, y, hs⟩ := ethStamp_only (ringFreed s n) e f.bytes
      rw [hs]; rfl
    · obtain ⟨x, y, hs⟩ := ethStamp_only (ringFreed s n) e f.bytes
      rw [hs]; rfl
    · rw [ethStamp_plain _ e _ hev, hev]; rfl
    · have hstamp := ethStamp_event (ringFreed s n) e f.bytes o ho
      obtain ⟨x, y, hs⟩ := ethStamp_only (ringFreed s n) e f.bytes
      rw [hs] at hstamp ⊢
      rw [ho]
      exact congrArg (fun w => s.stp.ring.drop n ++ [⟨f.bytes, w⟩]) hstamp
  · -- a full ring
    obtain ⟨⟨hup, hlen, hok⟩, hred⟩ := hp
    rw [ethFrameIn_ring s e f n hup hlen hok hred ha he hc, if_neg (Nat.not_lt.mpr hfull), ethStamp_plain _ e _ hev]
    exact countUp_counts s n 0x034
  · -- a request that is answered
    obtain ⟨⟨hup, hlen, hok⟩, hred⟩ := hp
    have htag : tagLen s = 0 := by rw [tagLen, if_pos hred]
    have hone : ethFrom (ringFreed s n) e ⟨5, ethLen b, none, b, none⟩ = ethOrig (ringFreed s n) [e] ⟨5, ethLen b, none, b, none⟩ := by
      rw [ethFrom, show redMode (ringFreed s n) = 0 from hred, if_pos rfl]
    have htxq := txq_ethOrig (ringFreed s n) [e] ⟨5, ethLen b, none, b, none⟩ e (List.nodup_singleton _)
    rw [show tagLen (ringFreed s n) = 0 from htag] at htxq
    obtain ⟨x, hx⟩ := ethOrig_txqOnly (ringFreed s n) [e] ⟨5, ethLen b, none, b, none⟩
    rw [ethFrameIn_single s e f n hup hlen hok hred, ethStamp_plain _ e _ hev, ethGiven_reply (ringFreed s n) e f.bytes b hb, hone]
    refine ⟨htxq.trans ?_, by rw [hx]; rfl, by rw [hx]; rfl⟩
    simp only [List.mem_singleton, true_and, Nat.add_zero]
    rfl
  · -- a sample
    obtain ⟨⟨hup, hlen, hok⟩, hred⟩ := hp
    rw [ethFirst_single s e f _ hup hlen hok hred hev, hm, if_pos rfl]
    obtain ⟨hstp, hpend, hquiet⟩ := svFrameIn_takes s k v hi hen (stpOn_of_up s e hup) (hform.mp hf)
    rw [hstp]
    exact ⟨kget_kput_same .., kget_kput_same .., kget_kput_same ..,
      congrArg₂ Prod.mk (kget_kput_same false s.stp.svSeen k.val true) (kget_kput_same false s.stp.svLate k.val false), hpend, hquiet⟩
  · -- another form
    obtain ⟨⟨hup, hlen, hok⟩, hred⟩ := hp
    obtain ⟨hreports, hbit, hstp, -⟩ := svFault s k 3 .svLen (by decide) hi
    rw [ethFirst_single s e f _ hup hlen hok hred hev, hm, if_pos rfl, svFrameIn_other s k v hen (stpOn_of_up s e hup) fun h => hf (hform.mpr h)]
    exact ⟨hreports, hbit, hstp⟩
  · -- another stream
    obtain ⟨⟨hup, hlen, hok⟩, hred⟩ := hp
    rw [ethFirst_single s e f _ hup hlen hok hred hev]
    rcases hno with h | h
    · rw [h, if_neg Bool.false_ne_true]
    · split
      · exact svFrameIn_off s k v h
      · rfl
  · -- a late stream
    have hquiet : notInjecting (modStp s fun t => { t with svLate := kput false t.svLate k true }) = true := hi
    have hdue : (rb s (stpSub k 0) 31 && kget false s.stp.svSeen k && !kget false s.stp.svLate k &&
        decide (kget 0 s.stp.svAt k + us (rf s (stpSub k 8) 15 0) < now s)) = true := by
      rw [rb, hseen, hlate, decide_eq_true htime]
      simpa using hen
    rw [hdue, if_pos rfl, report_quiet _ _ _ _ hquiet]
    exact ⟨rfl, kget_kput_same false s.stp.svLate k.val true, rfl⟩
  · -- a stream in time
    have hnot : (rb s (stpSub k 0) 31 && kget false s.stp.svSeen k && !kget false s.stp.svLate k &&
        decide (kget 0 s.stp.svAt k + us (rf s (stpSub k 8) 15 0) < now s)) = false := by
      rw [rb]
      rcases hno with h | h | h | h
      · rw [show bitOf (reg s (stpSub k 0)) 31 = false from h]; rfl
      · rw [h, Bool.and_false]; rfl
      · rw [h, Bool.not_true, Bool.and_false]; rfl
      · rw [decide_eq_false (Nat.not_lt.mpr h), Bool.and_false]
    rw [hnot, if_neg Bool.false_ne_true]
  · -- publication
    refine ⟨fun hen hon h1 hkey => answers_live rfl hr ?_, fun h => answers_live rfl hr (svPublish_not s m h)⟩
    obtain ⟨w, hw⟩ : ∃ w, w = modStp s fun t => { t with pubNo := kput 0 t.pubNo m (pubKey s m) } := ⟨_, rfl⟩
    have hports : ethPorts w = ethPorts s := by rw [hw]; rfl
    have htag : tagLen w = tagLen s := by rw [hw]; rfl
    have hshort : (pubFrame s m).len + tagLen s ≤ 1518 := Nat.le_trans (Nat.add_le_add_left (tagLen_le s) 72) (by decide)
    rw [svPublish_one s m hen hon h1 hkey, ← hw, ethSend]
    obtain ⟨x, hx⟩ := ethOrig_txqOnly w (ethPorts w) (pubFrame s m)
    refine ⟨by rw [hx, hw]; exact kget_kput_same 0 s.stp.pubNo m.val (pubKey s m), by rw [hx, hw]; rfl, fun q => ?_⟩
    rw [txq_ethOrig w (ethPorts w) (pubFrame s m) q (ethPorts_nodup w), hports, htag, hw]
    simp only [hshort, and_true]
    rfl

end Sys2Proof.Machine
end

section
/-! SUPPORT. One step: the command at the front of the queue, or 2 ns of the clock, and what the clock leaves (R39). -/

namespace Sys2Proof.Machine

open Sys2Proof

/-- What a clock cycle of a part out of reset leaves, but for LT: the queue, the memories, the mode, the guard and the island. -/
def clockPart (s : State) := (s.lt, s.pending, s.mem, s.sys, s.swg, s.saf, s.nv)

@[simp] theorem clockPart_setReg (s : State) (a : Nat) (v : Word) : clockPart (setReg s a v) = clockPart s := rfl
@[simp] theorem clockPart_flag (s : State) (a m : Nat) : clockPart (flag s a m) = clockPart s := rfl
@[simp] theorem clockPart_unflag (s : State) (a m : Nat) : clockPart (unflag s a m) = clockPart s := rfl
@[simp] theorem clockPart_modTmk (s : State) (f : Tmk → Tmk) : clockPart (modTmk s f) = clockPart s := rfl
@[simp] theorem clockPart_modTrr (s : State) (f : Trr → Trr) : clockPart (modTrr s f) = clockPart s := rfl
@[simp] theorem clockPart_modSns (s : State) (f : Sns → Sns) : clockPart (modSns s f) = clockPart s := rfl
@[simp] theorem clockPart_modLpe (s : State) (f : Lpe → Lpe) : clockPart (modLpe s f) = clockPart s := rfl
@[simp] theorem clockPart_modFlt (s : State) (f : Flt → Flt) : clockPart (modFlt s f) = clockPart s := rfl
@[simp] theorem clockPart_modPort (s : State) (p : Nat) (f : PortSt → PortSt) : clockPart (modPort s p f) = clockPart s := rfl
@[simp] theorem clockPart_modCore (s : State) (n : Nat) (f : Core → Core) : clockPart (modCore s n f) = clockPart s := rfl
@[simp] theorem clockPart_send (s : State) (x : Sent) : clockPart (send s x) = clockPart s := rfl
@[simp] theorem clockPart_enqueue (s : State) (p : Nat) (pk : Packet) (d : Bool) : clockPart (enqueue s p pk d) = clockPart s := rfl

@[simp] theorem clockPart_ite (c : Prop) [Decidable c] (a b : State) : clockPart (if c then a else b) = if c then clockPart a else clockPart b :=
  apply_ite clockPart c a b

@[simp] theorem clockPart_foldl {α : Type} (f : State → α → State) (h : ∀ s a, clockPart (f s a) = clockPart s) (l : List α) (s : State) :
    clockPart (l.foldl f s) = clockPart s := foldl_keeps clockPart f h l s

@[simp] theorem clockPart_report (s : State) (src : Nat) (k : Kind) (a : Nat) : clockPart (report s src k a) = clockPart s := by
  simp -implicitDefEqProofs [report, whenB]

@[simp] theorem clockPart_countUp (s : State) (a hi lo : Nat) : clockPart (countUp s a hi lo) = clockPart s := by
  simp -implicitDefEqProofs [countUp, setRf]

/-! The operations of a cycle. -/

theorem clockPart_pulseStep (s : State) (a b : Bool) (t : Nat) : clockPart (pulseStep s a b t) = clockPart s := by
  unfold pulseStep pulseMark
  dsimp only
  split
  · exact clockPart_modSns ..
  · split
    · split
      · split <;> simp -implicitDefEqProofs
      · exact clockPart_modSns ..
    · simp -implicitDefEqProofs
    · simp -implicitDefEqProofs

theorem clockPart_pulseAccept (s : State) : clockPart (pulseAccept s) = clockPart s := by
  unfold pulseAccept
  dsimp only
  split
  · simp only [clockPart_ite, clockPart_pulseStep, ite_self]
  · exact clockPart_pulseStep ..
  · exact clockPart_pulseStep ..
  · rfl

theorem clockPart_qStop (s : State) (c : Nat) : clockPart (qStop s c) = clockPart s := rfl

theorem clockPart_cascadeOne (s : State) (c : Nat) (hit : Option (Nat × Word)) : clockPart (cascadeOne s c hit) = clockPart s := by
  unfold cascadeOne
  simp -implicitDefEqProofs

theorem clockPart_chainOver (s : State) (c : Nat) : clockPart (chainOver s c) = clockPart s := by
  unfold chainOver
  rw [clockPart_ite, clockPart_qStop, clockPart_report, ite_self]

theorem clockPart_cascadeRun (n : Nat) : ∀ (s : State) (c : Nat) (hit : Option (Nat × Word)), clockPart (cascadeRun n s c hit) = clockPart s := by
  induction n with
  | zero => exact fun _ _ _ => rfl
  | succ n ih =>
    intro s c hit
    rw [cascadeRun, clockPart_ite, foldl_keeps clockPart _ (fun s k => ih s k hit), clockPart_cascadeOne, clockPart_chainOver, ite_self]

theorem clockPart_qFinish (s : State) (r : QRun) : clockPart (qFinish s r) = clockPart s := by
  unfold qFinish
  dsimp only
  rw [clockPart_foldl _ (fun s k => clockPart_cascadeRun 16 s k r.hit), clockPart_ite, clockPart_flag, ite_self]
  simp -implicitDefEqProofs

theorem clockPart_qTrigger (s : State) (c : Nat) (hit : Option (Nat × Word)) : clockPart (qTrigger s c hit) = clockPart s := by
  unfold qTrigger
  simp -implicitDefEqProofs

theorem clockPart_lpeClock (s : State) : clockPart (lpeClock s) = clockPart s := by
  have hrun : ∀ (u : State) (c : Nat), clockPart (if rb u (qcR c 0) 31 && rf u (qcR c 0) 30 28 == 0 && rf u (qcR c 0xC) 14 0 == phaseOf u
      then qTrigger u c none else u) = clockPart u := fun u c => by rw [clockPart_ite, clockPart_qTrigger, ite_self]
  unfold lpeClock
  dsimp only
  rw [clockPart_ite, foldl_keeps clockPart _ hrun, ite_self, foldl_keeps clockPart _ clockPart_qFinish]

theorem clockPart_clockCores (s : State) : clockPart (clockCores s) = clockPart s := by
  simp -implicitDefEqProofs [clockCores]

theorem clockPart_noRoute (s : State) (src : Option Nat) : clockPart (noRoute s src) = clockPart s := by
  unfold noRoute countNoRoute
  rw [clockPart_ite, clockPart_report, clockPart_countUp, ite_self]

theorem clockPart_forward (s : State) (src : Option Nat) (pk : Packet) (arr : Arrival) : clockPart (forward s src pk arr) = clockPart s := by
  unfold forward
  dsimp only
  split
  · rw [clockPart_ite, clockPart_enqueue, clockPart_modPort, ite_self]
  · split
    · split
      · rw [clockPart_enqueue, clockPart_noRoute]
      · exact clockPart_noRoute ..
    · exact clockPart_noRoute ..

theorem clockPart_orphansRoute (s : State) : clockPart (orphansRoute s) = clockPart s := by
  unfold orphansRoute
  refine (foldl_keeps clockPart _ (fun u e => ?_) _ _).trans (clockPart_modTrr ..)
  split
  · exact clockPart_forward ..
  · dsimp only
    split
    · split
      · rw [clockPart_enqueue, clockPart_noRoute]
      · exact clockPart_noRoute ..
    · exact clockPart_noRoute ..

/-- What an operation of every port keeps, each of them keeping it. -/
theorem allPorts_keeps {β : Type} (g : State → β) (f : State → Port → State) (h : ∀ s p, g (f s p) = g s) (s : State) :
    g (allPorts s f) = g s := by
  refine foldl_keeps g _ (fun u p => ?_) _ s
  split
  · exact h u _
  · rfl

theorem clockPart_clockPorts (s : State) : clockPart (clockPorts s) = clockPart s := by
  have hend : ∀ (u : State) (p : Port), clockPart (clockSkip (capsRepeat u p) p) = clockPart u := fun u p => by
    simp -implicitDefEqProofs [clockSkip, capsRepeat]
  unfold clockPorts
  dsimp only
  rw [allPorts_keeps clockPart _ hend, allPorts_keeps clockPart _ (fun u p => clockPart_modPort u p.val _), clockPart_orphansRoute]

theorem clockPart_alignSend (s : State) (p : Nat) : clockPart (alignSend s p) = clockPart s := by
  simp -implicitDefEqProofs [alignSend]

theorem clockPart_alignSync (s : State) : clockPart (alignSync s) = clockPart s := by
  unfold alignSync
  dsimp only
  rw [clockPart_ite, clockPart_foldl _ clockPart_alignSend, clockPart_modTmk, ite_self]

theorem clockPart_clockTime (s : State) : clockPart (clockTime s) = (s.lt + 1, s.pending, s.mem, s.sys, s.swg, s.saf, s.nv) := rfl

theorem clockPart_clock (s : State) (hr : s.sys.inReset = false) :
    clockPart (clock s) = (s.lt + 1, s.pending, s.mem, s.sys, s.swg, s.saf, s.nv) := by
  rw [clock, hr, if_neg Bool.false_ne_true, clockPart_alignSync, clockPart_clockPorts, clockPart_clockCores, clockPart_lpeClock,
    clockPart_pulseAccept]
  exact clockPart_clockTime _

/-! A cycle in which no level settles, no tick and no run of the loop engine goes on, and no packet looks for a way. -/

theorem pulseAccept_settled (s : State) (ha : s.sns.rawA = s.sns.pa) (hb : s.sns.rawB = s.sns.pb) : pulseAccept s = s := by
  simp [pulseAccept, stableAt, ha, hb]

theorem lpeClock_quiet (s : State) (hruns : s.lpe.runs = []) (ht : s.tmk.ticked = false) : lpeClock s = s := by
  simp [lpeClock, hruns, ht]

/-- The registers and the hub. -/
def quietPart (s : State) := (s.regs, s.flt)

theorem quietPart_clockCores (s : State) : quietPart (clockCores s) = quietPart s := by
  unfold clockCores
  exact foldl_keeps quietPart (fun s n => modCore s n clockCore) (fun _ _ => rfl) _ s

theorem orphans_clockCores (s : State) : (clockCores s).trr.orphans = s.trr.orphans := by
  unfold clockCores
  exact foldl_keeps (fun u => u.trr.orphans) (fun s n => modCore s n clockCore) (fun _ _ => rfl) _ s

theorem quietPart_clockSkip (s : State) (p : Port) : quietPart (clockSkip s p) = quietPart s := by
  unfold clockSkip
  dsimp only
  split <;> rfl

theorem quietPart_capsRepeat (s : State) (p : Port) : quietPart (capsRepeat s p) = quietPart s := by
  unfold capsRepeat
  dsimp only
  split <;> rfl

theorem quietPart_clockPorts (s : State) (ho : s.trr.orphans = []) : quietPart (clockPorts s) = quietPart s := by
  have hway : orphansRoute s = modTrr s fun t => { t with orphans := [] } := by rw [orphansRoute, ho]; rfl
  unfold clockPorts
  dsimp only
  rw [allPorts_keeps quietPart _ (fun u p => (quietPart_clockSkip _ p).trans (quietPart_capsRepeat u p)),
    allPorts_keeps quietPart (fun s p => modPort s p.val _) (fun _ _ => rfl), hway]
  rfl

theorem quietPart_alignSync (s : State) : quietPart (alignSync s) = quietPart s := by
  unfold alignSync
  dsimp only
  split
  · rfl
  · exact foldl_keeps quietPart alignSend (fun _ _ => rfl) _ _

theorem quietPart_clock (s : State) (hr : s.sys.inReset = false) (ho : s.trr.orphans = []) (hruns : s.lpe.runs = [])
    (ht : s.tmk.ticked = false) (ha : s.sns.rawA = s.sns.pa) (hb : s.sns.rawB = s.sns.pb) : quietPart (clock s) = quietPart s := by
  rw [clock, hr, if_neg Bool.false_ne_true, quietPart_alignSync, pulseAccept_settled (clockTime { s with hwSet := [], swSet := [] }) ha hb,
    lpeClock_quiet (clockTime { s with hwSet := [], swSet := [] }) hruns ht, quietPart_clockPorts (clockCores (clockTime { s with hwSet := [], swSet := [] }))
      ((orphans_clockCores _).trans ho),
    quietPart_clockCores]
  rfl

/-- Settles O12: a step is exec of the front command, or a clock cycle, whose operations keep what is named. -/
theorem stepRunsFrontCommand : Obligations.StepRunsFrontCommand := by
  refine ⟨fun c r s h => ?_, fun s hp hr => ⟨clock s, ?_, ?_⟩, fun s hp hr => ?_⟩
  · simp only [step, State.popped, h, List.tail_cons]
  · simp only [step, hp]
  · have hclock := clockPart_clock s hr
    simp only [clockPart, Prod.mk.injEq] at hclock
    obtain ⟨hlt, hpend, hmem, hsys, hswg, hsaf, hnv⟩ := hclock
    refine ⟨hlt, hpend.trans hp, by rw [hmem, hsys, hswg, hsaf, hnv], fun ho hruns ht ha hb => ?_⟩
    exact quietPart_clock s hr ho hruns ht ha hb
  · simp only [step, hp, clock, hr, if_true]

end Sys2Proof.Machine
end

section
/-! SUPPORT. The bring-up of a lane where a fault injection is armed: the entry of a port to ACTIVE reports NEW_LINK, and that report
uses the injection up (R131, R377). -/

namespace Sys2Proof.Machine

open Sys2Proof

/-- A station part whose DOWN port P5 has exchanged acknowledged blocks, with an injection armed for the next message of source 97. -/
def armedLink : State :=
  { State.reset with
    sys := { State.reset.sys with inReset := false, porRst := false, strap := 3 }
    trr := { State.reset.trr with nodeId := some 5 }
    regs := [(trlCfg 5, 0x0081001B), (fltR 0x080, 0x8C000061)]
    ports := [(5, { PortSt.init with stage := .caps, powered := true, capsGood := 2, capsAck := true })] }

/-- ARM of FLT_INJ is set before the entry to ACTIVE, and the report of NEW_LINK clears it. -/
theorem portActive_armedLink_disarms :
    rb armedLink (fltR 0x080) 31 = true ∧ rb (portActive armedLink 5) (fltR 0x080) 31 = false := by decide

theorem portActive_armedLink_regs : (portActive armedLink 5).regs ≠ armedLink.regs := by
  intro h
  obtain ⟨harmed, hclear⟩ := portActive_armedLink_disarms
  have hsame : reg (portActive armedLink 5) (fltR 0x080) = reg armedLink (fltR 0x080) := by
    rw [reg, h]
    rfl
  rw [rb, hsame] at hclear
  exact Bool.false_ne_true (hclear.symm.trans harmed)

/-- Refutes O29: the clause of the entry to ACTIVE says that no register changes, of every state out of reset. Where the DOWN end holds
an ID it reports NEW_LINK (R131), and an injection armed for that message corrupts it and clears ARM of FLT_INJ (R377). That no injection
is armed is among the hypotheses of the timeout's clause, not of this one. -/
theorem not_laneBringUpStages : ¬ Obligations.LaneBringUpStages := by
  intro h
  obtain ⟨-, -, -, -, -, hactive, -⟩ := h 5 false 0 [] armedLink rfl
  obtain ⟨t, ht, -, hregs⟩ := hactive (by decide) (by decide) (by decide)
  have e : portActive armedLink 5 = t := Host.Outcome.next.inj ht
  exact portActive_armedLink_regs (e ▸ hregs)

end Sys2Proof.Machine
end

section
/-! SUPPORT. The eye scan: the write of TRL_EYE_CTRL, the checks of START, and the end of a scan and of a point (R108, R109). -/

namespace Sys2Proof.Machine

open Sys2Proof

/-! Bits of a register under a write. -/

/-- Two words with the same bits in a field read the same there. -/
theorem fld_congr {w v : Word} {hi lo : Nat} (h : ∀ i, lo ≤ i → i ≤ hi → w.getLsbD i = v.getLsbD i) : fld w hi lo = fld v hi lo := by
  refine Nat.eq_of_testBit_eq fun i => ?_
  rw [testBit_fld, testBit_fld]
  by_cases hi' : i < hi + 1 - lo
  · rw [h (lo + i) (by omega) (by omega)]
  · rw [decide_eq_false hi', Bool.false_and, Bool.false_and]

/-- A word with one bit clear has nothing in common with the mask of that bit. -/
theorem and_bit_of_clear (v : Word) (i : Nat) (h : bitOf v i = false) : v &&& BitVec.ofNat 32 (2 ^ i) = 0 := by
  refine BitVec.eq_of_getLsbD_eq fun j hj => ?_
  rw [BitVec.getLsbD_and, getLsbD_pow, show BitVec.getLsbD (0 : Word) j = false from BitVec.getLsbD_zero]
  by_cases e : i = j
  · rw [← e, ← bitOf_eq, h, Bool.false_and]
  · rw [decide_eq_false e, Bool.and_false, Bool.and_false]

/-- A field that software writes takes the word's bits. -/
theorem getLsbD_fieldWrite_rw (val cur : Word) (hi lo : Nat) {i : Nat} (h : i < 32) :
    (fieldWrite val 0 false cur (hi, lo, .rw)).getLsbD i = if lo ≤ i ∧ i ≤ hi then val.getLsbD i else cur.getLsbD i := by
  simp only [fieldWrite, BitVec.getLsbD_or, BitVec.getLsbD_and, BitVec.getLsbD_not, getLsbD_maskOf, decide_eq_true h]
  by_cases hl : lo ≤ i <;> by_cases hh : i ≤ hi <;> simp [hl, hh]

/-- A field that software only sets keeps the bits that are set. -/
theorem getLsbD_fieldWrite_w1s (val cur : Word) (hi lo : Nat) {i : Nat} (h : i < 32) :
    (fieldWrite val 0 false cur (hi, lo, .w1s)).getLsbD i = (cur.getLsbD i || (decide (lo ≤ i ∧ i ≤ hi) && val.getLsbD i)) := by
  simp only [fieldWrite, BitVec.getLsbD_or, BitVec.getLsbD_and, getLsbD_maskOf, decide_eq_true h]
  by_cases hl : lo ≤ i <;> by_cases hh : i ≤ hi <;> simp [hl, hh]

/-! TRL_EYE_CTRL (Table 3-9). -/

def eyeCtrlRow : RegRow := reg1 0x040 0x00500000 [(31, 31, .w1s), (30, 30, .wo), (29, 26, .rw), (23, 18, .rw), (11, 0, .rw)]

theorem rowOf_eyeCtrl : rowOf (trlR 0x040) = some eyeCtrlRow := by decide

/-- TRL_EYE_CTRL after a write. -/
def eyeCtrlTake (s : State) (val : Word) : Word := softTake (reg s (trlR 0x040)) eyeCtrlRow val

theorem getLsbD_eyeCtrlTake (s : State) (val : Word) {i : Nat} (h : i < 32) : (eyeCtrlTake s val).getLsbD i =
    if i ≤ 11 then val.getLsbD i else if 18 ≤ i ∧ i ≤ 23 then val.getLsbD i else if 26 ≤ i ∧ i ≤ 29 then val.getLsbD i
    else ((reg s (trlR 0x040)).getLsbD i || (decide (31 ≤ i ∧ i ≤ 31) && val.getLsbD i)) := by
  simp only [eyeCtrlTake, softTake, eyeCtrlRow, reg1, List.foldl_cons, List.foldl_nil, getLsbD_fieldWrite_rw _ _ _ _ h, Nat.zero_le, true_and]
  rw [show ∀ c : Word, fieldWrite val 0 false c (30, 30, .wo) = c from fun _ => rfl, getLsbD_fieldWrite_w1s _ _ _ _ h]

/-- Its fields PORT, DWELL and XOFF, and SWEEP, are the word's. -/
theorem eyeCtrlTake_fields (s : State) (val : Word) :
    fld (eyeCtrlTake s val) 29 27 = fld val 29 27 ∧ fld (eyeCtrlTake s val) 23 18 = fld val 23 18 ∧
      fld (eyeCtrlTake s val) 5 0 = fld val 5 0 ∧ bitOf (eyeCtrlTake s val) 26 = bitOf val 26 := by
  refine ⟨fld_congr fun i hl hh => ?_, fld_congr fun i hl hh => ?_, fld_congr fun i hl hh => ?_, ?_⟩
  · rw [getLsbD_eyeCtrlTake s val (by omega), if_neg (by omega), if_neg (by omega), if_pos (by omega)]
  · rw [getLsbD_eyeCtrlTake s val (by omega), if_neg (by omega), if_pos (by omega)]
  · rw [getLsbD_eyeCtrlTake s val (by omega), if_pos (by omega)]
  · rw [bitOf_eq, bitOf_eq, getLsbD_eyeCtrlTake s val (by decide), if_neg (by decide), if_neg (by decide), if_pos (by decide)]

/-- A word with START sets it. -/
theorem eyeCtrlTake_start (s : State) (val : Word) (h : bitOf val 31 = true) : bitOf (eyeCtrlTake s val) 31 = true := by
  rw [bitOf_eq] at h ⊢
  rw [getLsbD_eyeCtrlTake s val (by decide), if_neg (by decide), if_neg (by decide), if_neg (by decide), h]
  exact Bool.or_true _

/-- The state in which a write of TRL_EYE_CTRL leaves the part before its action; `w` are the bits that software has set in the cycle. -/
def eyeWritten (s : State) (val : Word) (w : List (Nat × Word)) : State := { setReg s (trlR 0x040) (eyeCtrlTake s val) with swSet := w }

theorem genWrite_eyeCtrl (s : State) (o : Origin) (val : Word) :
    ∃ w, genWrite s o (trlR 0x040) val = eyeWritten s val w ∧ (bitOf val 31 = false → w = s.swSet) := by
  have hmask : accMask eyeCtrlRow (· == .w1s) = BitVec.ofNat 32 (2 ^ 31) := by decide
  rw [genWrite_soft s o _ val eyeCtrlRow rowOf_eyeCtrl (by decide), hmask, whenB]
  split
  next hset =>
    refine ⟨_, rfl, fun h => ?_⟩
    rw [and_bit_of_clear val 31 h] at hset
    exact absurd hset (by decide)
  next => exact ⟨s.swSet, rfl, fun _ => rfl⟩

/-- A write with START, and without ABORT, while no scan runs. -/
theorem eyeWrite_starts (s : State) (o : Origin) (val : Word) (hs : s.eye = none) (h31 : bitOf val 31 = true) (h30 : bitOf val 30 = false) :
    ∃ w, eyeWrite s o val = eyeStart (eyeWritten s val w) := by
  obtain ⟨w, hw, -⟩ := genWrite_eyeCtrl s o val
  refine ⟨w, ?_⟩
  simp only [eyeWrite, hs, h31, h30, Option.isSome_none, Bool.false_and, Bool.false_eq_true, if_false, if_true, hw]

/-- A write with ABORT while a scan runs. -/
theorem eyeWrite_aborts (s : State) (o : Origin) (val : Word) (e : Eye) (hs : s.eye = some e) (h30 : bitOf val 30 = true) :
    eyeWrite s o val = eyeEnd (eyeWritten s (setBit val 31 false) s.swSet) 3 := by
  obtain ⟨w, hw, hset⟩ := genWrite_eyeCtrl s o (setBit val 31 false)
  have hw' := hset (by rw [bitOf_setBit _ _ _ _ (by decide), if_pos rfl])
  subst hw'
  have heye : (eyeWritten s (setBit val 31 false) s.swSet).eye = some e := hs
  simp only [eyeWrite, h30, Bool.not_true, Bool.and_false, Bool.false_eq_true, if_false, if_true, hw, eyeAbortOn, heye, Option.any_some,
    beq_self_eq_true]

/-! The checks of START. -/

/-- The fields of START are legal (Table 3-9). -/
def eyeLegal (w : Word) : Prop := fld w 29 27 ≤ 5 ∧ 16 ≤ fld w 23 18 ∧ fld w 23 18 ≤ 40 ∧ fld w 5 0 ≠ 32

/-- The word that EYE_START writes: START without ABORT. -/
def startWord (val : Word) : Word := setBit (setBit val 31 true) 30 false

theorem startWord_bits (val : Word) : bitOf (startWord val) 31 = true ∧ bitOf (startWord val) 30 = false ∧ bitOf (startWord val) 26 = bitOf val 26 := by
  have hbit : ∀ i, i < 32 → bitOf (startWord val) i = if i = 30 then false else if i = 31 then true else bitOf val i := by
    intro i hi
    rw [startWord, bitOf_setBit _ _ _ _ hi, bitOf_setBit _ _ _ _ hi]
  exact ⟨hbit 31 (by decide), hbit 30 (by decide), hbit 26 (by decide)⟩

theorem fld_startWord (val : Word) (hi lo : Nat) (h : hi < 30) : fld (startWord val) hi lo = fld val hi lo := by
  rw [startWord, fld_setBit_other _ _ _ _ _ (.inr h), fld_setBit_other _ _ _ _ _ (.inr (by omega))]

/-- The checks see the fields of the word written. -/
theorem eyeLegal_startWord (s : State) (val : Word) : eyeLegal (eyeCtrlTake s (startWord val)) ↔ eyeLegal val := by
  obtain ⟨hport, hdwell, hx, -⟩ := eyeCtrlTake_fields s (startWord val)
  rw [eyeLegal, eyeLegal, hport, hdwell, hx, fld_startWord _ _ _ (by decide), fld_startWord _ _ _ (by decide), fld_startWord _ _ _ (by decide)]

/-- The ledger's admission does not rest on TRL_EYE_CTRL. -/
theorem ledgerOk_eyeWritten (s : State) (val : Word) (w : List (Nat × Word)) (mW : Nat) : ledgerOk (eyeWritten s val w) mW = ledgerOk s mW := by
  have hreg : reg (eyeWritten s val w) (supR 0x100) = reg s (supR 0x100) := reg_setReg_other s _ _ _ (by decide)
  have hz : horizon (eyeWritten s val w) = horizon s := by rw [horizon, rf, hreg]; rfl
  rw [ledgerOk, hz]
  rfl

/-- A sweep clears the result window before it begins. -/
def eyeCleared (s : State) : State :=
  if rb s (trlR 0x040) 26 then { s with regs := s.regs.filter fun e => !(decide (trlR 0x8000 ≤ e.1) && decide (e.1 < trlR 0xBF00)) } else s

theorem eyeStart_stops (s : State) (h : ¬ eyeLegal (reg s (trlR 0x040))) :
    eyeStart s = setRf (setReg s (trlR 0x040) (setBit (reg s (trlR 0x040)) 31 false)) (trlR 0x044) 3 0 3 := by
  simp only [eyeLegal] at h
  unfold eyeStart
  exact if_pos (by simp only [rf]; omega)

theorem eyeStart_begins (s : State) (h : eyeLegal (reg s (trlR 0x040))) (hl : ledgerOk s 20 = true) :
    eyeStart s = { setRf (eyeCleared s) (trlR 0x044) 3 0 1 with
      eye := some ⟨rf s (trlR 0x040) 29 27, rb s (trlR 0x040) 26, 0, now (eyeCleared s)⟩ } := by
  simp only [eyeLegal] at h
  unfold eyeStart
  dsimp only
  rw [if_neg (by simp only [rf]; omega), hl, if_neg (by decide)]
  rfl

/-- A register outside the entries that a filter takes out of the register file. -/
theorem kget_filter {α : Type} (d : α) (m : KV α) (f : Nat × α → Bool) (k : Nat) (h : ∀ v, f (k, v) = true) : kget d (m.filter f) k = kget d m k := by
  induction m with
  | nil => rfl
  | cons e m ih =>
    obtain ⟨j, v⟩ := e
    rw [List.filter_cons]
    by_cases hj : j = k
    · subst hj
      rw [if_pos (h v), kget, kget, if_pos rfl, if_pos rfl]
    · rw [kget, if_neg hj, ← ih]
      split
      · rw [kget, if_neg hj]
      · rfl

theorem eyeCleared_regsOnly (s : State) : ∃ r, eyeCleared s = { s with regs := r } := by
  unfold eyeCleared
  split
  · exact ⟨_, rfl⟩
  · exact ⟨s.regs, rfl⟩

theorem reg_eyeCleared (s : State) (a : Nat) (h : a < trlR 0x8000) : reg (eyeCleared s) a = reg s a := by
  unfold eyeCleared
  split
  · exact kget_filter (regReset (roleOf s) a) s.regs _ a fun v => by rw [decide_eq_false (by omega)]; rfl
  · rfl

/-! The end of a scan. -/

/-- A scan has ended with a STATE: START is clear, and ports, faults and the other registers stand. -/
structure EyeEnded (s t : State) (st : Nat) : Prop where
  eye : t.eye = none
  stat : rf t (trlR 0x044) 3 0 = st
  start : rb t (trlR 0x040) 31 = false
  frame : t.ports = s.ports ∧ t.flt = s.flt
  regs : ∀ a, a ≠ trlR 0x040 → a ≠ trlR 0x044 → reg t a = reg s a

theorem eyeStart_ends (s : State) (hs : s.eye = none) (h : ¬ eyeLegal (reg s (trlR 0x040))) : EyeEnded s (eyeStart s) 3 := by
  rw [eyeStart_stops s h]
  refine ⟨hs, rf_setRf_same _ _ _ _ _ (by decide) (by decide), ?_, ⟨rfl, rfl⟩, fun a h0 h4 => ?_⟩
  · rw [rb, reg_setRf_other _ _ _ _ _ _ (by decide), reg_setReg_same, bitOf_setBit _ _ _ _ (by decide), if_pos rfl]
  · rw [reg_setRf_other _ _ _ _ _ _ h4, reg_setReg_other _ _ _ _ h0]

/-- With no START in the same cycle (R13). -/
theorem eyeEnd_ends (s : State) (st : Nat) (hst : st < 16) (h : ∀ e ∈ s.swSet, e.1 ≠ trlR 0x040) : EyeEnded s (eyeEnd s st) st := by
  obtain ⟨u, hu⟩ : ∃ u, u = { setRf s (trlR 0x044) 3 0 st with eye := none } := ⟨_, rfl⟩
  have hsw : (u.swSet.any fun e => e.1 == trlR 0x040 && e.2 &&& wd 0x80000000 != 0) = false := by
    rw [List.any_eq_false]
    intro e he
    rw [hu] at he
    simp [h e he]
  have hend : eyeEnd s st = setReg u (trlR 0x040) (reg u (trlR 0x040) &&& ~~~ wd 0x80000000) := by
    rw [eyeEnd, ← hu, actionEnd, hsw, if_neg Bool.false_ne_true]
  rw [hend]
  refine ⟨by rw [hu]; rfl, ?_, ?_, by rw [hu]; exact ⟨rfl, rfl⟩, fun a h0 h4 => ?_⟩
  · rw [rf, reg_setReg_other _ _ _ _ (by decide), hu]
    exact rf_setRf_same s _ _ _ _ (by decide) hst
  · rw [rb, reg_setReg_same, bitOf_eq, BitVec.getLsbD_and, show (~~~ wd 0x80000000).getLsbD 31 = false by decide, Bool.and_false]
  · rw [reg_setReg_other _ _ _ _ h0, hu]
    exact reg_setRf_other s _ _ _ _ a h4

/-! The commands of a scan. -/

/-- START with legal fields that the ledger admits. -/
theorem eyeWrite_begins (s : State) (o : Origin) (val : Word) (hs : s.eye = none) (h : eyeLegal val) (hl : ledgerOk s 20 = true) :
    let t := eyeWrite s o (startWord val)
    t.eye = some ⟨fld val 29 27, bitOf val 26, 0, now s⟩ ∧ rf t (trlR 0x044) 3 0 = 1 ∧ rb t (trlR 0x040) 31 = true ∧ t.ports = s.ports ∧ t.flt = s.flt := by
  obtain ⟨h31, h30, h26⟩ := startWord_bits val
  obtain ⟨hport, -, -, hsweep⟩ := eyeCtrlTake_fields s (startWord val)
  obtain ⟨w, hw⟩ := eyeWrite_starts s o (startWord val) hs h31 h30
  obtain ⟨u, hu⟩ : ∃ u, u = eyeWritten s (startWord val) w := ⟨_, rfl⟩
  have hreg : reg u (trlR 0x040) = eyeCtrlTake s (startWord val) := by rw [hu]; exact reg_setReg_same s _ _
  have hlegal : eyeLegal (reg u (trlR 0x040)) := by rwa [hreg, eyeLegal_startWord]
  have hledger : ledgerOk u 20 = true := by rwa [hu, ledgerOk_eyeWritten]
  obtain ⟨r, hclear⟩ := eyeCleared_regsOnly u
  dsimp only
  rw [hw, ← hu, eyeStart_begins u hlegal hledger]
  refine ⟨?_, ?_, ?_, ?_, ?_⟩
  · have hnow : now (eyeCleared u) = now s := by rw [hclear, hu]; rfl
    rw [rf, rb, hreg, hport, hsweep, hnow, h26, fld_startWord _ _ _ (by decide)]
  · exact rf_setRf_same (eyeCleared u) (trlR 0x044) 3 0 1 (by decide) (by decide)
  · show rb (setRf (eyeCleared u) (trlR 0x044) 3 0 1) (trlR 0x040) 31 = true
    rw [rb, reg_setRf_other _ _ _ _ _ _ (by decide), reg_eyeCleared u _ (by decide), hreg, eyeCtrlTake_start s _ h31]
  · show (eyeCleared u).ports = s.ports
    rw [hclear, hu]
    rfl
  · show (eyeCleared u).flt = s.flt
    rw [hclear, hu]
    rfl

/-- START with illegal fields. -/
theorem eyeWrite_refuses (s : State) (o : Origin) (val : Word) (hs : s.eye = none) (h : ¬ eyeLegal val) :
    ∃ w, EyeEnded (eyeWritten s (startWord val) w) (eyeWrite s o (startWord val)) 3 := by
  obtain ⟨h31, h30, -⟩ := startWord_bits val
  obtain ⟨w, hw⟩ := eyeWrite_starts s o (startWord val) hs h31 h30
  have hreg : reg (eyeWritten s (startWord val) w) (trlR 0x040) = eyeCtrlTake s (startWord val) := reg_setReg_same s _ _
  refine ⟨w, ?_⟩
  rw [hw]
  exact eyeStart_ends _ hs (by rwa [hreg, eyeLegal_startWord])

/-- The count of a point, which saturates below the word of a point not yet taken (R109). -/
def eyeCount (n : Nat) : Word := wd (Nat.min n 0xFFFFFFFE)

/-- The effect of the end of a point's dwell. -/
def eyePoint (s : State) (e : Eye) (n : Nat) : State :=
  if e.sweep then
    if e.pt + 1 = 4032 then eyeEnd (setReg s (trlR (0x8000 + 4 * e.pt)) (eyeCount n)) 2
    else { setReg s (trlR (0x8000 + 4 * e.pt)) (eyeCount n) with eye := some { e with pt := e.pt + 1, begun := now s } }
  else eyeEnd (setReg s (trlR 0x048) (eyeCount n)) 2

theorem exec_eyePointDone (s : State) (e : Eye) (n : Nat) (hr : s.sys.inReset = false) (hs : s.eye = some e)
    (hd : e.begun + 2 ^ (rf s (trlR 0x040) 23 18) * 4 / 25 ≤ now s) : exec (.eyePointDone n) s = .next (eyePoint s e n) := by
  show execEyePointDone n s = _
  rw [execEyePointDone, live_of_run s _ hr]
  simp only [hs, Nat.not_lt.mpr hd, if_false]
  rfl

/-- Settles O31: the write of TRL_EYE_CTRL begins, refuses or aborts a scan, and the end of a dwell stores its count and ends the point. -/
theorem eyeScan : Obligations.EyeScan := by
  intro o val n s hr hreach hsw
  have hgate : ∀ f : State → State, gate s (trlR 0x040) f = f s := fun f => gate_of_reachable s _ f hreach
  refine ⟨fun hs hp hlo hhi hx hl => answers_live rfl hr ?_, fun hs hbad => answers_live rfl hr ?_, fun e hs => answers_live rfl hr ?_,
    fun e hs hd hsweep => ⟨_, exec_eyePointDone s e n hr hs hd, ?_⟩, fun e hs hd hsweep hpt => ⟨_, exec_eyePointDone s e n hr hs hd, ?_⟩,
    fun e hs hd hsweep hpt => ⟨_, exec_eyePointDone s e n hr hs hd, ?_⟩⟩
  · -- START
    rw [hgate]
    exact eyeWrite_begins s o val hs ⟨hp, hlo, hhi, hx⟩ hl
  · -- START with illegal fields
    rw [hgate]
    obtain ⟨w, hend⟩ := eyeWrite_refuses s o val hs (by simp only [eyeLegal]; omega)
    exact ⟨hend.eye, hend.stat, hend.start, hend.frame⟩
  · -- ABORT
    rw [hgate, eyeWrite_aborts s o _ e hs (by rw [bitOf_setBit _ _ _ _ (by decide), if_pos rfl])]
    have hend := eyeEnd_ends (eyeWritten s (setBit (setBit val 30 true) 31 false) s.swSet) 3 (by decide) hsw
    exact ⟨hend.eye, hend.stat, hend.start, hend.frame⟩
  · -- a single point
    have hend := eyeEnd_ends (setReg s (trlR 0x048) (eyeCount n)) 2 (by decide) hsw
    rw [eyePoint, hsweep, if_neg Bool.false_ne_true]
    exact ⟨hend.eye, hend.stat, (hend.regs _ (by decide) (by decide)).trans (reg_setReg_same s _ _), hend.start⟩
  · -- a point of a sweep
    rw [eyePoint, hsweep, if_pos rfl, if_neg (by omega)]
    exact ⟨rfl, reg_setReg_same s _ _, fun a ha => reg_setReg_other s _ _ a ha⟩
  · -- its last point
    have hend := eyeEnd_ends (setReg s (trlR (0x8000 + 4 * e.pt)) (eyeCount n)) 2 (by decide) hsw
    rw [eyePoint, hsweep, if_pos rfl, if_pos (by omega)]
    rw [hpt] at hend ⊢
    exact ⟨hend.eye, hend.stat, (hend.regs _ (by decide) (by decide)).trans (reg_setReg_same s _ _), hend.start⟩

end Sys2Proof.Machine
end

section
/-! SUPPORT. The links of a port: its loss and return to DETECT, code violations, electrical idle and the write of TRL_PpCFG
(R82 to R85, R102 to R106). -/

namespace Sys2Proof.Machine

open Sys2Proof

/-! What the direction of a port and R83 rest on. -/

theorem trlStat_ne_cfg (p q : Nat) : trlStat p ≠ trlCfg q := by simp only [trlStat, trlCfg, trlR]; omega

theorem trlCfg_ne {p q : Nat} (h : q ≠ p) : trlCfg q ≠ trlCfg p := by simp only [trlCfg, trlR]; omega

/-- R83 reads of the directions which ports are UP and which are PARTNER. -/
theorem portConfigBroken_congr {s t : State} (hrole : roleOf t = roleOf s)
    (h4 : ∀ q, (dirOf t q == 4) = (dirOf s q == 4)) (hup : ∀ q, (dirOf t q == 1 || dirOf t q == 2) = (dirOf s q == 1 || dirOf s q == 2)) :
    portConfigBroken t = portConfigBroken s := by
  have hups : upPorts t = upPorts s := by simp only [upPorts, hup]
  have hpartners : portsOf t 4 = portsOf s 4 := by simp only [portsOf, h4]
  rw [portConfigBroken, portConfigBroken, isUpper, isUpper, hrole, hups, hpartners]

theorem portConfigBroken_of_dirs {s t : State} (hrole : roleOf t = roleOf s) (h : ∀ q, dirOf t q = dirOf s q) :
    portConfigBroken t = portConfigBroken s :=
  portConfigBroken_congr hrole (fun q => by rw [h]) fun q => by rw [h]

/-- Directions stand where TRL_PpSTAT alone changes. -/
theorem dirOf_of_stat {s t : State} (p : Nat) (h : ∀ a, a ≠ trlStat p → reg t a = reg s a) (q : Nat) : dirOf t q = dirOf s q := by
  refine dirOf_of_role_bits (h _ ?_) (fun k => ?_) q
  · simp only [fltR, trlStat, trlR]; omega
  · exact congrArg (fld · 2 0) (h _ (trlStat_ne_cfg p k).symm)

/-! Loss. -/

theorem eyeAbortOn_none (s : State) (p : Nat) (h : s.eye = none) : eyeAbortOn s p = s := by rw [eyeAbortOn, h]; rfl

/-- A link that drops changes its port, the packets that have lost their way and the record of what is sent. -/
theorem linkDrop_eq (s : State) (p : Nat) :
    ∃ f l r, linkDrop s p = { modPort s p f with sent := l, trr := r } := by
  unfold linkDrop
  dsimp only
  split
  · split
    · exact ⟨_, _, _, rfl⟩
    · exact ⟨_, _, _, rfl⟩
  · exact ⟨_, _, _, rfl⟩

/-- The port in DETECT, before the loss is told. -/
def detected (s : State) (p : Nat) : State :=
  let u := if wasActive (portOf s p) then linkDrop s p else s
  modPort u p fun t => t.detect (now u)

theorem detected_frame (s : State) (p : Nat) : ∃ k l r, detected s p = { s with ports := k, sent := l, trr := r } := by
  unfold detected
  dsimp only
  split
  · obtain ⟨f, l, r, h⟩ := linkDrop_eq s p
    rw [h]
    exact ⟨_, l, r, rfl⟩
  · exact ⟨_, s.sent, s.trr, rfl⟩

theorem portOf_detected_same (s : State) (p : Nat) : ∃ (t : PortSt) (lt : Nat), portOf (detected s p) p = t.detect lt :=
  ⟨_, _, portOf_modPort_same _ p _⟩

theorem portOf_detected_other (s : State) (p q : Nat) (h : q ≠ p) : portOf (detected s p) q = portOf s q := by
  rw [detected, portOf_modPort, if_neg h]
  split
  · obtain ⟨f, l, r, hdrop⟩ := linkDrop_eq s p
    rw [hdrop]
    show portOf (modPort s p f) q = portOf s q
    rw [portOf_modPort, if_neg h]
  · rfl

/-- A port has lost its link: it is in DETECT in reference mode, LOSS is set and LINK_LOSS reported, and no other port has changed. -/
def LinkLost (s t : State) (p : Nat) : Prop :=
  ((portOf t p).stage, (portOf t p).fwd, (portOf t p).idleTx) = (.detect, false, false) ∧ rb t (trlStat p) 2 = true ∧
    Reports s t (64 + p) .linkLoss (trlStat p) ∧ ∀ q, q ≠ p → portOf t q = portOf s q

theorem notInjecting_of_reg {s t : State} (h : reg t (fltR 0x080) = reg s (fltR 0x080)) (hq : notInjecting s = true) : notInjecting t = true := by
  rw [notInjecting, rb, h]
  exact hq

/-- A loss, with no scan of the port and no injection (R102). -/
theorem toDetect_loses (s : State) (p : Nat) (hs : s.eye = none) (hq : notInjecting s = true) :
    LinkLost s (toDetect s p true) p ∧ roleOf (toDetect s p true) = roleOf s ∧ ∀ a, a ≠ trlStat p → reg (toDetect s p true) a = reg s a := by
  obtain ⟨k, l, r, hframe⟩ := detected_frame s p
  obtain ⟨x, lt, hport⟩ := portOf_detected_same s p
  obtain ⟨u, hu⟩ : ∃ u, u = flag (detected s p) (trlStat p) 4 := ⟨_, rfl⟩
  have hreg : ∀ a, a ≠ trlStat p → reg u a = reg s a := fun a ha => by
    rw [hu, reg_flag_other _ _ _ _ ha, hframe]
    rfl
  have hquiet : notInjecting u = true := notInjecting_of_reg (hreg _ (by simp only [fltR, trlStat, trlR]; omega)) hq
  have heq : toDetect s p true = modFlt u fun f => { f with bus := f.bus ++ [(now u, faultMsg (64 + p) .linkLoss (trlStat p) false)] } := by
    rw [← report_quiet u _ _ _ hquiet, hu]
    simp only [toDetect, eyeAbortOn_none s p hs, if_true]
    rfl
  rw [heq]
  refine ⟨⟨?_, ?_, ?_, fun q hqp => ?_⟩, ?_, hreg⟩
  · rw [portOf_modFlt, hu, portOf_flag, hport]
    rfl
  · rw [rb_modFlt, hu, rb_flag _ _ _ _ (by decide)]
    exact Bool.or_true _
  · rw [Reports, modFlt_flt, hu, flag_flt, now_flag, hframe]
    rfl
  · rw [portOf_modFlt, hu, portOf_flag, portOf_detected_other s p q hqp]
  · rw [roleOf_modFlt, hu, roleOf_flag, hframe]
    rfl

/-! Code violations (R84). -/

/-- CODE_ERR and the count of a violation. -/
def violationCounted (s : State) (p : Nat) : State :=
  let u := flag s (trlStat p) 1
  let c := trlR (0x108 + 0x40 * p)
  if reg u c = 0xFFFFFFFF then u else setReg u c (reg u c + 1)

theorem violationCounted_frame (s : State) (p : Nat) : ∃ r h, violationCounted s p = { s with regs := r, hwSet := h } := by
  unfold violationCounted
  dsimp only
  split
  · exact ⟨_, _, rfl⟩
  · exact ⟨_, _, rfl⟩

theorem violationCounted_regs (s : State) (p : Nat) : rb (violationCounted s p) (trlStat p) 0 = true ∧
    reg (violationCounted s p) (trlR (0x108 + 0x40 * p)) =
      if reg s (trlR (0x108 + 0x40 * p)) = 0xFFFFFFFF then 0xFFFFFFFF else reg s (trlR (0x108 + 0x40 * p)) + 1 := by
  have hne : trlR (0x108 + 0x40 * p) ≠ trlStat p := by simp only [trlStat, trlR]; omega
  have hflag : rb (flag s (trlStat p) 1) (trlStat p) 0 = true := by
    rw [rb_flag _ _ _ _ (by decide)]
    exact Bool.or_true _
  unfold violationCounted
  simp only [reg_flag_other s _ 1 _ hne]
  split
  next hfull => exact ⟨hflag, (reg_flag_other s _ 1 _ hne).trans hfull⟩
  next =>
    refine ⟨?_, reg_setReg_same _ _ _⟩
    rw [rb, reg_setReg_other _ _ _ _ hne.symm]
    exact hflag

/-- Its port: the clean count begins anew, and the violation joins those of the last 1,024 symbols. -/
def violatedPort (t : PortSt) (lt : Nat) : PortSt :=
  { t with cleanFrom := lt, errs := (t.errs.filter fun e => decide (lt < e + symbols 1024)) ++ [lt] }

/-- A violation, before a loss is judged. -/
def violated (s : State) (p : Nat) : State :=
  modPort (violationCounted s p) p fun t => violatedPort t (now (violationCounted s p))

theorem portOf_violated (s : State) (p q : Nat) :
    portOf (violated s p) q = if q = p then violatedPort (portOf s p) (now s) else portOf s q := by
  obtain ⟨r, h, hframe⟩ := violationCounted_frame s p
  rw [violated, portOf_modPort, hframe]
  rfl

theorem execCodeViolation_eq (s : State) (p : Port) : execCodeViolation p s = .next (live s fun s => if dirOf s p = 0 then s
    else if isActive (violated s p) p && lossSeen (violated s p) p .codeErrors then toDetect (violated s p) p true else violated s p) := rfl

/-- At a port that is not ACTIVE a violation has no other effect. -/
theorem exec_codeViolation_inactive (s : State) (p : Port) (hr : s.sys.inReset = false) (hd : dirOf s p ≠ 0) (ha : isActive s p = false) :
    exec (.codeViolation p) s = .next (violated s p) := by
  have hstage : ((portOf s p).stage == .active) = false := by
    rw [isActive, bne_iff_ne.mpr hd, Bool.and_true] at ha
    exact ha
  have hina : isActive (violated s p) p = false := by
    rw [isActive, portOf_violated, if_pos rfl, violatedPort, hstage, Bool.false_and]
  show execCodeViolation p s = _
  rw [execCodeViolation_eq, live_of_run s _ hr, if_neg hd, hina, Bool.false_and, if_neg Bool.false_ne_true]

theorem codeViolation_effect (s : State) (p : Nat) :
    rb (violated s p) (trlStat p) 0 = true ∧ (portOf (violated s p) p).cleanFrom = now s ∧
      reg (violated s p) (trlR (0x108 + 0x40 * p)) =
        (if reg s (trlR (0x108 + 0x40 * p)) = 0xFFFFFFFF then 0xFFFFFFFF else reg s (trlR (0x108 + 0x40 * p)) + 1) ∧
      (portOf (violated s p) p).stage = (portOf s p).stage ∧ (∀ q, q ≠ p → portOf (violated s p) q = portOf s q) ∧ (violated s p).flt = s.flt := by
  obtain ⟨hflag, hcount⟩ := violationCounted_regs s p
  obtain ⟨r, h, hframe⟩ := violationCounted_frame s p
  refine ⟨?_, ?_, ?_, ?_, fun q hq => ?_, ?_⟩
  · rw [violated, rb_modPort, hflag]
  · rw [portOf_violated, if_pos rfl, violatedPort]
  · rw [violated, reg_modPort, hcount]
  · rw [portOf_violated, if_pos rfl, violatedPort]
  · rw [portOf_violated, if_neg hq]
  · rw [violated, modPort_flt, hframe]

/-- A port changes and tells its peer: one record is sent, and nothing else changes. -/
theorem send_modPort_frame (s : State) (p : Nat) (f : PortSt → PortSt) (x : Sent) :
    (send (modPort s p f) x).sent = s.sent ++ [x] ∧ (∀ q, q ≠ p → portOf (send (modPort s p f) x) q = portOf s q) ∧
      { send (modPort s p f) x with ports := s.ports, sent := s.sent } = s :=
  ⟨rfl, fun q hq => by rw [portOf_send, portOf_modPort, if_neg hq], rfl⟩

/-! Electrical idle (R104 to R106). -/

/-- Entry, where nothing has left for IDLE_AFTER. -/
theorem exec_idleEntry (s : State) (p : Port) (hr : s.sys.inReset = false) (hs : s.eye = none) (ha : isActive s p = true)
    (hf : (portOf s p).fwd = true) (hi : (portOf s p).idleTx = false) (hq : portIdle (portOf s p) = true) (hen : rb s (trlCfg p) 4 = true)
    (hpeer : bitOf (reg s (trlR (0x110 + 0x40 * p.val))) 26 = true)
    (ht : max (portOf s p).lastTx (portOf s p).quietFrom + symbols (max 32 (rf s (trlCfg p) 19 8)) ≤ now s) (hw : inC1Win s = false) :
    exec (.idleEntry p) s = .next (send (modPort s p fun t => { t with idleTx := true, idleTill := 0 }) (.idle p true)) := by
  show execIdleEntry p s = _
  rw [execIdleEntry, live_of_run s _ hr]
  have ht' : decide (Nat.max (portOf s p).lastTx (portOf s p).quietFrom + symbols (Nat.max 32 (rf s (trlCfg p) 19 8)) ≤ now s) = true := decide_eq_true ht
  simp only [ha, hf, hi, hq, hen, hpeer, ht', hw, hs, Option.any_none, Bool.not_false, Bool.and_self, if_true]

theorem idleExit_leaves (s : State) (p : Port) (hi : (portOf s p).idleTx = true) :
    idleExit s p = send (modPort s p fun t => { t with idleTx := false, idleTill := now s + 80, quietFrom := now s + 80 }) (.idle p false) := by
  rw [idleExit, if_pos hi]

/-! TRL_PpCFG (Table 3-7). -/

def portCfgRow : RegRow := regN 0x100 6 0x40 0x00810018 [(31, 31, .wo), (23, 8, .rw), (4, 0, .rw)]

theorem rowOf_trlCfg : ∀ p : Port, rowOf (trlCfg p) = some portCfgRow := by decide

/-- TRL_PpCFG after a write. -/
def portCfgTake (s : State) (p : Nat) (val : Word) : Word := softTake (reg s (trlCfg p)) portCfgRow val

theorem getLsbD_portCfgTake (s : State) (p : Nat) (val : Word) {i : Nat} (h : i < 32) : (portCfgTake s p val).getLsbD i =
    if i ≤ 4 then val.getLsbD i else if 8 ≤ i ∧ i ≤ 23 then val.getLsbD i else (reg s (trlCfg p)).getLsbD i := by
  simp only [portCfgTake, softTake, portCfgRow, regN, List.foldl_cons, List.foldl_nil, getLsbD_fieldWrite_rw _ _ _ _ h, Nat.zero_le, true_and]
  rfl

theorem fld_portCfgTake (s : State) (p : Nat) (val : Word) {hi lo : Nat} (h : hi ≤ 4 ∨ (8 ≤ lo ∧ hi ≤ 23)) :
    fld (portCfgTake s p val) hi lo = fld val hi lo := by
  refine fld_congr fun i hl hh => ?_
  rw [getLsbD_portCfgTake s p val (by omega)]
  split
  · rfl
  · rw [if_pos (by omega)]

/-- RETRAIN is no part of the register: a word that differs in it alone leaves the register as it is. -/
theorem portCfgTake_retrain (s : State) (p : Nat) : portCfgTake s p (setBit (reg s (trlCfg p)) 31 true) = reg s (trlCfg p) := by
  refine BitVec.eq_of_getLsbD_eq fun i hi => ?_
  have hbit : i ≠ 31 → (setBit (reg s (trlCfg p)) 31 true).getLsbD i = (reg s (trlCfg p)).getLsbD i := fun h => by
    rw [← bitOf_eq, bitOf_setBit _ _ _ _ hi, if_neg h, bitOf_eq]
  rw [getLsbD_portCfgTake s p _ hi]
  split
  · exact hbit (by omega)
  · split
    · exact hbit (by omega)
    · rfl

theorem genWrite_trlCfg (s : State) (o : Origin) (p : Port) (val : Word) :
    genWrite s o (trlCfg p) val = setReg s (trlCfg p) (portCfgTake s p val) := by
  have hmask : accMask portCfgRow (· == .w1s) = 0 := by decide
  exact genWrite_soft_only s o _ val portCfgRow (rowOf_trlCfg p) (by decide) (by rw [hmask]; exact BitVec.and_zero)

/-- The directions after a write. -/
theorem dirOf_setCfg (s : State) (p : Nat) (w : Word) (q : Nat) : dirOf (setReg s (trlCfg p) w) q =
    if (reg s (fltR 0x090)).toNat.testBit q then 0
    else if q = p then (if 5 ≤ fld w 2 0 then 0 else fld w 2 0) else dirOf s q := by
  have hf : reg (setReg s (trlCfg p) w) (fltR 0x090) = reg s (fltR 0x090) := reg_setReg_other _ _ _ _ (by simp only [fltR, trlCfg, trlR]; omega)
  unfold dirOf
  rw [hf]
  by_cases hpr : (reg s (fltR 0x090)).toNat.testBit q
  · rw [if_pos hpr, if_pos hpr]
  · rw [if_neg hpr, if_neg hpr, if_neg hpr]
    by_cases hq : q = p
    · subst hq
      rw [if_pos rfl, rf, show reg (setReg s (trlCfg q) w) (trlR (0x100 + 0x40 * q)) = w from reg_setReg_same s _ w]
    · rw [if_neg hq, rf, show reg (setReg s (trlCfg p) w) (trlR (0x100 + 0x40 * q)) = reg s (trlR (0x100 + 0x40 * q)) from
        reg_setReg_other s _ _ _ (trlCfg_ne hq)]
      rfl

/-- A write that leaves DIR as it is leaves the directions. -/
theorem dirOf_setCfg_kept (s : State) (p : Nat) (w : Word) (h : fld w 2 0 = rf s (trlCfg p) 2 0) (q : Nat) :
    dirOf (setReg s (trlCfg p) w) q = dirOf s q := by
  rw [dirOf_setCfg]
  by_cases hpr : (reg s (fltR 0x090)).toNat.testBit q
  · rw [if_pos hpr, dirOf, if_pos hpr]
  · rw [if_neg hpr]
    by_cases hq : q = p
    · subst hq
      rw [if_pos rfl, h, dirOf, if_neg hpr]
      rfl
    · rw [if_neg hq]

/-- DIR as a write may change it: it stays, or the role and the mode permit the new one (R81, R82). -/
def dirTaken (s : State) (p : Nat) (d : Nat) : Bool :=
  decide (d = rf s (trlCfg p) 2 0 ∨ (if isCell s then d = 0 ∨ d = cellDir p else modeOf s = .boot))

theorem dirTaken_upper (s : State) (p d : Nat) (h : isUpper s = true) :
    dirTaken s p d = decide (d = rf s (trlCfg p) 2 0 ∨ modeOf s = .boot) := by
  simp only [dirTaken, not_isCell_of_isUpper s h, Bool.false_eq_true, if_false]

/-- The register written, with its access fault, and the port that follows its direction. -/
def portCfgWritten (s : State) (p : Nat) (val : Word) : State :=
  let ok := dirTaken s p (fld val 2 0)
  let u := setReg s (trlCfg p) (portCfgTake s p (if ok then val else setFld val 2 0 (rf s (trlCfg p) 2 0)))
  followDir (if ok then u else accessFault u (trlCfg p)) p (dirOf s p)

/-- The same after RETRAIN. -/
def portCfgDone (s : State) (p : Nat) (val : Word) : State :=
  if bitOf val 31 then retrain (portCfgWritten s p val) p else portCfgWritten s p val

/-- The whole of a write that the ledger is not asked about and that leaves a configuration that holds to R83. -/
theorem portCfg_unbroken (s : State) (o : Origin) (p : Port) (val : Word) (hc : isCell s = false ∨ rf s (trlCfg p) 2 0 ≠ 0)
    (hb : portConfigBroken (portCfgDone s p val) = false) : portCfg s o p val = portCfgDone s p val := by
  have henabling : (isCell s && decide (rf s (trlCfg p) 2 0 = 0)) = false := by
    rcases hc with h | h
    · rw [h, Bool.false_and]
    · rw [decide_eq_false h, Bool.and_false]
  simp only [portCfgDone, portCfgWritten, dirTaken, decide_eq_true_eq] at hb ⊢
  unfold portCfg
  simp only [henabling, Bool.false_and, Bool.false_eq_true, if_false, Bool.not_false, Bool.and_true, decide_eq_true_eq, genWrite_trlCfg, hb]

theorem followDir_kept (s : State) (p old : Nat) (h : dirOf s p = old) : followDir s p old = s := by rw [followDir, if_pos h]

/-- A write that names the present DIR. -/
theorem portCfgWritten_kept (s : State) (p : Nat) (val : Word) (h : fld val 2 0 = rf s (trlCfg p) 2 0) :
    portCfgWritten s p val = setReg s (trlCfg p) (portCfgTake s p val) := by
  have hok : dirTaken s p (fld val 2 0) = true := decide_eq_true (.inl h)
  have hdir : dirOf (setReg s (trlCfg p) (portCfgTake s p val)) p = dirOf s p :=
    dirOf_setCfg_kept s p _ ((fld_portCfgTake s p val (.inl (by decide))).trans h) p
  simp only [portCfgWritten, hok, if_true]
  exact followDir_kept _ _ _ hdir

/-- RETRAIN of an ACTIVE port (R102). -/
theorem portCfg_retrains (s : State) (o : Origin) (p : Port) (hs : s.eye = none) (hq : notInjecting s = true) (ha : isActive s p = true)
    (hb : portConfigBroken s = false) : LinkLost s (portCfg s o p (setBit (reg s (trlCfg p)) 31 true)) p := by
  obtain ⟨val, hval⟩ : ∃ val, val = setBit (reg s (trlCfg p)) 31 true := ⟨_, rfl⟩
  obtain ⟨u, hu⟩ : ∃ u, u = setReg s (trlCfg p) (reg s (trlCfg p)) := ⟨_, rfl⟩
  rw [isActive, Bool.and_eq_true, bne_iff_ne] at ha
  obtain ⟨hstage, hdir⟩ := ha
  have hd : fld val 2 0 = rf s (trlCfg p) 2 0 := by rw [hval, fld_setBit_other _ _ _ _ _ (.inr (by decide))]; rfl
  have hdirs : ∀ q, dirOf u q = dirOf s q := fun q => by rw [hu, dirOf_setCfg_kept s p _ rfl q]
  have hcur : rf s (trlCfg p) 2 0 ≠ 0 := fun h0 => hdir (by
    rw [dirOf, show rf s (trlR (0x100 + 0x40 * p.val)) 2 0 = 0 from h0]
    exact ite_self 0)
  have hdone : portCfgDone s p val = toDetect u p true := by
    have h31 : bitOf val 31 = true := by rw [hval, bitOf_setBit _ _ _ _ (by decide), if_pos rfl]
    have hwas : wasActive (portOf u p) = true := by rw [hu, portOf_setReg, wasActive, hstage, Bool.true_or]
    rw [portCfgDone, h31, if_pos rfl, portCfgWritten_kept s p val hd, hval, portCfgTake_retrain, ← hu, retrain, hdirs, if_neg hdir, hwas]
  have hquiet : notInjecting u = true := notInjecting_of_reg (by rw [hu, reg_setReg_self]) hq
  obtain ⟨hlost, hrole, hregs⟩ := toDetect_loses u p (by rw [hu]; exact hs) hquiet
  have hbroken : portConfigBroken (portCfgDone s p val) = false := by
    have hall : ∀ q, dirOf (toDetect u p true) q = dirOf s q := fun q => (dirOf_of_stat p hregs q).trans (hdirs q)
    have hsame : roleOf u = roleOf s := by rw [hu]; rfl
    rw [hdone, portConfigBroken_of_dirs (hrole.trans hsame) hall, hb]
  rw [← hval, portCfg_unbroken s o p val (.inr hcur) hbroken, hdone]
  rw [hu] at hlost ⊢
  exact hlost

/-- A new DIR of DOWN, in an upper part in BOOT (R80, R82). -/
theorem portCfg_takes (s : State) (o : Origin) (p : Port) (val : Word) (hup : isUpper s = true) (hm : modeOf s = .boot)
    (hb : portConfigBroken s = false) (h0 : rf s (trlCfg p) 2 0 = 0) (hpr : reg s (fltR 0x090) = 0) (hd : fld val 2 0 = 3) (h31 : bitOf val 31 = false) :
    let t := portCfg s o p val
    t = modPort (setReg s (trlCfg p) (portCfgTake s p val)) p (fun x => { x.detect (now s) with powered := true }) ∧ dirOf t p = 3 := by
  have hcell : isCell s = false := not_isCell_of_isUpper s hup
  have hopen : ∀ q : Nat, ¬ (reg s (fltR 0x090)).toNat.testBit q = true := fun q => by rw [hpr]; simp
  obtain ⟨u, hu⟩ : ∃ u, u = setReg s (trlCfg p) (portCfgTake s p val) := ⟨_, rfl⟩
  have hdirs : ∀ q, dirOf u q = if q = p.val then 3 else dirOf s q := fun q => by
    rw [hu, dirOf_setCfg, if_neg (hopen q), fld_portCfgTake s p val (.inl (by decide)), hd]
    rfl
  have hold : dirOf s p = 0 := by
    rw [dirOf, if_neg (hopen p), show rf s (trlR (0x100 + 0x40 * p.val)) 2 0 = 0 from h0]
    rfl
  have hdone : portCfgDone s p val = modPort u p fun x => { x.detect (now s) with powered := true } := by
    have hok : dirTaken s p (fld val 2 0) = true := by
      rw [dirTaken_upper s p _ hup]
      exact decide_eq_true (.inr hm)
    have hdp : dirOf u p = 3 := by rw [hdirs, if_pos rfl]
    simp only [portCfgDone, portCfgWritten, h31, hok, if_true, ← hu, Bool.false_eq_true, if_false]
    rw [followDir, hdp, hold]
    subst hu
    rfl
  have hbroken : portConfigBroken (portCfgDone s p val) = false := by
    have hall : ∀ q, dirOf (portCfgDone s p val) q = if q = p.val then 3 else dirOf s q := fun q => by rw [hdone]; exact hdirs q
    rw [portConfigBroken_congr (s := s) (by rw [hdone, hu]; rfl) (fun q => ?_) (fun q => ?_), hb]
    · rw [hall]
      by_cases hq : q = p.val
      · rw [if_pos hq, hq, hold]; rfl
      · rw [if_neg hq]
    · rw [hall]
      by_cases hq : q = p.val
      · rw [if_pos hq, hq, hold]; rfl
      · rw [if_neg hq]
  dsimp only
  rw [portCfg_unbroken s o p val (.inl hcell) hbroken, hdone, ← hu]
  exact ⟨rfl, (hdirs p).trans (if_pos rfl)⟩

theorem accessFault_busOnly (s : State) (a : Nat) (h : notInjecting s = true) : ∃ f, accessFault s a = modFlt s f := by
  unfold accessFault
  dsimp only
  rw [report_quiet _ _ _ _ h]
  exact ⟨_, rfl⟩

/-- Another DIR than the present one, in an upper part outside BOOT (R82). -/
theorem portCfg_faults (s : State) (o : Origin) (p : Port) (val : Word) (hup : isUpper s = true) (hm : modeOf s ≠ .boot) (hq : notInjecting s = true)
    (hb : portConfigBroken s = false) (hd : fld val 2 0 ≠ rf s (trlCfg p) 2 0) (h31 : bitOf val 31 = false) :
    let t := portCfg s o p val
    rf t (trlCfg p) 2 0 = rf s (trlCfg p) 2 0 ∧ portOf t p = portOf s p ∧ Reports s t 95 .access (trlCfg p) := by
  obtain ⟨w, hw⟩ : ∃ w, w = portCfgTake s p (setFld val 2 0 (rf s (trlCfg p) 2 0)) := ⟨_, rfl⟩
  obtain ⟨u, hu⟩ : ∃ u, u = setReg s (trlCfg p) w := ⟨_, rfl⟩
  have hkept : fld w 2 0 = rf s (trlCfg p) 2 0 := by
    rw [hw, fld_portCfgTake s p _ (.inl (by decide)), fld_setFld_same _ _ _ _ (by decide) (by rw [rf]; exact fld_lt _ 2 0)]
  have hreg : ∀ a, a ≠ trlCfg p → reg u a = reg s a := fun a ha => by rw [hu, reg_setReg_other _ _ _ _ ha]
  have hquiet : notInjecting u = true := notInjecting_of_reg (hreg _ (by simp only [fltR, trlCfg, trlR]; omega)) hq
  have hblock : blockOf (trlCfg p) = 2 := by simp only [blockOf, trlCfg, trlR]; omega
  obtain ⟨hrep, hregs, -⟩ := accessFault_periph u (trlCfg p) hquiet (by simp only [trlCfg, trlR]; omega) (by simp only [trlCfg, trlR]; omega)
  rw [hblock] at hrep
  obtain ⟨f, hbus⟩ := accessFault_busOnly u (trlCfg p) hquiet
  have hdirs : ∀ q, dirOf (accessFault u (trlCfg p)) q = dirOf s q := fun q => by
    rw [dirOf_of_regs (fun a _ => hregs a), hu, dirOf_setCfg_kept s p w hkept]
  have hdone : portCfgDone s p val = accessFault u (trlCfg p) := by
    have hok : dirTaken s p (fld val 2 0) = false := by
      rw [dirTaken_upper s p _ hup]
      exact decide_eq_false fun h => h.elim hd hm
    simp only [portCfgDone, portCfgWritten, h31, hok, Bool.false_eq_true, if_false, ← hw, ← hu]
    exact followDir_kept _ _ _ (hdirs p)
  have hbroken : portConfigBroken (portCfgDone s p val) = false := by
    have hsame : roleOf u = roleOf s := by rw [hu]; rfl
    rw [hdone, portConfigBroken_of_dirs (s := s) (by rw [hbus, roleOf_modFlt, hsame]) hdirs, hb]
  dsimp only
  rw [portCfg_unbroken s o p val (.inl (not_isCell_of_isUpper s hup)) hbroken, hdone]
  refine ⟨?_, ?_, ?_⟩
  · rw [rf, hregs, hu, reg_setReg_same, hkept]
  · rw [hbus, portOf_modFlt, hu, portOf_setReg]
  · rw [hu] at hrep ⊢
    exact hrep

/-- Settles O30: a loss and RETRAIN end in DETECT with LOSS and LINK_LOSS, a violation and a realignment begin the clean count anew, idle is
entered and left, and TRL_PpCFG takes a new DIR in BOOT alone. -/
theorem linkErrorsIdleAndConfiguration : Obligations.LinkErrorsIdleAndConfiguration := by
  intro o p c val s hr hs hq
  refine ⟨fun ha hseen => answers_live rfl hr ?_, fun hreach ha hb => answers_live rfl hr ?_,
    fun hd ha => ⟨_, exec_codeViolation_inactive s p hr hd ha, codeViolation_effect s p⟩, fun hd => answers_live rfl hr ?_,
    fun ha hf hi hidle hen hpeer ht hw => ⟨_, exec_idleEntry s p hr hs ha hf hi hidle hen hpeer ht hw, ?_⟩, fun hi => answers_live rfl hr ?_,
    fun hreach hup hm hb h0 hpr hd h31 => answers_live rfl hr ?_, fun hreach hup hm hb hd h31 => answers_live rfl hr ?_⟩
  · -- a loss
    rw [ha, hseen, Bool.and_self, if_pos rfl]
    exact (toDetect_loses s p hs hq).1
  · -- RETRAIN
    rw [gate_of_reachable s _ _ hreach]
    exact portCfg_retrains s o p hs hq ha hb
  · -- a realignment
    rw [if_neg hd]
    exact ⟨portOf_modPort_same _ _ _, fun q hqp => by rw [portOf_modPort, if_neg hqp], rfl⟩
  · -- entry to idle
    refine ⟨?_, send_modPort_frame s p _ _⟩
    rw [portOf_send, portOf_modPort_same]
  · -- exit from idle
    rw [idleExit_leaves s p hi]
    refine ⟨?_, send_modPort_frame s p _ _⟩
    rw [portOf_send, portOf_modPort_same]
  · -- a new DIR in BOOT
    obtain ⟨heq, hdir⟩ := portCfg_takes s o p val hup hm hb h0 hpr hd h31
    rw [gate_of_reachable s _ _ hreach]
    refine ⟨hdir, ?_⟩
    rw [heq]
    refine ⟨?_, ?_, ?_, fun q hqp => ?_, rfl, fun a ha => ?_⟩
    · rw [portOf_modPort_same]
      rfl
    · rw [rf_modPort, rf, reg_setReg_same, fld_portCfgTake s p val (.inr (by decide))]
    · rw [rf_modPort, rf, reg_setReg_same, fld_portCfgTake s p val (.inl (by decide))]
    · rw [portOf_modPort, if_neg hqp, portOf_setReg]
    · rw [reg_modPort, reg_setReg_other _ _ _ _ ha]
  · -- a new DIR in another mode
    rw [gate_of_reachable s _ _ hreach]
    exact portCfg_faults s o p val hup hm hq hb hd h31

end Sys2Proof.Machine
end

section
/-! SUPPORT. The credit of a C3 packet whose TYPE is CREDIT: a transmitter takes none for it (R135). -/

namespace Sys2Proof.Machine

open Sys2Proof

/-- A CREDIT packet of class C3, of one flit. -/
def creditC3 : Packet := ⟨0, 0, 0x0D, 3, 0, []⟩

/-- A cell whose ACTIVE port P0 holds that packet alone, with credit for one management flit. -/
def creditC3Waits : State :=
  { State.reset with
    sys := { State.reset.sys with inReset := false, porRst := false }
    ports := [(0, { PortSt.init with stage := .active, q3m := [creditC3], crC3m := 1 })] }

/-- The packet leaves and the port keeps its credit. -/
theorem creditC3Waits_sent :
    let t := txStart (drainCores creditC3Waits) 0
    (portOf t 0).q3m = [] ∧ (portOf t 0).crC3m = 1 ∧ flits creditC3 = 1 := by decide

/-- Refutes O32: the clause of the management queue says of every C3 packet that is not STREAM that its flits are taken from the credit.
The model takes none for a CREDIT packet of any class (log entry 47), and that the packet is none is among the hypotheses of the clause
of C2, not of this one. -/
theorem not_transmitOrderAndWindow : ¬ Obligations.TransmitOrderAndWindow := by
  intro h
  obtain ⟨-, -, hmgmt, -⟩ := h 0 creditC3 [] 0 0 0 creditC3Waits rfl (by decide)
  obtain ⟨t, ht, -, htaken⟩ := hmgmt (by decide) rfl rfl rfl rfl rfl rfl (by decide) (by decide) (by decide)
  have e : txStart (drainCores creditC3Waits) 0 = t := Host.Outcome.next.inj ht
  obtain ⟨-, hkept, hflits⟩ := creditC3Waits_sent
  have hzero : (portOf t 0).crC3m = 1 - flits creditC3 := congrArg (fun x => x.2.1) htaken
  rw [← e, hkept, hflits] at hzero
  exact absurd hzero (by decide)

end Sys2Proof.Machine
end

section
/-! SUPPORT. Tracked requests and the receive queues of the cores: completions, TICK_REPORT and the timeout (R136, R293). -/

namespace Sys2Proof.Machine

open Sys2Proof

/-! The list of tracked requests. -/

/-- The one request on the list is taken off it. -/
theorem untrack_single (s : State) (r : Req) (ep : Fin 3) (seq : BitVec 8) (hl : s.trr.reqs = [r]) (he : r.ep = ep) (hs : r.seq = seq) :
    untrack s ep seq = (modTrr s fun t => { t with reqs := [] }, true) := by
  have hfind : (s.trr.reqs.find? fun r => r.ep == ep && r.seq == seq) = some r := by
    rw [hl, List.find?_cons_of_pos (by rw [he, hs, beq_self_eq_true, beq_self_eq_true]; rfl)]
  have hnone : s.trr.reqs.erase r = [] := by rw [hl, List.erase_cons_head]
  simp only [untrack, hfind, modTrr, hnone]

/-- A completion for a core. -/
theorem complIn_core (s : State) (k : Packet) (r : Req) (hd : epOf k.dest = 0) (hl : s.trr.reqs = [r]) (he : r.ep = 0) (hs : r.seq = k.seq) :
    complIn s k = coreRx (modTrr s fun t => { t with reqs := [] }) (k.seq.toNat / 64) k := by
  rw [complIn, if_pos hd, untrack_single s r 0 k.seq hl he hs]
  rfl

/-- A completion for the host: it answers the command that asked (R334). -/
theorem complIn_host (s : State) (k : Packet) (r : Req) (c : XCmd) (hd : epOf k.dest = 1) (hl : s.trr.reqs = [r]) (he : r.ep = 1) (hs : r.seq = k.seq)
    (hx : s.stp.xfly = [(k.seq, c)]) :
    complIn s k =
      let u := modStp (modTrr s fun t => { t with reqs := [] }) fun t => { t with xfly := [] }
      if k.typ = 5 then xhpReply u c (fld (k.payload.getD 0 0) 15 0) [] else xhpReply u c 0 k.payload := by
  have hfind : (s.stp.xfly.find? fun e => e.1 == k.seq) = some (k.seq, c) := by rw [hx]; simp
  have hrest : (s.stp.xfly.filter fun x => x.1 != k.seq) = [] := by rw [hx, List.filter_cons_of_neg (by simp)]; rfl
  rw [complIn, if_neg (by rw [hd]; decide), if_pos hd]
  simp only [untrack_single s r 1 k.seq hl he hs, hfind, modStp, modTrr_stp, hrest]

/-- A completion for the discovery walk. -/
theorem complIn_walk (s : State) (k : Packet) (r : Req) (hd : epOf k.dest = 2) (hl : s.trr.reqs = [r]) (he : r.ep = 2) (hs : r.seq = k.seq) :
    complIn s k = modTrr s fun t => { t with reqs := [] } := by
  rw [complIn, if_neg (by rw [hd]; decide), if_neg (by rw [hd]; decide), if_pos hd, untrack_single s r 2 k.seq hl he hs]

/-- The two packets of a completion's row and of its function (Table 4-4). -/
theorem completion_exec (k : Packet) (s : State) (hr : s.sys.inReset = false) (hk : packetOk k = true) (ho : isOwn s k.dest = true) :
    ∀ e ∈ ([(3, .wrCplRx k), (4, .rdCplRx k), (5, .errCplRx k)] : List (Nat × Instr)), k.typ.toNat = e.1 → exec e.2 s = .next (complIn s k) := by
  have hown : ∀ n, k.typ.toNat = n → live s (fun s => ownIn s [n] k fun s => complIn s k) = complIn s k := fun n hn => by
    rw [live_of_run s _ hr, ownIn_takes s [n] k _ ho (by rw [hn]; simp) hk]
  intro e he ht
  simp only [List.mem_cons, List.not_mem_nil, or_false] at he
  rcases he with rfl | rfl | rfl
  · exact congrArg Host.Outcome.next (hown 3 ht)
  · exact congrArg Host.Outcome.next (hown 4 ht)
  · exact congrArg Host.Outcome.next (hown 5 ht)

/-! The receive queue of a core. -/

/-- From s to t a packet has entered the receive queue of a core and raised its flag there, and beside it only the router has changed. -/
def Received (s t : State) (n : Nat) (k : Packet) : Prop :=
  (coreOf t n).rxq = (coreOf s n).rxq ++ [k] ∧ (coreRuns (coreOf s n) = true → (coreOf t n).ev.getLsbD 9 = true) ∧
    (∀ i, i ≠ n → coreOf t i = coreOf s i) ∧ { t with cores := s.cores, trr := s.trr } = s

theorem coreRx_room (s : State) (n : Nat) (k : Packet) (h : (coreOf s n).rxq.length < 32) :
    coreRx s n k = raiseEv (modCore s n fun c => { c with rxq := c.rxq ++ [k], dropRun := false }) n 0x200 := if_pos h

theorem coreRx_received (s : State) (n : Nat) (k : Packet) (h : (coreOf s n).rxq.length < 32) :
    Received s (coreRx s n k) n k ∧ (coreRx s n k).trr = s.trr := by
  rw [coreRx_room s n k h]
  obtain ⟨hother, hframe⟩ := onlyCore_trans (onlyCore_modCore s n fun c => { c with rxq := c.rxq ++ [k], dropRun := false }) (onlyCore_modCore _ n _)
  refine ⟨⟨?_, fun hrun => ?_, hother, congrArg (fun t : State => { t with trr := s.trr }) hframe⟩, rfl⟩
  · rw [raiseEv, coreOf_modCore_same, coreOf_modCore_same]
    split <;> rfl
  · have hruns : coreRuns { coreOf s n with rxq := (coreOf s n).rxq ++ [k], dropRun := false } = true := hrun
    rw [raiseEv, coreOf_modCore_same, coreOf_modCore_same, if_pos hruns, BitVec.getLsbD_or]
    simp [wd]

/-- The same, once a request has left the list. -/
theorem coreRx_answered (s : State) (n : Nat) (k : Packet) (l : List Req) (h : (coreOf s n).rxq.length < 32) :
    Received s (coreRx (modTrr s fun t => { t with reqs := l }) n k) n k ∧ (coreRx (modTrr s fun t => { t with reqs := l }) n k).trr.reqs = l := by
  obtain ⟨⟨hq, hev, hother, hframe⟩, htrr⟩ := coreRx_received (modTrr s fun t => { t with reqs := l }) n k h
  refine ⟨⟨hq, hev, hother, ?_⟩, by rw [htrr]; rfl⟩
  exact congrArg (fun t : State => { t with trr := s.trr }) hframe

/-- ZCC_RXMAP names the core of a TICK_REPORT in [17:16] of its second word (R293). -/
theorem toCore_tickReport (s : State) (k : Packet) (hu : isUpper s = true) (hk : k.typ = 0x18) :
    toCore s k = coreRx s ((reg s (zccR 0x804)).toNat / 65536 % 4) k := by
  have hfld : ∀ w : Word, fld w 31 0 = w.toNat := fun w => by rw [fld, Nat.pow_zero, Nat.div_one]; exact Nat.mod_eq_of_lt w.isLt
  rw [toCore, if_pos hu, hk, hfld]
  rfl

/-! The timeout. -/

theorem exec_cplTimeout (s : State) (ep : Fin 3) (seq : BitVec 8) (r : Req) (hr : s.sys.inReset = false)
    (hfind : (s.trr.reqs.find? fun r => r.ep == ep && r.seq == seq) = some r) (ht : r.sent + cplTimeout s ≤ now s) :
    exec (.cplTimeout ep seq) s = .next (complIn s (ownErr s r 3)) := by
  show Host.Outcome.next (live s _) = _
  rw [live_of_run s _ hr]
  simp only [hfind, if_pos ht]

/-- The ERR_CPL of a request of a core goes to endpoint 0 of the node. -/
theorem ownErr_core (s : State) (r : Req) (he : r.ep = 0) :
    ownErr s r 3 = ⟨BitVec.ofNat 20 ((nodeId s).toNat * 64), r.dest, 5, r.cls, r.seq, [3]⟩ := by
  simp only [ownErr, ownPacket, he, BitVec.ofNat_toNat, BitVec.setWidth_eq]
  rfl

theorem epOf_node (n : BitVec 14) : epOf (BitVec.ofNat 20 (n.toNat * 64)) = 0 := by
  have := n.isLt
  rw [epOf, BitVec.toNat_ofNat]
  omega

/-- Settles O35: the completion or the report is the one packet that enters a queue; the other ends of a request are the host's command
and the walk's list. -/
theorem completionsReachTheirCore : Obligations.CompletionsReachTheirCore := by
  intro k seq s hr
  refine ⟨fun r hk ho hd hl he hs hroom e hmem ht => ⟨_, completion_exec k s hr hk ho e hmem ht, ?_⟩,
    fun hk ho ht hu hroom => answers_live rfl hr ?_, fun r hk ho hd hl he hs e hmem ht => ⟨_, completion_exec k s hr hk ho e hmem ht, ?_⟩,
    fun r c hk ho hd hl he hs hx => ?_, fun ep r hfind ht => ⟨_, exec_cplTimeout s ep seq r hr hfind ht, rfl⟩,
    fun r hl he hs ht hroom => ?_⟩
  · -- a completion for a core
    rw [complIn_core s k r hd hl he hs]
    exact coreRx_answered s _ k [] hroom
  · -- TICK_REPORT
    rw [ownIn_takes s [0x18] k _ ho (by rw [ht]; rfl) hk, toCore_tickReport s k hu ht]
    exact coreRx_received s _ k hroom
  · -- a completion for the walk
    rw [complIn_walk s k r hd hl he hs]
    exact ⟨rfl, rfl⟩
  · -- a completion for the host
    have hcpl := complIn_host s k r c hd hl he hs hx
    have hexec := completion_exec k s hr hk ho
    refine ⟨fun ht => ⟨_, hexec (3, .wrCplRx k) (by simp) (by rw [ht]; rfl), ?_⟩, fun ht => ⟨_, hexec (4, .rdCplRx k) (by simp) (by rw [ht]; rfl), ?_⟩,
      fun ht => ⟨_, hexec (5, .errCplRx k) (by simp) (by rw [ht]; rfl), ?_⟩⟩
    · rw [hcpl, ht]; rfl
    · rw [hcpl, ht]; rfl
    · rw [hcpl, ht]; rfl
  · -- the timeout of a core's request
    have hfind : (s.trr.reqs.find? fun r => r.ep == 0 && r.seq == seq) = some r := by
      rw [hl, List.find?_cons_of_pos (by rw [he, hs, beq_self_eq_true seq]; rfl)]
    refine ⟨_, exec_cplTimeout s 0 seq r hr hfind ht, ?_⟩
    have herr := ownErr_core s r he
    rw [hs] at herr
    rw [herr, complIn_core s _ r (epOf_node _) hl he hs]
    exact (coreRx_answered s _ _ [] hroom).symm

end Sys2Proof.Machine
end

section
/-! SUPPORT. The routes of packets: what the way out of a packet rests on, and what becomes of a packet on its way (R111, R122 to R125). -/

namespace Sys2Proof.Machine

open Sys2Proof

/-! The way out stands where the links and the range entries do. -/

/-- From s to t the links stand, and the range entries of every port. -/
structure SameRoutes (s t : State) : Prop where
  links : SameLinks s t
  ents : ∀ a, trrR 0x400 ≤ a → a < trrR 0x580 → reg t a = reg s a

theorem SameRoutes.refl (s : State) : SameRoutes s s := ⟨SameLinks.refl s, fun _ _ _ => rfl⟩

theorem SameRoutes.trans {s t u : State} (a : SameRoutes s t) (b : SameRoutes t u) : SameRoutes s u :=
  ⟨a.links.trans b.links, fun x h1 h2 => (b.ents x h1 h2).trans (a.ents x h1 h2)⟩

theorem SameRoutes.ite {s t u : State} {c : Prop} [Decidable c] (a : SameRoutes s t) (b : SameRoutes s u) : SameRoutes s (if c then t else u) := by
  split
  · exact a
  · exact b

theorem SameRoutes.rangeRank {s t : State} (h : SameRoutes s t) (d p : Nat) (hp : p < 6) : rangeRank t d p = rangeRank s d p := by
  refine List.foldl_ext _ _ _ fun b k hk => ?_
  have hk := List.mem_range.mp hk
  rw [h.ents _ (by simp only [trrR]; omega) (by simp only [trrR]; omega)]

/-- The narrower of a way found so far and that of a port; from above only DOWN ports lead on (R123, R124). -/
def nearer (s : State) (d : Nat) (above : Bool) (best : Option (Nat × Nat)) (p : Nat) : Option (Nat × Nat) :=
  if isActive s p && (dirOf s p == 3 || (!above && dirOf s p == 4)) then
    match rangeRank s d p, best with
    | some r, some (b, q) => if r < b then some (r, p) else some (b, q)
    | some r, none => some (r, p)
    | none, b => b
  else best

theorem outPort_eq (s : State) (src : Option Nat) (d : Nat) :
    outPort s src d =
      let above := src.any fun p => dirOf s p != 3
      (((List.range 6).foldl (nearer s d above) none).map (·.2)).or (if above then none else upRoute s) := by
  unfold outPort
  dsimp only
  split
  next p h => exact (congrArg (Option.or · _) h).symm
  next h => exact (congrArg (Option.or · _) h).symm

theorem SameRoutes.outPort {s t : State} (h : SameRoutes s t) (src : Option Nat) (d : Nat) : outPort t src d = outPort s src d := by
  have hd : dirOf t = dirOf s := funext h.links.dir
  have ha : isActive t = isActive s := funext h.links.isActive
  have hbest : ∀ above, (List.range 6).foldl (nearer t d above) none = (List.range 6).foldl (nearer s d above) none := fun above =>
    List.foldl_ext _ _ _ fun b p hp => by unfold nearer; rw [hd, ha, h.rangeRank d p (List.mem_range.mp hp)]
  have hup : upRoute t = upRoute s := by rw [upRoute, upRoute, h.links.upPorts, ha]
  rw [outPort_eq, outPort_eq, hd, hup]
  simp only [hbest]

theorem sameRoutes_enqueue (s : State) (p : Nat) (k : Packet) (d : Bool) : SameRoutes s (enqueue s p k d) := ⟨sameLinks_enqueue s p k d, fun _ _ _ => rfl⟩

/-- A register of another block takes a word, or TRR_DROP_CNT does. -/
theorem sameRoutes_setReg (s : State) (a : Nat) (v : Word) (h : a < trlR 0 ∨ a = trrR 0x030) : SameRoutes s (setReg s a v) := by
  refine ⟨?_, fun x h1 h2 => reg_setReg_other s a v x ?_⟩
  · refine sameLinks_setReg_apart s v ?_ fun p => ?_
    · rcases h with h | rfl
      · simp only [trlR, fltR] at h ⊢; omega
      · decide
    · rcases h with h | rfl
      · simp only [trlR] at h ⊢; omega
      · simp only [trlR, trrR]; omega
  · rcases h with h | rfl
    · simp only [trrR, trlR] at h h1 ⊢; omega
    · simp only [trrR] at h1 ⊢; omega

theorem reg_report_other (s : State) (src : Nat) (k : Kind) (a x : Nat) (h : x ≠ fltR 0x080) : reg (report s src k a) x = reg s x := by
  unfold report whenB
  dsimp only
  split
  · exact reg_setReg_other s _ _ x h
  · rfl

theorem sameRoutes_report (s : State) (src : Nat) (k : Kind) (a : Nat) : SameRoutes s (report s src k a) :=
  ⟨sameLinks_report s src k a, fun x h1 h2 => reg_report_other s src k a x (by simp only [trrR, fltR] at h2 ⊢; omega)⟩

theorem sameRoutes_countUp (s : State) (hi lo : Nat) : SameRoutes s (countUp s (trrR 0x030) hi lo) :=
  SameRoutes.ite (sameRoutes_setReg s _ _ (.inr rfl)) (SameRoutes.refl s)

theorem sameRoutes_creditBack (s : State) (p : Nat) (k : Packet) : SameRoutes s (creditBack s p k) := by
  refine ⟨sameLinks_creditBack s p k, fun x _ _ => ?_⟩
  obtain ⟨l, hl⟩ := creditBack_portsOnly s p k
  rw [hl]
  rfl

theorem sameRoutes_noRoute (s : State) (src : Option Nat) : SameRoutes s (noRoute s src) :=
  SameRoutes.ite (SameRoutes.refl s) ((sameRoutes_countUp s 31 16).trans (sameRoutes_report _ 96 .noRoute (trrR 0x030)))

/-! A packet that passes through. -/

theorem forward_routed (s : State) (src : Option Nat) (k : Packet) (q : Nat) (h : outPort s src (nodeOf k.dest) = some q) :
    forward s src k .good = enqueue s q k (dataQueue k) := by
  simp only [forward, h, if_true]

/-- A packet that is damaged, aborted or cut off is ended at its output (R122). -/
theorem forward_ends (s : State) (src : Option Nat) (k : Packet) (arr : Arrival) (q : Nat) (h : outPort s src (nodeOf k.dest) = some q) (ha : arr ≠ .good) :
    forward s src k arr = modPort s q fun t => { t with qx := t.qx ++ [k] } := by
  simp only [forward, h, if_neg ha]

/-- Without a way a packet is dropped, and nothing answers for one that is damaged or no request (R125). -/
theorem forward_dropped (s : State) (src : Option Nat) (k : Packet) (arr : Arrival) (h : outPort s src (nodeOf k.dest) = none)
    (hn : arr ≠ .good ∨ isRequest k = false) : forward s src k arr = noRoute s src := by
  have hcond : ¬ (arr = .good ∧ isRequest k = true ∧ onlyDiscards s src = false) := by
    rintro ⟨ha, hreq, -⟩
    rcases hn with hn | hn
    · exact hn ha
    · rw [hn] at hreq; exact Bool.false_ne_true hreq
  simp only [forward, h, if_neg hcond]

/-- The ERR_CPL of a request that has no way on (R125). -/
theorem errCpl_eq (s : State) (k : Packet) (status : Nat) : errCpl s k status = ⟨k.src, k.dest, 5, k.cls, k.seq, [wd status]⟩ := by
  simp only [errCpl, ownPacket, BitVec.ofNat_toNat, BitVec.setWidth_eq]
  rfl

/-- A whole request without a way on is answered where there is a way back (R125). -/
theorem forward_answered (s : State) (src : Option Nat) (k : Packet) (q : Nat) (h : outPort s src (nodeOf k.dest) = none) (hreq : isRequest k = true)
    (honly : onlyDiscards s src = false) (hback : outPort s none (nodeOf k.src) = some q) :
    forward s src k .good = enqueue (noRoute s src) q ⟨k.src, k.dest, 5, k.cls, k.seq, [2]⟩ false := by
  have hback' : outPort (noRoute s src) none (nodeOf k.src) = some q := by rw [(sameRoutes_noRoute s src).outPort, hback]
  simp only [forward, h, hreq, honly, and_self, if_true, errCpl_eq, hback']
  rfl

/-! NO_ROUTE. -/

/-- An upper part counts a packet that it drops and reports it (R125). -/
theorem noRoute_upper (s : State) (src : Option Nat) (hc : isCell s = false) (hq : notInjecting s = true) :
    noRoute s src = modFlt (countNoRoute s) fun f => { f with bus := f.bus ++ [(now s, faultMsg 96 .noRoute (trrR 0x030) false)] } := by
  have honly : onlyDiscards s src = false := by rw [onlyDiscards, hc, Bool.false_and]
  have hquiet : notInjecting (countNoRoute s) = true :=
    notInjecting_of_reg (reg_countUp_other s _ 31 16 _ (by decide)) hq
  rw [noRoute, honly, if_neg Bool.false_ne_true, report_quiet _ _ _ _ hquiet]
  have hnow : now (countNoRoute s) = now s := by unfold countNoRoute countUp; dsimp only; split <;> rfl
  rw [hnow]

theorem countUp_frame (s : State) (a hi lo : Nat) : ∃ r, countUp s a hi lo = { s with regs := r } := by
  unfold countUp
  dsimp only
  split
  · exact ⟨_, rfl⟩
  · exact ⟨s.regs, rfl⟩

end Sys2Proof.Machine
end

section
/-! SUPPORT. What a packet does where it arrives: the buffer it gives back, its CRC, and the node it is for (R112, R119, R120, R122). -/

namespace Sys2Proof.Machine

open Sys2Proof

/-! The node a packet is for. -/

/-- The state once a packet from a port has given its buffer back (R135). -/
def credited (s : State) (src : Option Nat) (k : Packet) : State :=
  match src with
  | some p => creditBack s p k
  | none => s

theorem credited_portsOnly (s : State) (src : Option Nat) (k : Packet) : PortsOnly s (credited s src k) := by
  cases src with
  | none => exact portsOnly_refl s
  | some p => exact creditBack_portsOnly s p k

theorem credited_routes (s : State) (src : Option Nat) (k : Packet) : SameRoutes s (credited s src k) := by
  cases src with
  | none => exact SameRoutes.refl s
  | some p => exact sameRoutes_creditBack s p k

theorem isOwn_congr {s t : State} (h : t.trr = s.trr) (d : BitVec 20) : isOwn t d = isOwn s d := by rw [isOwn, isOwn, h]

theorem fromPartner_elsewhere (s : State) (src : Option Nat) (k : Packet) (h : ∀ p, src = some p → dirOf s p ≠ 4) : fromPartner s src k = false := by
  cases src with
  | none => rfl
  | some p =>
    have hp : (dirOf s p == 4) = false := beq_eq_false_iff_ne.mpr (h p rfl)
    rw [fromPartner, Option.any_some, hp, Bool.false_and]

/-- A packet that the PARTNER port has not brought is taken by its address or its TYPE alone. -/
theorem isMine_elsewhere (s : State) (src : Option Nat) (k : Packet) (h : ∀ p, src = some p → dirOf s p ≠ 4) :
    isMine s src k = (isOwn s k.dest || oneHop k) := by rw [isMine, fromPartner_elsewhere s src k h, Bool.or_false]

theorem oneHop_of_linkLocal (k : Packet) (h : [0x08, 0x09, 0x0A, 0x0D, 0x0E].contains k.typ.toNat = true) : oneHop k = true := by
  simp only [List.contains_eq_mem, List.mem_cons, List.not_mem_nil, or_false, decide_eq_true_eq] at h
  unfold oneHop hopType
  rcases h with h | h | h | h | h <;> rw [h] <;> rfl

/-- A packet that goes on tells nothing of the far end of its link (R120). -/
theorem peerLearn_onward (s : State) (src : Option Nat) (k : Packet) (h : oneHop k = false) : peerLearn s src k = s := by
  cases src with
  | none => rfl
  | some p =>
    refine if_neg fun hl => ?_
    rw [oneHop_of_linkLocal k hl] at h
    exact Bool.false_ne_true h.symm

theorem peerLearn_trr (s : State) (src : Option Nat) (k : Packet) : (peerLearn s src k).trr = s.trr := by
  unfold peerLearn
  split
  · split <;> rfl
  · rfl

/-! What arrives. -/

/-- The port it came from is ACTIVE, where it came from one. -/
def fromActive (s : State) (src : Option Nat) : Prop := ∀ p, src = some p → isActive s p = true

theorem all_isActive (s : State) (src : Option Nat) (h : fromActive s src) : src.all (isActive s) = true := by
  cases src with
  | none => rfl
  | some p => exact h p rfl

theorem active_credited (s : State) (p : Nat) (k : Packet) (h : isActive s p = true) :
    (if isActive s p then creditBack s p k else s) = credited s (some p) k := if_pos h

/-- A whole packet of a permitted TYPE and CLASS: the partner's function, the one of its TYPE, or its way on. -/
theorem receive_whole (s : State) (src : Option Nat) (k : Packet) (ha : fromActive s src) (hk : packetOk k = true) :
    receive s src k .good =
      let u := peerLearn (credited s src k) src k
      if fromPartner u src k then partnerIn u (src.getD 0) k
      else if isMine u src k then deliver u src k
      else forward (whenB (src.any fun p => dirOf u p == 4) (passMark · k) u) src k .good := by
  unfold receive
  rw [all_isActive s src ha, Bool.not_true, Bool.and_false, if_neg Bool.false_ne_true]
  dsimp only
  rw [if_pos rfl, hk, Bool.not_true, if_neg Bool.false_ne_true]
  cases src with
  | none => rfl
  | some p => simp only [active_credited s p k (ha p rfl)]

/-- The state once a damaged packet has been counted, and its CRC reported (R119, R122). -/
def damaged (s : State) (src : Option Nat) (k : Packet) (arr : Arrival) : State :=
  let u := countAbort (credited s src k)
  if arr = .badCrc then report u 96 .fabCrc (trrR 0x030) else u

/-- A damaged packet that is not for this node goes on to its end. -/
theorem receive_damaged (s : State) (src : Option Nat) (k : Packet) (arr : Arrival) (ha : fromActive s src) (hg : arr ≠ .good)
    (hm : isMine (damaged s src k arr) src k = false) : receive s src k arr = forward (damaged s src k arr) src k arr := by
  unfold receive
  rw [all_isActive s src ha, Bool.not_true, Bool.and_false, if_neg Bool.false_ne_true]
  dsimp only
  rw [if_neg hg]
  cases src with
  | none => exact if_neg (ne_true_of_eq_false hm)
  | some p => simp only [active_credited s p k (ha p rfl)]; exact if_neg (ne_true_of_eq_false hm)

theorem damaged_routes (s : State) (src : Option Nat) (k : Packet) (arr : Arrival) : SameRoutes s (damaged s src k arr) :=
  have h := (credited_routes s src k).trans (sameRoutes_countUp _ 15 0)
  SameRoutes.ite (h.trans (sameRoutes_report ..)) h

theorem report_trr (s : State) (src : Nat) (k : Kind) (a : Nat) : (report s src k a).trr = s.trr := by
  unfold report whenB
  dsimp only
  split <;> rfl

theorem countUp_trr (s : State) (a hi lo : Nat) : (countUp s a hi lo).trr = s.trr := by
  unfold countUp
  dsimp only
  split <;> rfl

theorem damaged_trr (s : State) (src : Option Nat) (k : Packet) (arr : Arrival) : (damaged s src k arr).trr = s.trr := by
  obtain ⟨l, hl⟩ := credited_portsOnly s src k
  have hc : (countAbort (credited s src k)).trr = s.trr := by rw [countAbort, countUp_trr, hl]
  unfold damaged
  dsimp only
  split
  · rw [report_trr, hc]
  · exact hc

/-- A packet whose address and TYPE do not name this node is not taken, and no port but PARTNER makes it so. -/
theorem isMine_kept (s t : State) (src : Option Nat) (k : Packet) (h : ∀ p, src = some p → dirOf s p ≠ 4) (hl : SameLinks s t) (ht : t.trr = s.trr) :
    isMine t src k = isMine s src k := by
  rw [isMine_elsewhere s src k h, isMine_elsewhere t src k (fun p hp => by rw [hl.dir]; exact h p hp), isOwn_congr ht]

end Sys2Proof.Machine
end

section
/-! SUPPORT. The ways of a packet on or into its node (R112, R119, R122 to R125). -/

namespace Sys2Proof.Machine

open Sys2Proof

/-! What a CREDIT packet that leaves a port keeps there. -/

/-- On a port a waiting packet changes only the queues of the classes. -/
theorem portOf_enqueue_keeps (s : State) (p : Nat) (k : Packet) (d : Bool) (q : Nat) :
    (portOf (enqueue s p k d) q).qx = (portOf s q).qx ∧ (portOf (enqueue s p k d) q).peerId = (portOf s q).peerId := by
  unfold enqueue
  rw [portOf_modPort]
  split
  next e =>
    subst e
    by_cases h1 : k.cls = 1
    · rw [if_pos h1]; exact ⟨rfl, rfl⟩
    by_cases h2 : k.cls = 2
    · rw [if_neg h1, if_pos h2]; exact ⟨rfl, rfl⟩
    · rw [if_neg h1, if_neg h2]
      cases d <;> exact ⟨rfl, rfl⟩
  next => exact ⟨rfl, rfl⟩

theorem portOf_creditSend_keeps (s : State) (p c2 c3d c3m q : Nat) :
    (portOf (creditSend s p c2 c3d c3m) q).qx = (portOf s q).qx ∧ (portOf (creditSend s p c2 c3d c3m) q).peerId = (portOf s q).peerId := by
  unfold creditSend
  split
  · exact portOf_enqueue_keeps ..
  · exact ⟨rfl, rfl⟩

theorem portOf_creditBack_keeps (s : State) (p : Nat) (k : Packet) (q : Nat) :
    (portOf (creditBack s p k) q).qx = (portOf s q).qx ∧ (portOf (creditBack s p k) q).peerId = (portOf s q).peerId := by
  unfold creditBack
  split
  · exact ⟨rfl, rfl⟩
  split
  · exact portOf_creditSend_keeps ..
  split
  · exact portOf_creditSend_keeps ..
  · exact portOf_creditSend_keeps ..

theorem portOf_credited_keeps (s : State) (src : Option Nat) (k : Packet) (q : Nat) :
    (portOf (credited s src k) q).qx = (portOf s q).qx ∧ (portOf (credited s src k) q).peerId = (portOf s q).peerId := by
  cases src with
  | none => exact ⟨rfl, rfl⟩
  | some p => exact portOf_creditBack_keeps s p k q

/-- A packet of the partner is told by the port it came on and by what the node knows, not by what waits on the ports. -/
theorem fromPartner_credited (s : State) (src : Option Nat) (k : Packet) : fromPartner (credited s src k) src k = fromPartner s src k := by
  have hpeer := fun q => (portOf_credited_keeps s src k q).2
  obtain ⟨l, hl⟩ := credited_portsOnly s src k
  rw [hl] at hpeer ⊢
  unfold fromPartner isCopy
  simp only [hpeer]
  rfl

/-! A whole packet. -/

/-- A packet of this node is still its own once its buffer has gone back and the far end of its link is known. -/
theorem isMine_credited (s : State) (src : Option Nat) (k : Packet) (h : isMine s src k = true) : isMine (peerLearn (credited s src k) src k) src k = true := by
  obtain ⟨l, hl⟩ := credited_portsOnly s src k
  have htrr : (peerLearn (credited s src k) src k).trr = s.trr := by rw [peerLearn_trr, hl]
  have hfrom := fromPartner_credited s src k
  cases hone : oneHop k with
  | true => rw [isMine, hone, Bool.or_true, Bool.true_or]
  | false =>
    have hpeer := peerLearn_onward (credited s src k) src k hone
    rw [isMine, isOwn_congr htrr, hpeer, hfrom]
    exact h

theorem receive_mine (s : State) (src : Option Nat) (k : Packet) (ha : fromActive s src) (hk : packetOk k = true) (hm : isMine s src k = true) :
    receive s src k .good =
      let u := peerLearn (credited s src k) src k
      if fromPartner u src k then partnerIn u (src.getD 0) k else deliver u src k := by
  rw [receive_whole s src k ha hk]
  simp only [isMine_credited s src k hm, if_true]

/-- A whole packet for another node, from any port but PARTNER, goes on its way. -/
theorem receive_onward (s : State) (src : Option Nat) (k : Packet) (ha : fromActive s src) (hk : packetOk k = true)
    (hd : ∀ p, src = some p → dirOf s p ≠ 4) (hm : isMine s src k = false) : receive s src k .good = forward (credited s src k) src k .good := by
  have hlinks := (credited_routes s src k).links
  have hone : oneHop k = false := by
    rw [isMine_elsewhere s src k hd, Bool.or_eq_false_iff] at hm
    exact hm.2
  obtain ⟨l, hl⟩ := credited_portsOnly s src k
  have htrr : (credited s src k).trr = s.trr := by rw [hl]
  have hd' : ∀ p, src = some p → dirOf (credited s src k) p ≠ 4 := fun p hp => by rw [hlinks.dir]; exact hd p hp
  have hmark : (src.any fun p => dirOf (credited s src k) p == 4) = false := by
    cases src with
    | none => rfl
    | some p => exact beq_eq_false_iff_ne.mpr (hd' p rfl)
  rw [receive_whole s src k ha hk]
  simp only [peerLearn_onward _ src k hone, fromPartner_elsewhere _ src k hd', isMine_kept s _ src k hd hlinks htrr, hm, hmark, whenB,
    Bool.false_eq_true, if_false]

/-- A packet of a function of the node for another one. -/
theorem receive_own_onward (s : State) (k : Packet) (hk : packetOk k = true) (hm : isMine s none k = false) :
    receive s none k .good = forward s none k .good :=
  receive_onward s none k (fun _ h => nomatch h) hk (fun _ h => nomatch h) hm

/-- A damaged packet for another node, from any port but PARTNER, is ended. -/
theorem receive_damaged_onward (s : State) (src : Option Nat) (k : Packet) (arr : Arrival) (ha : fromActive s src) (hg : arr ≠ .good)
    (hd : ∀ p, src = some p → dirOf s p ≠ 4) (hm : isMine s src k = false) :
    receive s src k arr = forward (damaged s src k arr) src k arr :=
  receive_damaged s src k arr ha hg (by rw [isMine_kept s _ src k hd (damaged_routes s src k arr).links (damaged_trr s src k arr), hm])

/-! A damaged packet. -/

theorem damaged_port (s : State) (src : Option Nat) (k : Packet) (arr : Arrival) (q : Nat) :
    portOf (damaged s src k arr) q = portOf (credited s src k) q := by
  have hcount : (countAbort (credited s src k)).ports = (credited s src k).ports := by
    obtain ⟨r, hr⟩ := countUp_frame (credited s src k) (trrR 0x030) 15 0
    rw [countAbort, hr]
  unfold damaged
  dsimp only
  split
  · unfold report whenB
    dsimp only
    split <;> exact congrArg (fun l => kget PortSt.init l q) hcount
  · exact congrArg (fun l => kget PortSt.init l q) hcount

/-- TRR_DROP_CNT counts it in its low half. -/
theorem damaged_count (s : State) (src : Option Nat) (k : Packet) (arr : Arrival) :
    rf (damaged s src k arr) (trrR 0x030) 15 0 = min 65535 (rf s (trrR 0x030) 15 0 + 1) := by
  have hreg : reg (damaged s src k arr) (trrR 0x030) = reg (countAbort (credited s src k)) (trrR 0x030) := by
    unfold damaged
    dsimp only
    split
    · exact reg_report_other _ _ _ _ _ (by decide)
    · rfl
  obtain ⟨l, hl⟩ := credited_portsOnly s src k
  have hrf : rf (credited s src k) (trrR 0x030) 15 0 = rf s (trrR 0x030) 15 0 := by rw [hl]; rfl
  rw [rf, hreg, ← rf, countAbort, rf_countUp _ _ _ _ (by decide), hrf]
  rfl

/-- A failed CRC is reported (R119). -/
theorem damaged_badCrc (s : State) (src : Option Nat) (k : Packet) (hq : notInjecting s = true) :
    damaged s src k .badCrc =
      modFlt (countAbort (credited s src k)) fun f => { f with bus := s.flt.bus ++ [(now s, faultMsg 96 .fabCrc (trrR 0x030) false)] } := by
  obtain ⟨l, hl⟩ := credited_portsOnly s src k
  obtain ⟨r, hr⟩ := countUp_frame (credited s src k) (trrR 0x030) 15 0
  have hquiet : notInjecting (countAbort (credited s src k)) = true :=
    notInjecting_of_reg (reg_countUp_other _ _ 15 0 _ (by decide)) (by rw [hl]; exact hq)
  have hbus : (countAbort (credited s src k)).flt.bus = s.flt.bus := by rw [countAbort, hr, hl]
  have hnow : now (countAbort (credited s src k)) = now s := by rw [countAbort, hr, hl]; rfl
  rw [damaged, if_pos rfl, report_quiet _ _ _ _ hquiet, hnow]
  exact congrArg (fun b => modFlt (countAbort (credited s src k)) fun f => { f with bus := b ++ _ }) hbus

end Sys2Proof.Machine
end

section
/-! SUPPORT. A packet goes out, comes in, is ended or answered (R112, R119, R123, R125, Table 4-4). -/

namespace Sys2Proof.Machine

open Sys2Proof

/-- What waits on a port is told by that port alone. -/
theorem Queued.of_port {s u t : State} {q : Nat} {k : Packet} (h : Queued u t q k) (hp : portOf u q = portOf s q) : Queued s t q k := by
  unfold Queued at h ⊢
  rw [hp] at h
  exact h

/-- What an upper part shows of a packet that has no way on (R125). -/
theorem noRoute_shows (s : State) (src : Option Nat) (hc : isCell s = false) (hq : notInjecting s = true) :
    Reports s (noRoute s src) 96 .noRoute (trrR 0x030) ∧ rf (noRoute s src) (trrR 0x030) 31 16 = min 65535 (rf s (trrR 0x030) 31 16 + 1) ∧
      (noRoute s src).ports = s.ports := by
  have hcount : rf (countNoRoute s) (trrR 0x030) 31 16 = min 65535 (rf s (trrR 0x030) 31 16 + 1) := rf_countUp s _ 31 16 (by decide)
  obtain ⟨r, hr⟩ := countUp_frame s (trrR 0x030) 31 16
  have hflt : (countNoRoute s).flt = s.flt := by rw [countNoRoute, hr]
  have hports : (countNoRoute s).ports = s.ports := by rw [countNoRoute, hr]
  rw [noRoute_upper s src hc hq]
  exact ⟨congrArg (fun f : Flt => f.bus ++ _) hflt, hcount, hports⟩

/-- A packet of the kinds that have a row of their own does what that row does. -/
theorem deliver_row (s : State) (k : Packet) (hr : s.sys.inReset = false) (hk : packetOk k = true) (ho : isOwn s k.dest = true) :
    ∀ e ∈ ([(1, .wrReqRx k), (2, .rdReqRx k), (3, .wrCplRx k), (4, .rdCplRx k), (5, .errCplRx k), (0x18, .tickReportRx k)] : List (Nat × Instr)),
      k.typ.toNat = e.1 → exec e.2 s = .next (deliver s none k) := by
  have hown : ∀ (n : Nat) (f : State → State), k.typ.toNat = n → live s (fun s => ownIn s [n] k f) = f s := fun n f hn => by
    rw [live_of_run s _ hr, ownIn_takes s [n] k _ ho (by rw [hn]; simp) hk]
  intro e he ht
  simp only [List.mem_cons, List.not_mem_nil, or_false] at he
  rcases he with rfl | rfl | rfl | rfl | rfl | rfl
  · exact congrArg Host.Outcome.next ((hown 1 (requestIn · k) ht).trans (by simp only [deliver, ht]))
  · exact congrArg Host.Outcome.next ((hown 2 (requestIn · k) ht).trans (by simp only [deliver, ht]))
  · exact congrArg Host.Outcome.next ((hown 3 (complIn · k) ht).trans (by simp only [deliver, ht]))
  · exact congrArg Host.Outcome.next ((hown 4 (complIn · k) ht).trans (by simp only [deliver, ht]))
  · exact congrArg Host.Outcome.next ((hown 5 (complIn · k) ht).trans (by simp only [deliver, ht]))
  · exact congrArg Host.Outcome.next ((hown 0x18 (toCore · k) ht).trans (by simp only [deliver, ht]))

/-- A port of the part as an origin of a packet. -/
theorem fromActive_port {s : State} {src : Option Port} (h : ∀ p, src = some p → isActive s p = true) : fromActive s (src.map (·.val)) := by
  intro p hp
  obtain ⟨q, hq, rfl⟩ := Option.map_eq_some_iff.mp hp
  exact h q hq

theorem notPartner_port {s : State} {src : Option Port} (h : ∀ p, src = some p → dirOf s p ≠ 4) : ∀ p, src.map (·.val) = some p → dirOf s p ≠ 4 := by
  intro p hp
  obtain ⟨q, hq, rfl⟩ := Option.map_eq_some_iff.mp hp
  exact h q hq

/-- A whole packet for another node waits on the port of its route, and the port it came from has its credit back. -/
theorem receive_queued (s : State) (src : Option Nat) (k : Packet) (q : Nat) (ha : fromActive s src) (hk : packetOk k = true)
    (hd : ∀ p, src = some p → dirOf s p ≠ 4) (hm : isMine s src k = false) (hout : outPort s src (nodeOf k.dest) = some q) :
    let t := receive s src k .good
    Queued (credited s src k) t q k ∧ (∀ r, r ≠ q → portOf t r = portOf (credited s src k) r) ∧ { t with ports := s.ports } = s := by
  have hout' : outPort (credited s src k) src (nodeOf k.dest) = some q := by rw [(credited_routes s src k).outPort, hout]
  obtain ⟨l, hl⟩ := credited_portsOnly s src k
  rw [receive_onward s src k ha hk hd hm, forward_routed _ _ k q hout']
  refine ⟨enqueue_queued _ q k, fun r h => portOf_enqueue_other _ q r k _ h, ?_⟩
  rw [hl]
  rfl

/-- Settles O33: a packet is taken where it is at home, and goes on, is ended or is answered for where it is not. -/
theorem routingOfPackets : Obligations.RoutingOfPackets := by
  intro k s hr hq hk
  refine ⟨fun q hm hout => answers_live rfl hr ?_, fun src q ha hd hm hout => ⟨answers_live rfl hr ?_, fun arr hg => answers_live rfl hr ?_⟩,
    fun src ha hm => answers_live rfl hr ?_, fun hm hc hout hreq => answers_live rfl hr ?_, fun q hm hc hout hreq hback => answers_live rfl hr ?_,
    fun hm hout hc => answers_live rfl hr ?_, fun ho e he ht => ⟨_, rfl, ?_⟩⟩
  · -- from a function of the node
    have hgo : receive s none k .good = enqueue s q k (dataQueue k) := by rw [receive_own_onward s k hk hm, forward_routed s none k q hout]
    show Queued s (receive s none k .good) q k ∧ _
    rw [Option.map_none, hgo]
    exact ⟨enqueue_queued s q k, fun r h => portOf_enqueue_other s q r k _ h, rfl⟩
  · -- from a port
    have ha' := fromActive_port ha
    have hd' := notPartner_port hd
    cases src with
    | none => exact receive_queued s none k q ha' hk hd' hm hout
    | some p => exact receive_queued s (some p.val) k q ha' hk hd' hm hout
  · -- damaged
    have hout' : outPort (damaged s (src.map (·.val)) k arr) (src.map (·.val)) (nodeOf k.dest) = some q := by
      rw [(damaged_routes s _ k arr).outPort, hout]
    rw [receive_damaged_onward s _ k arr (fromActive_port ha) hg (notPartner_port hd) hm, forward_ends _ _ k arr q hout' hg]
    refine ⟨?_, damaged_count s _ k arr, ?_⟩
    · rw [portOf_modPort_same, damaged_port, (portOf_credited_keeps s _ k q).1]
    · rintro rfl
      rw [damaged_badCrc s _ k hq]
      exact List.mem_append_right _ (List.mem_singleton_self _)
  · -- for this node
    dsimp only
    rw [if_pos hm, receive_mine s _ k (fromActive_port ha) hk hm]
    cases src <;> rfl
  · -- no way on
    have hgo : receive s none k .good = noRoute s none := by rw [receive_own_onward s k hk hm, forward_dropped s none k .good hout (.inr hreq)]
    rw [Option.map_none, hgo]
    exact noRoute_shows s none hc hq
  · -- a request that has no way on
    have honly : onlyDiscards s none = false := by rw [onlyDiscards, hc, Bool.false_and]
    have hgo : receive s none k .good = enqueue (noRoute s none) q ⟨k.src, k.dest, 5, k.cls, k.seq, [2]⟩ false := by
      rw [receive_own_onward s k hk hm, forward_answered s none k q hout hreq honly hback]
    obtain ⟨hrep, -, hports⟩ := noRoute_shows s none hc hq
    rw [Option.map_none, hgo]
    exact ⟨(enqueue_queued (noRoute s none) q _).of_port (congrArg (fun l => kget PortSt.init l q) hports), hrep⟩
  · -- a failed CRC and no way on
    have hgo : receive s none k .badCrc = noRoute (damaged s none k .badCrc) none := by
      rw [receive_damaged_onward s none k .badCrc (fun _ h => nomatch h) (by decide) (fun _ h => nomatch h) hm,
        forward_dropped _ none k .badCrc (by rw [(damaged_routes s none k .badCrc).outPort, hout]) (.inl (by decide))]
    have hd := damaged_badCrc s none k hq
    obtain ⟨r, hcount⟩ := countUp_frame s (trrR 0x030) 15 0
    have hquiet : notInjecting (damaged s none k .badCrc) = true := by
      rw [hd]
      exact notInjecting_of_reg (reg_countUp_other s _ 15 0 _ (by decide)) hq
    have hu : countAbort (credited s none k) = { s with regs := r } := hcount
    rw [hu] at hd
    obtain ⟨hrep, -, hports⟩ := noRoute_shows (damaged s none k .badCrc) none (by rw [hd]; exact hc) hquiet
    rw [Option.map_none, hgo, hports, hrep, hd]
    exact ⟨(List.append_assoc ..), rfl⟩
  · -- its own rows
    have hm : isMine s none k = true := by rw [isMine, ho]; rfl
    have hgo : receive s none k .good = deliver s none k := receive_mine s none k (fun _ h => nomatch h) hk hm
    rw [deliver_row s k hr hk ho e he ht]
    refine congrArg Host.Outcome.next ?_
    rw [live_of_run s _ hr, Option.map_none, if_pos hm, hgo]

end Sys2Proof.Machine
end

section
/-! SUPPORT. Requests at their endpoint: which addresses they reach, what they store and read, and their completion (R113, R305, Table 4-2). -/

namespace Sys2Proof.Machine

open Sys2Proof

/-! One word. -/

/-- A request of one word has its address as the only one. -/
theorem reqAddrs_word (k : Packet) (w v : Word) (h : k.typ.toNat = 1 ∨ k.typ.toNat = 2 ∧ v = 1) (hp : k.payload = [w, v]) : reqAddrs k = [w.toNat] := by
  have hlen : k.len = 2 := congrArg List.length hp
  rcases h with h | ⟨h, rfl⟩
  · have h1 : k.typ = 1 := BitVec.eq_of_toNat_eq h
    simp [reqAddrs, h1, hlen, hp, List.range_one]
  · have h2 : k.typ = 2 := BitVec.eq_of_toNat_eq h
    simp [reqAddrs, h2, hlen, hp, List.range_one]

theorem reqBad_word (s : State) (k : Packet) (a : Nat) (h : reqAddrs k = [a]) :
    reqBad s k = if epReach s (epOf k.dest) a then none else some a := by
  unfold reqBad
  rw [h]
  cases hr : epReach s (epOf k.dest) a <;> simp [hr]

/-- Endpoint 0 of an upper part reaches the shared SRAM. -/
theorem epReach_sram (s : State) (a : Nat) (hc : isCell s = false) (h1 : 0x20000000 ≤ a) (h2 : a < 0x20400000) : epReach s 0 a = true := by
  have hm : inSram a = true := by simp only [inSram, Bool.and_eq_true, decide_eq_true_eq]; omega
  simp [epReach, hc, hm]

/-- Endpoint 0 reaches nothing below the memories. -/
theorem epReach_below (s : State) (a : Nat) (h : a < 0x10000000) : epReach s 0 a = false := by
  have hp : inPeriph a = false := by simp only [inPeriph, Bool.and_eq_false_iff, decide_eq_false_iff_not]; omega
  have hm : inSram a = false := by simp only [inSram, Bool.and_eq_false_iff, decide_eq_false_iff_not]; omega
  have hcap : inCapRam a = false := by simp only [inCapRam, Bool.and_eq_false_iff, decide_eq_false_iff_not]; omega
  have hmram : inMram a = false := by simp only [inMram, Bool.and_eq_false_iff, decide_eq_false_iff_not]; omega
  have hf : inFlash a = false := by simp only [inFlash, Bool.and_eq_false_iff, decide_eq_false_iff_not]; omega
  simp [epReach, hp, hm, hcap, hmram, hf]

/-- Endpoint 0 of a cell reaches SYS_TBL_BUF. -/
theorem epReach_tblBuf (s : State) (a : Nat) (hc : isCell s = true) (h1 : 0x40008000 ≤ a) (h2 : a < 0x40010000) : epReach s 0 a = true := by
  have hp : inPeriph a = true := by simp only [inPeriph, Bool.and_eq_true, decide_eq_true_eq]; omega
  have hb : blockOf a = 0 := by rw [blockOf]; omega
  simp [epReach, hc, hp, hb]

/-! The completion. -/

/-- A completion for another node leaves on the route to it. -/
theorem reply_sent (s : State) (k : Packet) (q typ : Nat) (pay : List Word) (hown : isOwn s k.src = false) (hout : outPort s none (nodeOf k.src) = some q) :
    reply s k typ pay = enqueue s q ⟨k.src, k.dest, BitVec.ofNat 6 typ, k.cls, k.seq, pay⟩ (BitVec.ofNat 6 typ == 0x20) := by
  have hcls : BitVec.ofNat 2 k.cls.toNat = k.cls := by rw [BitVec.ofNat_toNat, BitVec.setWidth_eq]
  simp only [reply, ownPacket, hown, Bool.false_eq_true, if_false, emit, sendPacket, hout, hcls]
  rfl

/-- The same once the request has had its effect, which leaves the node, its links and its routes. -/
theorem reply_queued (s u : State) (k : Packet) (q typ : Nat) (pay : List Word) (hown : isOwn s k.src = false) (hout : outPort s none (nodeOf k.src) = some q)
    (htrr : u.trr = s.trr) (hroutes : SameRoutes s u) (hports : u.ports = s.ports) :
    let t := reply u k typ pay
    Queued s t q ⟨k.src, k.dest, BitVec.ofNat 6 typ, k.cls, k.seq, pay⟩ ∧ PortsOnly u t := by
  have hsent := reply_sent u k q typ pay (by rw [isOwn_congr htrr, hown]) (by rw [hroutes.outPort, hout])
  dsimp only
  rw [hsent]
  exact ⟨(enqueue_queued u q _).of_port (congrArg (fun l => kget PortSt.init l q) hports), portsOnly_enqueue ..⟩

/-! The words. -/

/-- A word for a register of SYS_TBL_BUF of a cell in BOOT is staged (R305). -/
theorem rowOf_tblBuf (a : Nat) (h1 : 0x40008000 ≤ a) (h2 : a < 0x40010000) (h4 : a % 4 = 0) : (rowOf a).isSome = true := by
  have hb : blockOf a = 0 := by rw [blockOf]; omega
  rw [rowOf, hb, List.find?_isSome]
  have hlast : sysRows.getLast? = some (regN 0x8000 8192 4 0 (whole .wo)) := rfl
  refine ⟨regN 0x8000 8192 4 0 (whole .wo), List.mem_of_getLast? hlast, ?_⟩
  have hbase : 0x8000 ≤ (a - 0x40000000) % 0x10000 := by omega
  have hplace : ((a - 0x40000000) % 0x10000 - 0x8000) / 4 < 8192 := by omega
  have hword : ((a - 0x40000000) % 0x10000 - 0x8000) % 4 % 4 = 0 := by omega
  have hone : ((a - 0x40000000) % 0x10000 - 0x8000) % 4 / 4 < 1 := by omega
  unfold RegRow.hit regN
  dsimp only
  rw [decide_eq_true hbase, decide_eq_true hplace, decide_eq_true hword, decide_eq_true hone]
  rfl

theorem sysWrite_tblBuf (s : State) (o : Origin) (a : Nat) (v : Word) (h : 0x40008000 ≤ a) : sysWrite s o a v = tblBufWrite s o a v := by
  have hoff : 0x8000 ≤ a - sysR 0 := by simp only [sysR]; omega
  unfold sysWrite
  split
  case h_6 => exact if_pos hoff
  all_goals omega

theorem busWrite_tblBuf (s : State) (src : BitVec 20) (a : Nat) (v : Word) (hc : isCell s = true) (hm : modeOf s = .boot) (hr : reachable s a = true)
    (h1 : 0x40008000 ≤ a) (h2 : a < 0x40010000) (h4 : a % 4 = 0) : busWrite s (.fabric src) a v = setReg s a v := by
  have hp : inPeriph a = true := by simp only [inPeriph, Bool.and_eq_true, decide_eq_true_eq]; omega
  have hb : blockOf a = 0 := by rw [blockOf]; omega
  rw [busWrite_reached s _ a v hp h4 hr (rowOf_tblBuf a h1 h2 h4), blockWrite, if_pos hb, sysWrite_tblBuf s _ a v h1]
  simp [tblBufWrite, hc, hm]

/-- A good word of the shared SRAM is read without effect. -/
theorem busRead_sram (s : State) (flash : Bool) (a : Nat) (hecc : kget 0 s.flt.ecc (eccKey 0 a) = 0) (h1 : 0x20000000 ≤ a) (h2 : a < 0x20400000)
    (h4 : a % 4 = 0) : busRead s flash a = (s, wd (bytesGet s.mem a 4)) := by
  have hp : inPeriph a = false := by simp only [inPeriph, Bool.and_eq_false_iff, decide_eq_false_iff_not]; omega
  have hm : inSram a = true := by simp only [inSram, Bool.and_eq_true, decide_eq_true_eq]; omega
  have htarget : memTarget a = 0 := if_pos (by omega)
  have hread : memRead s a 4 = (s, bytesGet s.mem a 4, true) := by
    rw [memRead, if_neg (by omega), htarget, eccRead_good s 0 a hecc]
  rw [busRead, if_neg (not_not.mpr h4), hp, if_neg Bool.false_ne_true, hm, Bool.true_or, Bool.true_or, Bool.true_or, if_pos rfl, memFetch, hread]
  rfl

/-! The request. -/

theorem requestIn_refused (s : State) (k : Packet) (a : Nat) (h : reqBad s k = some a) : requestIn s k = reply (accessFault s a) k 5 [1] := by
  simp only [requestIn, h]

theorem requestIn_write (s : State) (k : Packet) (h : reqBad s k = none) (ht : k.typ = 1) :
    requestIn s k =
      let u := busWrites (.fabric k.src) (k.payload.drop 1) s (k.payload.getD 0 0).toNat
      if u.sys.inReset then u else reply u k 3 [] := by
  simp only [requestIn, h, ht, if_true]

theorem requestIn_read (s : State) (k : Packet) (h : reqBad s k = none) (ht : k.typ = 2) :
    requestIn s k =
      let r := busReads true (k.payload.getD 1 0).toNat s (k.payload.getD 0 0).toNat
      reply r.1 k 4 r.2 := by
  have hne : k.typ ≠ 1 := by rw [ht]; decide
  simp only [requestIn, h, if_neg hne]

end Sys2Proof.Machine
end

section
/-! SUPPORT. The requests of Table 4-2: SRAM, the staged table set, and an address out of reach (R113, R305). -/

namespace Sys2Proof.Machine

open Sys2Proof

/-- A change of memory and fault state leaves the routes. -/
theorem sameRoutes_of_frame {s u : State} (h : { u with mem := s.mem, flt := s.flt } = s) : SameRoutes s u := by
  have e : u = { s with mem := u.mem, flt := u.flt } := congrArg (fun t : State => { t with mem := u.mem, flt := u.flt }) h
  rw [e]
  exact ⟨⟨fun _ => rfl, fun _ => rfl⟩, fun _ _ _ => rfl⟩

/-- A WR_REQ of one word to the shared SRAM. -/
theorem requestIn_sramWrite (s : State) (k : Packet) (q : Nat) (v : Word) (hr : s.sys.inReset = false) (hq : notInjecting s = true) (hep : epOf k.dest = 0)
    (hown : isOwn s k.src = false) (hout : outPort s none (nodeOf k.src) = some q) (a : Nat) (ha : a = (k.payload.getD 0 0).toNat) (hc : isCell s = false)
    (ht : k.typ = 1) (hp : k.payload = [BitVec.ofNat 32 a, v]) (h1 : 0x20000000 ≤ a) (h2 : a < 0x20400000) (h4 : a % 4 = 0) :
    let t := requestIn s k
    bytesGet t.mem a 4 = v.toNat ∧ (∀ x, (x < a ∨ a + 4 ≤ x) → memByte t x = memByte s x) ∧ Queued s t q ⟨k.src, k.dest, 3, k.cls, k.seq, []⟩ ∧
      t.regs = s.regs := by
  have hw : (BitVec.ofNat 32 a).toNat = a := by rw [BitVec.toNat_ofNat, Nat.mod_eq_of_lt (by omega)]
  have hbad : reqBad s k = none := by
    rw [reqBad_word s k a (by rw [reqAddrs_word k _ v (.inl (by rw [ht]; rfl)) hp, hw]), hep, epReach_sram s a hc h1 h2]
    rfl
  obtain ⟨hget, hkeep, hregs, hframe⟩ := busWrite_sram s (.fabric k.src) a v hq h1 h2 h4
  have hwrites : busWrites (.fabric k.src) (k.payload.drop 1) s a = busWrite s (.fabric k.src) a v := by rw [hp]; rfl
  have hreset : (busWrite s (.fabric k.src) a v).sys.inReset = false := (congrArg (fun t : State => t.sys.inReset) hframe).trans hr
  have htrr := congrArg (fun t : State => t.trr) hframe
  have hports := congrArg (fun t : State => t.ports) hframe
  obtain ⟨hqueued, l, hl⟩ := reply_queued s (busWrite s (.fabric k.src) a v) k q 3 [] hown hout htrr (sameRoutes_of_frame hframe) hports
  have hgo : requestIn s k = reply (busWrite s (.fabric k.src) a v) k 3 [] := by
    rw [requestIn_write s k hbad ht, ← ha]
    dsimp only
    rw [hwrites, if_neg (ne_true_of_eq_false hreset)]
  dsimp only
  rw [hgo]
  rw [hl] at hqueued ⊢
  exact ⟨hget, hkeep, hqueued, hregs⟩

/-- An RD_REQ of one good word of the shared SRAM. -/
theorem requestIn_sramRead (s : State) (k : Packet) (q : Nat) (hep : epOf k.dest = 0) (hown : isOwn s k.src = false)
    (hout : outPort s none (nodeOf k.src) = some q) (a : Nat) (ha : a = (k.payload.getD 0 0).toNat) (hc : isCell s = false) (ht : k.typ = 2)
    (hp : k.payload = [BitVec.ofNat 32 a, 1]) (h1 : 0x20000000 ≤ a) (h2 : a < 0x20400000) (h4 : a % 4 = 0)
    (hecc : kget 0 s.flt.ecc (eccKey 0 a) = 0) :
    let t := requestIn s k
    Queued s t q ⟨k.src, k.dest, 4, k.cls, k.seq, [wd (bytesGet s.mem a 4)]⟩ ∧ { t with ports := s.ports } = s := by
  have hw : (BitVec.ofNat 32 a).toNat = a := by rw [BitVec.toNat_ofNat, Nat.mod_eq_of_lt (by omega)]
  have hbad : reqBad s k = none := by
    rw [reqBad_word s k a (by rw [reqAddrs_word k _ 1 (.inr ⟨by rw [ht]; rfl, rfl⟩) hp, hw]), hep, epReach_sram s a hc h1 h2]
    rfl
  have hreads : busReads true (k.payload.getD 1 0).toNat s a = (s, [wd (bytesGet s.mem a 4)]) := by
    have hone : (k.payload.getD 1 0).toNat = 1 := by rw [hp]; rfl
    rw [hone, busReads, busRead_sram s true a hecc h1 h2 h4]
    rfl
  have hgo : requestIn s k = reply s k 4 [wd (bytesGet s.mem a 4)] := by
    rw [requestIn_read s k hbad ht, ← ha]
    dsimp only
    rw [hreads]
  rw [hgo]
  obtain ⟨hqueued, l, hl⟩ := reply_queued s s k q 4 [wd (bytesGet s.mem a 4)] hown hout rfl (SameRoutes.refl s) rfl
  rw [hl] at hqueued ⊢
  exact ⟨hqueued, rfl⟩

/-- A request of one word to an address that endpoint 0 does not reach. -/
theorem requestIn_below (s : State) (k : Packet) (q : Nat) (v : Word) (hq : notInjecting s = true) (hep : epOf k.dest = 0)
    (hown : isOwn s k.src = false) (hout : outPort s none (nodeOf k.src) = some q) (a : Nat) (ht : k.typ.toNat = 1 ∨ k.typ.toNat = 2 ∧ v = 1)
    (hp : k.payload = [BitVec.ofNat 32 a, v]) (h : a < 0x10000000) :
    let t := requestIn s k
    Queued s t q ⟨k.src, k.dest, 5, k.cls, k.seq, [1]⟩ ∧ Reports s t 31 .access a ∧ (t.mem, t.regs) = (s.mem, s.regs) := by
  have hw : (BitVec.ofNat 32 a).toNat = a := by rw [BitVec.toNat_ofNat, Nat.mod_eq_of_lt (by omega)]
  have hbad : reqBad s k = some a := by
    rw [reqBad_word s k a (by rw [reqAddrs_word k _ v ht hp, hw]), hep, epReach_below s a h]
    rfl
  have hfault : accessFault s a = modFlt s fun f => { f with bus := f.bus ++ [(now s, faultMsg 31 .access a false)] } := by
    have hlow : ¬ (0x40000000 ≤ a ∧ a < 0x400F0000) := by omega
    unfold accessFault
    rw [if_neg hlow]
    exact report_quiet s _ _ _ hq
  have hroutes : SameRoutes s (accessFault s a) := by rw [hfault]; exact ⟨⟨fun _ => rfl, fun _ => rfl⟩, fun _ _ _ => rfl⟩
  obtain ⟨hqueued, l, hl⟩ := reply_queued s (accessFault s a) k q 5 [1] hown hout (by rw [hfault]; rfl) hroutes (by rw [hfault]; rfl)
  dsimp only
  rw [requestIn_refused s k a hbad]
  rw [hl, hfault] at hqueued ⊢
  exact ⟨hqueued, rfl, rfl⟩

/-- A WR_REQ of one word to SYS_TBL_BUF of a cell in BOOT (R305). -/
theorem requestIn_tblBuf (s : State) (k : Packet) (q : Nat) (v : Word) (hr : s.sys.inReset = false) (hep : epOf k.dest = 0)
    (hown : isOwn s k.src = false) (hout : outPort s none (nodeOf k.src) = some q) (a : Nat) (ha : a = (k.payload.getD 0 0).toNat) (hc : isCell s = true)
    (hm : modeOf s = .boot) (hreach : reachable s a = true) (ht : k.typ = 1) (hp : k.payload = [BitVec.ofNat 32 a, v]) (h1 : 0x40008000 ≤ a)
    (h2 : a < 0x40010000) (h4 : a % 4 = 0) :
    let t := requestIn s k
    reg t a = v ∧ (∀ x, x ≠ a → reg t x = reg s x) ∧ Queued s t q ⟨k.src, k.dest, 3, k.cls, k.seq, []⟩ ∧ t.mem = s.mem := by
  have hw : (BitVec.ofNat 32 a).toNat = a := by rw [BitVec.toNat_ofNat, Nat.mod_eq_of_lt (by omega)]
  have hbad : reqBad s k = none := by
    rw [reqBad_word s k a (by rw [reqAddrs_word k _ v (.inl (by rw [ht]; rfl)) hp, hw]), hep, epReach_tblBuf s a hc h1 h2]
    rfl
  have hwrites : busWrites (.fabric k.src) (k.payload.drop 1) s a = setReg s a v := by
    rw [hp]
    exact busWrite_tblBuf s k.src a v hc hm hreach h1 h2 h4
  obtain ⟨hqueued, l, hl⟩ := reply_queued s (setReg s a v) k q 3 [] hown hout rfl (sameRoutes_setReg s a v (.inl (by simp only [trlR]; omega))) rfl
  have hgo : requestIn s k = reply (setReg s a v) k 3 [] := by
    rw [requestIn_write s k hbad ht, ← ha]
    dsimp only
    rw [hwrites]
    exact if_neg (ne_true_of_eq_false hr)
  dsimp only
  rw [hgo]
  rw [hl] at hqueued ⊢
  exact ⟨reg_setReg_same s a v, fun x hx => reg_setReg_other s a v x hx, hqueued, rfl⟩

/-- Settles O34: a request within reach has its effect at its words, any other none, and each is answered to its sender. -/
theorem requestsAtTheirEndpoint : Obligations.RequestsAtTheirEndpoint := by
  intro k q v s hr hq hk ho hep hown hout
  have hrow : ∀ (g : State) (n : Nat) (f : State → State), g.sys.inReset = false → isOwn g k.dest = true → k.typ.toNat = n →
      live g (fun s => ownIn s [n] k f) = f g := fun g n f hg hog hn => by
    rw [live_of_run g _ hg, ownIn_takes g [n] k _ hog (by rw [hn]; simp) hk]
  have hwrite : ∀ g : State, g.sys.inReset = false → isOwn g k.dest = true → k.typ.toNat = 1 → exec (.wrReqRx k) g = .next (requestIn g k) :=
    fun g hg hog ht => congrArg Host.Outcome.next (hrow g 1 (requestIn · k) hg hog ht)
  have hread : ∀ g : State, g.sys.inReset = false → isOwn g k.dest = true → k.typ.toNat = 2 → exec (.rdReqRx k) g = .next (requestIn g k) :=
    fun g hg hog ht => congrArg Host.Outcome.next (hrow g 2 (requestIn · k) hg hog ht)
  have hstage : ∀ g : State, g.sys.inReset = false → isOwn g k.dest = true → k.typ.toNat = 1 → 0x40008000 ≤ (k.payload.getD 0 0).toNat →
      (k.payload.getD 0 0).toNat < 0x40010000 → exec (.tblBufWrite k) g = .next (requestIn g k) := fun g hg hog ht h1 h2 =>
    congrArg Host.Outcome.next ((hrow g 1 _ hg hog ht).trans (if_pos ⟨h1, h2⟩))
  refine ⟨fun hc ht hp h1 h2 h4 => ⟨_, hwrite s hr ho (by rw [ht]; rfl), requestIn_sramWrite s k q v hr hq hep hown hout _ rfl hc ht hp h1 h2 h4⟩,
    fun hc ht hp h1 h2 h4 hecc => ⟨_, hread s hr ho (by rw [ht]; rfl), requestIn_sramRead s k q hep hown hout _ rfl hc ht hp h1 h2 h4 hecc⟩,
    fun g hg hog => ⟨fun ht => ⟨⟨_, hwrite g hg hog (by rw [ht]; rfl), rfl⟩, fun h1 h2 => ⟨_, hstage g hg hog (by rw [ht]; rfl) h1 h2, rfl⟩⟩,
      fun ht => ⟨_, hread g hg hog (by rw [ht]; rfl), rfl⟩, requestIn_write g k, requestIn_read g k, requestIn_refused g k⟩,
    fun e he ht hp h => ?_, fun hc hm hreach ht hp h1 h2 h4 =>
      ⟨_, hstage s hr ho (by rw [ht]; rfl) h1 h2, requestIn_tblBuf s k q v hr hep hown hout _ rfl hc hm hreach ht hp h1 h2 h4⟩⟩
  simp only [List.mem_cons, List.not_mem_nil, or_false] at he
  rcases he with rfl | rfl
  · exact ⟨_, hwrite s hr ho ht, requestIn_below s k q v hq hep hown hout _ (.inl ht) hp h⟩
  · exact ⟨_, hread s hr ho ht, requestIn_below s k q 1 hq hep hown hout _ (.inr ⟨ht, rfl⟩) hp h⟩

end Sys2Proof.Machine
end

section
/-! SUPPORT. The discovery walk: what goes out for it, how it goes on from port to port, and how it ends (R114, R128). -/

namespace Sys2Proof.Machine

open Sys2Proof

@[simp] theorem modWalk_walk (s : State) (f : Walk → Walk) : (modWalk s f).trr.walk = f s.trr.walk := rfl
@[simp] theorem modWalk_modWalk (s : State) (f g : Walk → Walk) : modWalk (modWalk s f) g = modWalk s fun w => g (f w) := rfl
@[simp] theorem nodeId_modWalk (s : State) (f : Walk → Walk) : nodeId (modWalk s f) = nodeId s := rfl
@[simp] theorem nodeId_setReg (s : State) (a : Nat) (v : Word) : nodeId (setReg s a v) = nodeId s := by rw [nodeId, nodeId, setReg_trr]
@[simp] theorem portOf_modWalk (s : State) (f : Walk → Walk) (p : Nat) : portOf (modWalk s f) p = portOf s p := rfl
@[simp] theorem reg_modWalk (s : State) (f : Walk → Walk) (a : Nat) : reg (modWalk s f) a = reg s a := rfl

/-! What goes out. -/

/-- From s to t packets have gone out, or have been counted and reported where they had no route: the router's state stands, nothing
that waited or was on the bus is gone, and no register but TRR_DROP_CNT and the injection changes. -/
structure GoesOut (s t : State) : Prop where
  trr : t.trr = s.trr
  bus : s.flt.bus ⊆ t.flt.bus
  waits : Q2Grows s t
  regs : ∀ a, a ≠ trrR 0x030 → a ≠ fltR 0x080 → reg t a = reg s a

theorem goesOut_report (s : State) (src : Nat) (k : Kind) (a : Nat) : GoesOut s (report s src k a) := by
  refine ⟨report_trr s src k a, ?_, ?_, fun x _ h => reg_report_other s src k a x h⟩
  · unfold report whenB
    dsimp only
    split
    · exact List.subset_append_left _ _
    · exact List.subset_append_left _ _
  · unfold report whenB
    dsimp only
    split
    · exact Q2Grows.refl s
    · exact Q2Grows.refl s

theorem goesOut_enqueue (s : State) (p : Nat) (k : Packet) (d : Bool) : GoesOut s (enqueue s p k d) :=
  ⟨rfl, List.Subset.refl _, q2Grows_enqueue s p k d, fun _ _ _ => rfl⟩

theorem goesOut_noRoute (s : State) (src : Option Nat) : GoesOut s (noRoute s src) := by
  unfold noRoute
  split
  · exact ⟨rfl, List.Subset.refl _, Q2Grows.refl s, fun _ _ _ => rfl⟩
  · obtain ⟨r, hr⟩ := countUp_frame s (trrR 0x030) 31 16
    obtain ⟨htrr, hbus, hwaits, hregs⟩ := goesOut_report (countNoRoute s) 96 .noRoute (trrR 0x030)
    have hcount : countNoRoute s = { s with regs := r } := hr
    refine ⟨by rw [htrr, hcount], fun m hm => hbus (by rw [hcount]; exact hm), fun q m hm => hwaits q (by rw [hcount]; exact hm), fun a h1 h2 => ?_⟩
    rw [hregs a h1 h2, countNoRoute, reg_countUp_other s _ 31 16 a h1]

theorem goesOut_emit (s : State) (k : Packet) : GoesOut s (emit s k) := by
  unfold emit sendPacket
  split
  · exact goesOut_enqueue ..
  · exact goesOut_noRoute ..

theorem goesOut_probeSend (s : State) (x : BitVec 14 × Nat) : GoesOut s (probeSend s x) := by
  unfold probeSend
  dsimp only
  split
  · exact goesOut_enqueue ..
  · exact goesOut_emit ..

/-! A packet on an own port. -/

/-- PROBE of the part. -/
def probePacket (s : State) : Packet := ⟨0, BitVec.ofNat 20 ((nodeId s).toNat * 64), 0x08, 2, 0, []⟩

theorem probeSend_own (s : State) (p : Port) : probeSend s (nodeId s, p.val) = enqueue s p (probePacket s) false := by
  have hmod : p.val % 8 = p.val := Nat.mod_eq_of_lt (by omega)
  unfold probeSend
  dsimp only
  rw [if_pos rfl, hmod]
  rfl

/-- ASSIGN with the ID, the role expected on the link, and QUAR. -/
def assignPacket (s : State) (id role : Nat) (quar : Bool) : Packet :=
  ⟨0, BitVec.ofNat 20 ((nodeId s).toNat * 64), 0x0A, 2, 0, [wd (id + role * 2 ^ 16 + b2n quar * 2 ^ 18)]⟩

theorem assignSend_own (s : State) (p : Nat) (id : BitVec 14) (role : Nat) (quar : Bool) :
    assignSend s (nodeId s) p id role quar = enqueue s p (assignPacket s id.toNat role quar) false := if_pos rfl

/-! From port to port. -/

/-- What the walk has found stands: whether it runs and for whom, what it has counted, and its nodes but for the ends of their subtrees. -/
structure SameFinds (w v : Walk) : Prop where
  running : v.running = w.running
  arm : v.arm = w.arm
  next : v.next = w.next
  count : v.count = w.count
  silent : v.silent = w.silent
  known : ∀ r ∈ w.known, ∃ x ∈ v.known, (x.uid, x.node, x.role, x.parent, x.port) = (r.uid, r.node, r.role, r.parent, r.port)

theorem SameFinds.refl (w : Walk) : SameFinds w w := ⟨rfl, rfl, rfl, rfl, rfl, fun r hr => ⟨r, hr, rfl⟩⟩

theorem SameFinds.trans {w v u : Walk} (a : SameFinds w v) (b : SameFinds v u) : SameFinds w u := by
  refine ⟨b.running.trans a.running, b.arm.trans a.arm, b.next.trans a.next, b.count.trans a.count, b.silent.trans a.silent, fun r hr => ?_⟩
  obtain ⟨x, hx, hxr⟩ := a.known r hr
  obtain ⟨y, hy, hyx⟩ := b.known x hx
  exact ⟨y, hy, hyx.trans hxr⟩

/-- The end of a node's subtree is set, its place in hand. -/
theorem sameFinds_last (w : Walk) (n : BitVec 14) (r : List (BitVec 14 × Nat)) :
    SameFinds w { w with todo := r, known := w.known.map fun k => if k.node = n then { k with last := BitVec.ofNat 14 (w.next - 1) } else k } := by
  refine ⟨rfl, rfl, rfl, rfl, rfl, fun k hk => ⟨_, List.mem_map_of_mem hk, ?_⟩⟩
  split <;> rfl

/-- What was found before something that leaves the finds stands still. -/
theorem sameFinds_of (w v : Walk) (h : (v.running, v.arm, v.next, v.count, v.silent, v.known) = (w.running, w.arm, w.next, w.count, w.silent, w.known)) :
    SameFinds w v := by
  simp only [Prod.mk.injEq] at h
  obtain ⟨h1, h2, h3, h4, h5, h6⟩ := h
  exact ⟨h1, h2, h3, h4, h5, fun r hr => ⟨r, by rw [h6]; exact hr, rfl⟩⟩

/-- From s the walk has come to t: it stands, it has ended, or it asks at a port. -/
def WalkEnds (s t : State) : Prop :=
  ∃ v, SameFinds s.trr.walk v ∧
    (t = modWalk s (fun _ => v) ∨ t = walkEnd (modWalk s fun _ => v) ∨ ∃ x, t = probeSend (modWalk s fun _ => v) x)

theorem WalkEnds.of_finds {s u t : State} (h : WalkEnds u t) (hf : SameFinds s.trr.walk u.trr.walk) (hu : u = modWalk s fun _ => u.trr.walk) :
    WalkEnds s t := by
  obtain ⟨v, hv, hgo⟩ := h
  rw [hu, modWalk_modWalk] at hgo
  exact ⟨v, hf.trans hv, hgo⟩

theorem walkNext_ends (n : Nat) (s : State) : WalkEnds s (walkNext n s) := by
  induction n generalizing s with
  | zero => exact ⟨_, SameFinds.refl _, .inl rfl⟩
  | succ n ih =>
    unfold walkNext
    dsimp only
    split
    next nd pc r _ =>
      split
      · exact (ih _).of_finds (sameFinds_last s.trr.walk nd r) rfl
      · exact ⟨{ s.trr.walk with todo := r, cur := some (nd, pc), tries := 1, askedAt := now s }, sameFinds_of _ _ rfl, .inr (.inr ⟨(nd, pc), rfl⟩)⟩
    next =>
      split
      · exact ⟨_, SameFinds.refl _, .inr (.inl rfl)⟩
      · exact (ih _).of_finds (sameFinds_of _ _ rfl) rfl

theorem walkOn_ends (s : State) : WalkEnds s (walkOn s) := walkNext_ends _ s

/-- A port at the head of the list is asked next. -/
theorem walkOn_port (s : State) (nd : BitVec 14) (pc : Nat) (r : List (BitVec 14 × Nat)) (h : s.trr.walk.todo = (nd, pc) :: r) (hpc : pc ≠ 6) :
    walkOn s = probeSend (modWalk s fun w => { w with todo := r, cur := some (nd, pc), tries := 1, askedAt := now s }) (nd, pc) := by
  unfold walkOn walkNext
  simp only [h, if_neg hpc]

/-! What the walk leaves as it goes on. -/

/-- START clears at the end of the STATION walk, where software has not set it in the same cycle. -/
theorem walkEnd_start (s : State) (h : ∀ e ∈ s.swSet, e.1 ≠ trrR 0x004) (harm : s.trr.walk.arm = false) (hd : s.trr.walk.deleg = []) :
    rb (walkEnd s) (trrR 0x004) 31 = false ∧
      (walkEnd s).trr.walk = { s.trr.walk with running := false, done := true, cur := none } := by
  have hmask : (~~~ wd 0x80000000 : Word).getLsbD 31 = false := by decide
  have hend : walkEnd s = unflag (modWalk s fun w => { w with running := false, done := true, cur := none }) (trrR 0x004) 0x80000000 := by
    unfold walkEnd
    dsimp only
    rw [harm, hd, if_neg Bool.false_ne_true]
    rfl
  have hsw : ∀ e ∈ (modWalk s fun w => { w with running := false, done := true, cur := none }).swSet, e.1 ≠ trrR 0x004 := h
  rw [hend, rb, reg_unflag_alone _ _ _ _ hsw, if_pos rfl, bitOf_eq, BitVec.getLsbD_and, hmask, Bool.and_false]
  exact ⟨rfl, rfl⟩

/-- At its end the walk keeps its finds, but that it may run no longer, and leaves what waits, the bus, and every register but three. -/
structure WalkKeeps (s t : State) : Prop where
  arm : t.trr.walk.arm = s.trr.walk.arm
  next : t.trr.walk.next = s.trr.walk.next
  count : t.trr.walk.count = s.trr.walk.count
  silent : t.trr.walk.silent = s.trr.walk.silent
  known : ∀ r ∈ s.trr.walk.known, ∃ x ∈ t.trr.walk.known, (x.uid, x.node, x.role, x.parent, x.port) = (r.uid, r.node, r.role, r.parent, r.port)
  bus : s.flt.bus ⊆ t.flt.bus
  waits : Q2Grows s t
  regs : ∀ a, a ≠ trrR 0x004 → a ≠ trrR 0x030 → a ≠ fltR 0x080 → reg t a = reg s a
  stops : (∀ e ∈ s.swSet, e.1 ≠ trrR 0x004) → t.trr.walk.running = s.trr.walk.running ∨ s.trr.walk.arm = true ∨ rb t (trrR 0x004) 31 = false

/-- What goes out for a walk whose finds stand. -/
theorem walkKeeps_out {s t : State} (v : Walk) (hv : SameFinds s.trr.walk v) (h : GoesOut (modWalk s fun _ => v) t) : WalkKeeps s t := by
  have hw : t.trr.walk = v := congrArg Trr.walk h.trr
  exact ⟨by rw [hw, hv.arm], by rw [hw, hv.next], by rw [hw, hv.count], by rw [hw, hv.silent], by rw [hw]; exact hv.known, h.bus, h.waits,
    fun a _ h1 h2 => h.regs a h1 h2, fun _ => .inl (by rw [hw, hv.running])⟩

theorem goesOut_refl (s : State) : GoesOut s s := ⟨rfl, List.Subset.refl _, Q2Grows.refl s, fun _ _ _ => rfl⟩

theorem walkKeeps_end (s : State) : WalkKeeps s (walkEnd s) := by
  have hknown : ∀ r ∈ s.trr.walk.known, ∃ x ∈ s.trr.walk.known, (x.uid, x.node, x.role, x.parent, x.port) = (r.uid, r.node, r.role, r.parent, r.port) :=
    fun r hr => ⟨r, hr, rfl⟩
  cases harm : s.trr.walk.arm with
  | true =>
    have hout := goesOut_emit (modWalk s fun w => { w with running := false, done := true, cur := none })
      (ownPacket s s.trr.walk.client 0 0x0C 3 0 [wd s.trr.walk.count])
    have hend : walkEnd s = emit (modWalk s fun w => { w with running := false, done := true, cur := none })
        (ownPacket s s.trr.walk.client 0 0x0C 3 0 [wd s.trr.walk.count]) := if_pos harm
    rw [hend]
    have hw := congrArg Trr.walk hout.trr
    exact ⟨by rw [hw]; rfl, by rw [hw]; rfl, by rw [hw]; rfl, by rw [hw]; rfl, by rw [hw]; exact hknown, hout.bus, hout.waits,
      fun a _ h1 h2 => hout.regs a h1 h2, fun _ => .inr (.inl harm)⟩
  | false =>
    cases hd : s.trr.walk.deleg.isEmpty with
    | true =>
      have hend : walkEnd s = unflag (modWalk s fun w => { w with running := false, done := true, cur := none }) (trrR 0x004) 0x80000000 := by
        unfold walkEnd
        dsimp only
        rw [harm, hd, if_neg Bool.false_ne_true, if_pos rfl]
      have hstart := fun h => (walkEnd_start s h harm (List.isEmpty_iff.mp hd)).1
      rw [hend] at hstart ⊢
      exact ⟨rfl, rfl, rfl, rfl, hknown, List.Subset.refl _, Q2Grows.refl s, fun a h0 _ _ => reg_setReg_other _ _ _ a h0, fun h => .inr (.inr (hstart h))⟩
    | false =>
      have hend : walkEnd s = modWalk s fun w => { w with cur := none } := by
        unfold walkEnd
        dsimp only
        rw [harm, hd, if_neg Bool.false_ne_true, if_neg Bool.false_ne_true]
      rw [hend]
      exact ⟨rfl, rfl, rfl, rfl, hknown, List.Subset.refl _, Q2Grows.refl s, fun _ _ _ _ => rfl, fun _ => .inl rfl⟩

theorem walkOn_keeps (s : State) : WalkKeeps s (walkOn s) := by
  obtain ⟨v, hv, hgo | hgo | ⟨x, hgo⟩⟩ := walkOn_ends s
  · rw [hgo]
    exact walkKeeps_out v hv (goesOut_refl _)
  · rw [hgo]
    obtain ⟨harm, hnext, hcount, hsilent, hknown, hbus, hwaits, hregs, hstops⟩ := walkKeeps_end (modWalk s fun _ => v)
    refine ⟨harm.trans hv.arm, hnext.trans hv.next, hcount.trans hv.count, hsilent.trans hv.silent, fun r hr => ?_, hbus, hwaits, hregs, fun h => ?_⟩
    · obtain ⟨y, hy, hyr⟩ := hv.known r hr
      obtain ⟨z, hz, hzy⟩ := hknown y hy
      exact ⟨z, hz, hzy.trans hyr⟩
    · have h3 := hstops h
      rw [modWalk_walk, hv.running, hv.arm] at h3
      exact h3
  · rw [hgo]
    exact walkKeeps_out v hv (goesOut_probeSend _ x)

/-- Where START has not been set in the same cycle no walk begins at the end of one (R13). -/
theorem walkAgain_once (f : State → State) (s : State) (h : (f s).trr.walk.running = s.trr.walk.running ∨ (f s).trr.walk.arm = true ∨ rb (f s) (trrR 0x004) 31 = false) :
    walkAgain f s = f s := by
  unfold walkAgain
  refine if_neg ?_
  rcases h with h | h | h
  · rw [h]; cases s.trr.walk.running <;> simp
  · rw [h]; simp
  · rw [h]; simp

end Sys2Proof.Machine
end

section
/-! SUPPORT. The rows of the discovery walk: START, PROBE, PROBE_VIA, silence, ASSIGN, DELEGATE and its return (R128, R129, Table 4-5). -/

namespace Sys2Proof.Machine

open Sys2Proof

/-! The ports to probe. -/

/-- The mask of six ports has a bit for each port of the set. -/
theorem testBit_portMask (a : Nat → Bool) (p : Nat) (hp : p < 6) : ((List.range 6).foldl (fun n p => if a p then n + 2 ^ p else n) 0).testBit p = a p := by
  have h : ∀ b : Fin 6 → Bool, ∀ q : Fin 6, ((List.finRange 6).foldl (fun n p => if b p then n + 2 ^ p.val else n) 0).testBit q.val = b q := by decide
  exact h (fun q => a q.val) ⟨p, hp⟩

/-- The part's own ports to probe: the ACTIVE ones of the directions asked for. -/
theorem ownPorts_eq (s : State) (keep : Nat → Bool) :
    ownPorts s keep = ((List.range 6).filter fun p => isActive s p && keep (dirOf s p)).map fun p => (nodeId s, portCode (dirOf s p) p) := by
  have hdir : ∀ p ∈ List.range 6, (((List.range 6).map (dirOf s)).getD p 0) = dirOf s p := fun p hp => by
    rw [List.getD_eq_getElem?_getD, List.getElem?_map, List.getElem?_range (List.mem_range.mp hp)]
    rfl
  have hfilter : ((List.range 6).filter fun p =>
      ((List.range 6).foldl (fun n p => if isActive s p then n + 2 ^ p else n) 0).testBit p && keep (((List.range 6).map (dirOf s)).getD p 0)) =
      (List.range 6).filter fun p => isActive s p && keep (dirOf s p) := by
    refine List.filter_congr fun p hp => ?_
    rw [testBit_portMask (isActive s) p (List.mem_range.mp hp), hdir p hp]
  unfold ownPorts walkPorts
  rw [hfilter]
  refine List.map_congr_left fun p hp => ?_
  rw [hdir p (List.mem_of_mem_filter hp)]

/-- One ACTIVE port, a DOWN port, is the one to probe. -/
theorem ownPorts_down (s : State) (keep : Nat → Bool) (p : Port) (h : ((List.range 6).filter fun q => isActive s q && keep (dirOf s q)) = [p.val])
    (hd : dirOf s p = 3) : ownPorts s keep = [(nodeId s, p.val)] := by
  have hcode : portCode 3 p.val = p.val := rfl
  rw [ownPorts_eq, h, List.map_singleton, hd, hcode]

/-- The ACTIVE DOWN ports are all that a part without an ACTIVE PARTNER port walks below it. -/
theorem activeDowns_filter (s : State) (h : (portsOf s 4).filter (isActive s) = []) :
    ((List.range 6).filter fun q => isActive s q && (dirOf s q == 3 || dirOf s q == 4)) = activeDowns s := by
  have hpartner : ∀ q ∈ List.range 6, (dirOf s q == 4) = true → isActive s q = false := fun q hq hd =>
    Bool.eq_false_iff.mpr (List.filter_eq_nil_iff.mp h q (List.mem_filter.mpr ⟨hq, hd⟩))
  unfold activeDowns downPorts portsOf
  rw [List.filter_filter]
  refine List.filter_congr fun q hq => ?_
  cases hd : dirOf s q == 4 with
  | true => rw [hpartner q hq hd, Bool.false_and, Bool.false_and]
  | false => rw [Bool.or_false]

/-! START. -/

def discRow : RegRow := reg1 0x004 0xAAA [(31, 31, .w1s), (11, 0, .rw)]

theorem rowOf_disc : rowOf (trrR 0x004) = some discRow := by decide

/-- The word of START stands in its register and is marked for the cycle. -/
theorem discCtrl_write (s : State) (o : Origin) (val : Word) :
    ∃ v l, genWrite s o (trrR 0x004) val = { setReg s (trrR 0x004) v with swSet := l } := by
  rw [genWrite_soft s o _ val discRow rowOf_disc (by decide)]
  unfold whenB
  split
  · exact ⟨_, _, rfl⟩
  · exact ⟨_, s.swSet, rfl⟩

theorem bitOf_start (val : Word) : bitOf (setBit val 31 true) 31 = true := by rw [bitOf_setBit _ _ _ _ (by decide), if_pos rfl]

/-- The walk of the STATION part as it begins at one DOWN port. -/
theorem discBegin_single (s : State) (p : Port) (h : (List.range 6).filter (isActive s) = [p.val]) (hd : dirOf s p = 3) :
    let t := discBegin s
    t.trr.nodeId = some 0 ∧ t.trr.walk.running = true ∧ t.trr.walk.cur = some (0, p.val) ∧ t.trr.walk.tries = 1 ∧ t.trr.walk.count = 1 ∧
      Queued s t p ⟨0, 0, 0x08, 2, 0, []⟩ ∧ t.flt = s.flt := by
  have hports : ownPorts (modTrr s fun t => { t with nodeId := some 0 }) (fun _ => true) = [(0, p.val)] :=
    ownPorts_down _ _ p ((List.filter_congr fun q _ => Bool.and_true _).trans h) hd
  have hp6 : p.val ≠ 6 := by omega
  unfold discBegin
  dsimp only
  rw [hports, walkOn_port _ 0 p.val [(0, 6)] rfl hp6]
  have hsend : ∀ u : State, nodeId u = 0 → probeSend u (0, p.val) = enqueue u p ⟨0, 0, 0x08, 2, 0, []⟩ false := fun u hu => by
    have ho := probeSend_own u p
    rw [probePacket, hu] at ho
    exact ho
  rw [hsend _ rfl]
  exact ⟨rfl, rfl, rfl, rfl, rfl, (enqueue_queued _ p _).of_port rfl, rfl⟩

/-- Away from the STATION part in BOOT a START is refused and clears. -/
theorem discStart_refused (s : State) (o : Origin) (val : Word) (hq : notInjecting s = true) (h : roleOf s ≠ .station ∨ modeOf s ≠ .boot) :
    let t := discStart s o (setBit val 31 true)
    Reports s t 127 .access (trrR 0x004) ∧ rb t (trrR 0x004) 31 = false ∧ t.trr = s.trr := by
  obtain ⟨v, l, hw⟩ := discCtrl_write s o (setBit val 31 true)
  have hrefused : (roleOf s != .station || modeOf s != .boot) = true := by
    rcases h with h | h
    · rw [bne_iff_ne.mpr h, Bool.true_or]
    · rw [bne_iff_ne.mpr h, Bool.or_true]
  have hgo : discStart s o (setBit val 31 true) =
      let u : State := { setReg s (trrR 0x004) v with swSet := l }
      accessFault (setReg u (trrR 0x004) (setBit (reg u (trrR 0x004)) 31 false)) (trrR 0x004) := by
    unfold discStart
    dsimp only
    rw [hw, bitOf_start, Bool.not_true, if_neg Bool.false_ne_true]
    exact if_pos hrefused
  rw [hgo]
  generalize hu : ({ setReg s (trrR 0x004) v with swSet := l } : State) = u
  have hquiet : notInjecting (setReg u (trrR 0x004) (setBit (reg u (trrR 0x004)) 31 false)) = true := by
    refine notInjecting_of_reg ((reg_setReg_other u _ _ _ (by decide)).trans ?_) hq
    rw [← hu]
    exact reg_setReg_other s _ _ _ (by decide)
  obtain ⟨hrep, hreg, hframe⟩ := accessFault_periph _ (trrR 0x004) hquiet (by decide) (by decide)
  refine ⟨?_, ?_, ?_⟩
  · rw [← hu] at hrep ⊢
    exact hrep
  · rw [rb, hreg, reg_setReg_same, bitOf_setBit _ _ _ _ (by decide), if_pos rfl]
  · have htrr := congrArg (fun t : State => t.trr) hframe
    exact htrr.trans (by rw [← hu]; rfl)

/-- At the STATION part in BOOT it begins the walk. -/
theorem discStart_begins (s : State) (o : Origin) (val : Word) (p : Port) (hrole : roleOf s = .station) (hmode : modeOf s = .boot)
    (hrun : s.trr.walk.running = false) (h : (List.range 6).filter (isActive s) = [p.val]) (hd : dirOf s p = 3) :
    let t := discStart s o (setBit val 31 true)
    t.trr.nodeId = some 0 ∧ t.trr.walk.running = true ∧ t.trr.walk.cur = some (0, p.val) ∧ t.trr.walk.tries = 1 ∧ t.trr.walk.count = 1 ∧
      Queued s t p ⟨0, 0, 0x08, 2, 0, []⟩ ∧ t.flt = s.flt := by
  obtain ⟨v, l, hw⟩ := discCtrl_write s o (setBit val 31 true)
  have hlinks : SameLinks s (setReg s (trrR 0x004) v) :=
    sameLinks_setReg_apart s v (by decide) fun p => by simp only [trrR, trlR]; omega
  generalize hu : ({ setReg s (trrR 0x004) v with swSet := l } : State) = u at hw
  have hactive : ∀ q, isActive u q = isActive s q := fun q => by rw [← hu]; exact hlinks.isActive q
  have hdir : dirOf u p = 3 := by rw [← hu]; exact (hlinks.dir p).trans hd
  have hwalk := discBegin_single u p (by rw [funext hactive]; exact h) hdir
  have hallowed : (roleOf u != .station || modeOf u != .boot) = false := by
    rw [← hu]
    show (roleOf s != .station || modeOf s != .boot) = false
    rw [hrole, hmode]
    rfl
  have hgo : discStart s o (setBit val 31 true) = discBegin u := by
    unfold discStart
    dsimp only
    rw [hw, bitOf_start, Bool.not_true, if_neg Bool.false_ne_true, hallowed, if_neg Bool.false_ne_true, hrun, if_neg Bool.false_ne_true,
      if_pos hwalk.2.1]
  rw [hgo]
  obtain ⟨hnode, hrun', hcur, htries, hcount, hqueued, hflt⟩ := hwalk
  exact ⟨hnode, hrun', hcur, htries, hcount, hqueued.of_port (by rw [← hu]; rfl), hflt.trans (by rw [← hu]; rfl)⟩

/-! PROBE and PROBE_VIA. -/

/-- An IDENT tells of the part and of its links (Table 4-5). -/
theorem identPayload_congr {s t : State} (hl : SameLinks s t) (hp : PortsOnly s t) : identPayload t = identPayload s := by
  obtain ⟨l, rfl⟩ := hp
  have hactive := funext hl.isActive
  have hdir := funext hl.dir
  unfold identPayload
  simp only [hactive, hdir, hl.stage]
  rfl

/-- A PROBE is answered with IDENT on its port, once its buffer has gone back. -/
theorem probeRx_answers (s : State) (p : Port) (ha : isActive s p = true) :
    let t := probeAnswer (creditC2 s p) p
    Queued (creditC2 s p) t p ⟨0, BitVec.ofNat 20 ((nodeId s).toNat * 64), 0x09, 2, 0, identPayload s⟩ ∧ (∀ q, q ≠ p.val → portOf t q = portOf s q) ∧
      { t with ports := s.ports } = s := by
  have hlinks : SameLinks s (creditC2 s p) := sameLinks_creditSend s p 1 0 0
  have honly : PortsOnly s (creditC2 s p) := creditSend_portsOnly s p 1 0 0
  have hother : ∀ q, q ≠ p.val → portOf (creditC2 s p) q = portOf s q := fun q h => by
    unfold creditC2 creditSend
    rw [if_pos ha]
    exact portOf_enqueue_other s p q _ _ h
  have hgo : probeAnswer (creditC2 s p) p =
      enqueue (creditC2 s p) p ⟨0, BitVec.ofNat 20 ((nodeId s).toNat * 64), 0x09, 2, 0, identPayload s⟩ false := by
    unfold probeAnswer
    rw [if_pos ((hlinks.isActive p).trans ha), identPayload_congr hlinks honly]
    obtain ⟨l, hl⟩ := honly
    rw [hl]
    rfl
  dsimp only
  rw [hgo]
  refine ⟨enqueue_queued _ p _, fun q h => (portOf_enqueue_other _ p q _ _ h).trans (hother q h), ?_⟩
  obtain ⟨l, hl⟩ := honly
  rw [hl]
  rfl

end Sys2Proof.Machine
end

section
/-! SUPPORT. The walk under way: a probe that goes unanswered, an ID that is taken, and a block that is delegated and returned (R128, R129). -/

namespace Sys2Proof.Machine

open Sys2Proof

/-! PROBE_VIA. -/

/-- PROBE_VIA with one word probes the port it names for its sender. -/
theorem probeVia_probes (s : State) (p : Port) (k : Packet) (hlen : k.len = 1) (hp : fld (k.payload.getD 0 0) 2 0 = p.val) (ha : isActive s p = true) :
    let t := probeVia s k
    t.trr.via = s.trr.via ++ [(p.val, k.src, k.seq)] ∧ Queued s t p (probePacket s) ∧ { t with ports := s.ports, trr := s.trr } = s := by
  have hgo : probeVia s k = enqueue (modTrr s fun t => { t with via := t.via ++ [(p.val, k.src, k.seq)] }) p (probePacket s) false := by
    unfold probeVia
    dsimp only
    rw [hp, if_pos hlen, if_pos ha]
    rfl
  rw [hgo]
  exact ⟨rfl, (enqueue_queued _ p _).of_port rfl, rfl⟩

/-! A probe without an IDENT. -/

/-- It is repeated (R128). -/
theorem probeTimeout_repeats (s : State) (p : Port) (hrun : s.trr.walk.running = true) (hcur : s.trr.walk.cur = some (nodeId s, p.val))
    (hat : s.trr.walk.askedAt + us 10 ≤ now s) (htries : s.trr.walk.tries < 3) :
    probeTimeout s = enqueue (modWalk s fun w => { w with tries := w.tries + 1, askedAt := now s }) p (probePacket s) false := by
  have hcond : (s.trr.walk.running && decide (s.trr.walk.askedAt + us 10 ≤ now s)) = true := by rw [hrun, decide_eq_true hat]; rfl
  unfold probeTimeout
  simp only [hcur, hcond, htries, if_true]
  exact probeSend_own (modWalk s fun w => { w with tries := w.tries + 1, askedAt := now s }) p

/-- After three attempts the port is recorded as SILENT. -/
theorem probeTimeout_silent (s : State) (p : Port) (hrun : s.trr.walk.running = true) (hcur : s.trr.walk.cur = some (nodeId s, p.val))
    (hat : s.trr.walk.askedAt + us 10 ≤ now s) (htries : s.trr.walk.tries = 3) :
    probeTimeout s = walkOn (discReport (modWalk s fun w => { w with cur := none, silent := w.silent ++ [(nodeId s, p.val)] }) .discSilent) := by
  have hcond : (s.trr.walk.running && decide (s.trr.walk.askedAt + us 10 ≤ now s)) = true := by rw [hrun, decide_eq_true hat]; rfl
  have hmod : p.val % 8 = p.val := Nat.mod_eq_of_lt (by omega)
  unfold probeTimeout
  simp only [hcur, hcond, htries, if_true, hmod]
  rfl

/-- A discovery fault puts its message on the bus and changes nothing else. -/
theorem discReport_quiet (s : State) (k : Kind) (hq : notInjecting s = true) :
    discReport s k = modFlt s fun f => { f with bus := f.bus ++ [(now s, faultMsg 97 k (trrR 0x008) false)] } := report_quiet s 97 k _ hq

/-! ASSIGN. -/

/-- The ID of a word is its low 14 bits. -/
theorem idOf_word (w : Word) : BitVec.ofNat 14 (fld w 13 0) = w.setWidth 14 := by
  apply BitVec.eq_of_toNat_eq
  simp only [fld, BitVec.toNat_ofNat, BitVec.toNat_setWidth, Nat.pow_zero, Nat.div_one]
  exact Nat.mod_mod _ _

/-- The node takes its ID, and with QUAR holds QUARANTINE with cause ROLE (R114, R129). -/
theorem assignIn_takes (s : State) (p : Nat) (k : Packet) (ha : isActive s p = true) :
    let u := modTrr s fun t => { t with nodeId := some ((k.payload.getD 0 0).setWidth 14) }
    assignIn s p k = if bitOf (k.payload.getD 0 0) 18 then quarantine u 2 else u := by
  unfold assignIn
  dsimp only
  rw [idOf_word, ha, Bool.not_true, if_neg Bool.false_ne_true]

theorem quarantine_role (s : State) : quarHeld (quarantine s 2) = true ∧ rb (quarantine s 2) (sysR 0x030) 2 = true := by
  have h : ∀ i, i = 0 ∨ i = 2 → rb (quarantine s 2) (sysR 0x030) i = true := fun i hi => by
    have hbit : (wd (2 ^ 2 + 1) : Word).getLsbD i = true := by rcases hi with rfl | rfl <;> decide
    rw [quarantine, rb, reg_setReg_same, bitOf_eq, BitVec.getLsbD_or, hbit, Bool.or_true]
  exact ⟨h 0 (.inl rfl), h 2 (.inr rfl)⟩

/-! A block that is delegated. -/

/-- An ARM part takes a block and begins at its one DOWN port (R128). -/
theorem delegateIn_begins (s : State) (p : Port) (k : Packet) (hrole : roleOf s = .arm) (hlen : k.len = 2) (hdown : activeDowns s = [p.val])
    (hpartner : (portsOf s 4).filter (isActive s) = []) :
    let t := delegateIn s k
    (t.trr.walk.running, t.trr.walk.arm, t.trr.walk.size, t.trr.walk.client, t.trr.walk.cur) =
      (true, true, (k.payload.getD 1 0).toNat, k.src, some (nodeId s, p.val)) ∧
      t.trr.walk.base = (k.payload.getD 0 0).setWidth 14 ∧ Queued s t p (probePacket s) := by
  have hmem : p.val ∈ activeDowns s := by rw [hdown]; exact List.mem_singleton_self _
  have hdir : dirOf s p = 3 := beq_iff_eq.mp (List.mem_filter.mp (List.mem_filter.mp hmem).1).2
  have hports : ownPorts s (fun d => d == 3 || d == 4) = [(nodeId s, p.val)] :=
    ownPorts_down s _ p ((activeDowns_filter s hpartner).trans hdown) hdir
  have hcond : (roleOf s != .arm || k.len != 2) = false := by rw [hrole, hlen]; rfl
  have hp6 : p.val ≠ 6 := by omega
  unfold delegateIn
  dsimp only
  rw [hcond, if_neg Bool.false_ne_true, hports, walkOn_port _ (nodeId s) p.val [] rfl hp6, idOf_word]
  have hsend : ∀ f : Walk → Walk, probeSend (modWalk s f) (nodeId s, p.val) = enqueue (modWalk s f) p (probePacket s) false := fun f =>
    probeSend_own (modWalk s f) p
  rw [modWalk_modWalk, hsend]
  exact ⟨rfl, rfl, (enqueue_queued _ p _).of_port rfl⟩

/-- The last return ends the STATION walk. -/
theorem delegateReturn_ends (s : State) (src : BitVec 20) (n : Nat) (hdeleg : s.trr.walk.deleg = [src]) (hrun : s.trr.walk.running = true)
    (hcur : s.trr.walk.cur = none) (htodo : s.trr.walk.todo = []) :
    delegateReturn s src n = walkEnd (modWalk s fun w => { w with deleg := [], count := w.count + n }) := by
  have hmem : s.trr.walk.deleg.contains src = true := by rw [hdeleg]; simp
  have hnone : s.trr.walk.deleg.erase src = [] := by rw [hdeleg, List.erase_cons_head]
  have hcond : ∀ c d, ({ s.trr.walk with deleg := d, count := c }.running && { s.trr.walk with deleg := d, count := c }.cur.isNone &&
      { s.trr.walk with deleg := d, count := c }.todo.isEmpty) = true := fun c d => by
    dsimp only
    rw [hrun, hcur, htodo]
    rfl
  have hw : (modWalk s fun w => { w with deleg := w.deleg.erase src, count := w.count + n }) =
      modWalk s fun w => { w with deleg := [], count := w.count + n } := by
    unfold modWalk modTrr
    dsimp only
    rw [hnone]
  unfold delegateReturn
  rw [if_pos hmem]
  dsimp only
  rw [hw]
  exact if_pos (hcond _ _)

/-- Settles O37: a walk is begun, asks at its next port, gives one up, and ends; a node answers, takes its ID and takes its block. -/
theorem discoveryWalkIsDriven : Obligations.DiscoveryWalkIsDriven := by
  intro o val p k src n s hr hq
  dsimp only
  refine ⟨fun hrole hmode hrun hact hd => answers_live rfl hr (discStart_begins s o val p hrole hmode hrun hact hd),
    fun h => answers_live rfl hr (discStart_refused s o val hq h), fun ha => answers_live rfl hr (probeRx_answers s p ha),
    fun ho hep hk ht hlen hp ha => answers_live rfl hr ?_, fun hrun hcur hat htries => answers_live rfl hr ?_,
    fun hrun hcur hat htries hset => answers_live rfl hr ?_, fun ha ht hk => answers_live rfl hr ?_,
    fun hrole ho hep hk ht hlen hdown hpartner => answers_live rfl hr ?_, fun hdeleg hrun hcur htodo harm hset => answers_live rfl hr ?_⟩
  · -- PROBE_VIA
    rw [ownIn_takes s [0x0B] k _ ho (by rw [ht]; rfl) hk, if_pos hep]
    exact probeVia_probes s p k hlen hp ha
  · -- repeated
    have hgo := probeTimeout_repeats s p hrun hcur hat htries
    rw [walkAgain_once probeTimeout s (.inl (by rw [hgo]; rfl)), hgo]
    exact ⟨rfl, (enqueue_queued _ p _).of_port rfl, rfl⟩
  · -- SILENT
    obtain ⟨u, hu⟩ : ∃ u, u = discReport (modWalk s fun w => { w with cur := none, silent := w.silent ++ [(nodeId s, p.val)] }) .discSilent := ⟨_, rfl⟩
    have hgo := (probeTimeout_silent s p hrun hcur hat htries).trans (congrArg walkOn hu.symm)
    have hkeeps := walkOn_keeps u
    have hquiet : ∀ f, notInjecting (modWalk s f) = true := fun _ => hq
    rw [discReport_quiet _ _ (hquiet _)] at hu
    have hagain : (walkOn u).trr.walk.running = s.trr.walk.running ∨ (walkOn u).trr.walk.arm = true ∨ rb (walkOn u) (trrR 0x004) 31 = false := by
      have hstops := hkeeps.stops (by rw [hu]; exact hset)
      rw [hkeeps.arm]
      rw [hu] at hstops ⊢
      exact hstops
    rw [walkAgain_once probeTimeout s (by rw [hgo]; exact hagain), hgo]
    refine ⟨by rw [hkeeps.silent, hu]; rfl, hkeeps.bus ?_⟩
    rw [hu]
    exact List.mem_append_right _ (List.mem_singleton_self _)
  · -- ASSIGN
    have ha' : isActive (creditC2 s p) p = true := ((sameLinks_creditSend s p 1 0 0).isActive p).trans ha
    have hother : ∀ q, q ≠ p.val → portOf (creditC2 s p) q = portOf s q := fun q h => by
      unfold creditC2 creditSend
      rw [if_pos ha]
      exact portOf_enqueue_other s p q _ _ h
    have hregs : (creditC2 s p).regs = s.regs := by
      obtain ⟨l, hl⟩ := creditSend_portsOnly s p 1 0 0
      unfold creditC2
      rw [hl]
    rw [hopIn_takes _ 0x0A k _ (by rw [ht]; rfl) hk, assignIn_takes _ p k ha']
    split
    next hquar => exact ⟨rfl, hother, fun _ => quarantine_role _, fun h => absurd hquar (ne_true_of_eq_false h)⟩
    next hquar => exact ⟨rfl, hother, fun h => absurd h hquar, fun _ => hregs⟩
  · -- DELEGATE
    rw [ownIn_takes s [0x0C] k _ ho (by rw [ht]; rfl) hk, if_pos hep]
    exact delegateIn_begins s p k hrole hlen hdown hpartner
  · -- the last return
    have hgo := delegateReturn_ends s src n.toNat hdeleg hrun hcur htodo
    obtain ⟨hstart, hwalk⟩ := walkEnd_start (modWalk s fun w => { w with deleg := [], count := w.count + n.toNat }) hset harm rfl
    rw [walkAgain_once _ s (.inr (.inr (by rw [hgo]; exact hstart))), hgo, hwalk]
    exact ⟨rfl, hstart⟩

end Sys2Proof.Machine
end

section
/-! SUPPORT. What the walk numbers and repairs: IDs and range entries, a peer that comes back, and a route over a secondary parent (R114, R126, R131). -/

namespace Sys2Proof.Machine

open Sys2Proof

/-! A range entry on an own port. -/

/-- The word of a VALID range entry. -/
def entWord (alt : Bool) (hi lo : BitVec 14) : Word := wd (2 ^ 31 + b2n alt * 2 ^ 30 + hi.toNat * 2 ^ 16 + lo.toNat)

/-- The first entry of an own port goes to its first place where that is free. -/
theorem entNew_first (s : State) (port : Nat) (lo hi : BitVec 14) (alt rep : Bool) (he : s.trr.walk.ents = [])
    (hfree : rb s (trrR (0x400 + 0x40 * port)) 31 = false) :
    entNew s (nodeId s) port lo hi alt rep =
      setReg (modWalk s fun w => { w with ents := [⟨nodeId s, port, 0, lo, hi, alt, rep⟩] }) (trrR (0x400 + 0x40 * port)) (entWord alt hi lo) := by
  have haddr : entAddr port 0 = trrR (0x400 + 0x40 * port) := rfl
  have hplace : ((List.range 16).find? fun k => !(([] : List Nat).contains k || (nodeId s == nodeId s && rb s (entAddr port k) 31))) = some 0 := by
    rw [show List.range 16 = 0 :: (List.range 15).map Nat.succ from rfl]
    refine List.find?_cons_of_pos ?_
    rw [haddr, hfree, beq_self_eq_true]
    rfl
  have hents : (modWalk s fun w => { w with ents := w.ents ++ [⟨nodeId s, port, 0, lo, hi, alt, rep⟩] }) =
      modWalk s fun w => { w with ents := [⟨nodeId s, port, 0, lo, hi, alt, rep⟩] } := by
    unfold modWalk modTrr
    dsimp only
    rw [he, List.nil_append]
  unfold entNew
  rw [he, List.filter_nil, List.map_nil]
  dsimp only
  rw [hplace]
  dsimp only
  rw [hents]
  exact if_pos rfl

/-- With no entry known a range begins. -/
theorem entGrow_first (s : State) (node : BitVec 14) (port : Nat) (sel : Ent → Bool) (lo hi : BitVec 14) (alt : Bool) (he : s.trr.walk.ents = []) :
    entGrow s node port sel lo hi alt = entNew s node port lo hi alt false := by
  unfold entGrow
  rw [he]
  rfl

/-- A node on a port of the walker's own has its one entry there. -/
theorem climb_own (m : Nat) (s : State) (x : BitVec 14) (c : NodeRec) (halt : c.alt = false) (hp : c.parent = nodeId s) (he : s.trr.walk.ents = [])
    (hfree : rb s (trrR (0x400 + 0x40 * c.port)) 31 = false) :
    climb (m + 1) s x none c =
      setReg (modWalk s fun w => { w with ents := [⟨nodeId s, c.port, 0, c.node, x, false, false⟩] }) (trrR (0x400 + 0x40 * c.port)) (entWord false x c.node) := by
  have hgrow : ∀ sel, entGrow s (nodeId s) c.port sel c.node x false = _ := fun sel =>
    (entGrow_first s (nodeId s) c.port sel c.node x false he).trans (entNew_first s c.port c.node x false false he hfree)
  unfold climb
  rw [halt, hp]
  simp only [Bool.false_eq_true, if_false, Option.getD_none, Option.isSome_none, hgrow, nodeId_setReg, nodeId_modWalk, if_true]

/-! The number of a new peer. -/

/-- The state once a peer on an own port has its ID, its entry and its record. -/
def numbered (s : State) (r : NodeRec) (want : Nat) (bad : Bool) : State :=
  setReg (modWalk (enqueue s r.port (assignPacket s r.node.toNat want bad) false) fun w =>
    { w with known := w.known ++ [r], next := w.next + 1, count := w.count + 1, cur := none, ents := [⟨nodeId s, r.port, 0, r.node, r.node, false, false⟩] })
    (trrR (0x400 + 0x40 * r.port)) (entWord false r.node r.node)

theorem numbered_walk (s : State) (r : NodeRec) (want : Nat) (bad : Bool) :
    (numbered s r want bad).trr.walk =
      { s.trr.walk with known := s.trr.walk.known ++ [r], next := s.trr.walk.next + 1, count := s.trr.walk.count + 1, cur := none
                        ents := [⟨nodeId s, r.port, 0, r.node, r.node, false, false⟩] } := by
  rw [numbered, setReg_trr]
  rfl

theorem numbered_swSet (s : State) (r : NodeRec) (want : Nat) (bad : Bool) : (numbered s r want bad).swSet = s.swSet := by
  rw [numbered, setReg_swSet]
  rfl

theorem numbered_now (s : State) (r : NodeRec) (want : Nat) (bad : Bool) : now (numbered s r want bad) = now s := by
  rw [numbered, now_setReg]
  rfl

theorem portOf_numbered (s : State) (r : NodeRec) (want : Nat) (bad : Bool) (q : Nat) :
    portOf (numbered s r want bad) q = portOf (enqueue s r.port (assignPacket s r.node.toNat want bad) false) q := by
  rw [numbered, portOf_setReg, portOf_modWalk]

theorem reg_numbered (s : State) (r : NodeRec) (want : Nat) (bad : Bool) (a : Nat) :
    reg (numbered s r want bad) a = if a = trrR (0x400 + 0x40 * r.port) then entWord false r.node r.node else reg s a := by
  rw [numbered, reg_setReg, reg_modWalk]
  rfl

/-- The record of a peer on an own port of the STATION walk. -/
def peerRec (s : State) (p : Nat) (i : Ident) : NodeRec :=
  { uid := i.uid, node := BitVec.ofNat 14 s.trr.walk.next, role := i.role, parent := nodeId s, port := p, alt := false, depth := 0
    last := BitVec.ofNat 14 s.trr.walk.next, sideB := false, second := none }

/-- The state once the ports of a numbered peer, no ARM part, stand first among those to walk. -/
def numberedPole (s : State) (p : Nat) (i : Ident) (want : Nat) : State :=
  modWalk (numbered s (peerRec s p i) want false) fun w =>
    { w with todo := walkPorts (peerRec s p i).node i.act i.dirs (fun d => false || d != 3 || i.role != 1) ++ ((peerRec s p i).node, 6) :: w.todo }

/-- A peer on an own port, no ARM part, is numbered, and the walk goes on below it; one of another role than expected is reported (R114, R129). -/
theorem numberPeer_own (s : State) (n : NodeRec) (p : Nat) (i : Ident) (expect : Nat) (hn : n.node = nodeId s) (hp : p < 6) (harm : s.trr.walk.arm = false)
    (hnext : s.trr.walk.next < upperSize s) (he : s.trr.walk.ents = []) (hfree : rb s (trrR (0x400 + 0x40 * p)) 31 = false) (hrole : i.role ≠ 1) :
    let want := expectedRole n false expect
    numberPeer s n p i expect false =
      if i.role ≠ want then walkOn (discReport (numbered s (peerRec s p i) want true) .roleMismatch)
      else walkOn (numberedPole s p i want) := by
  have hmod : p % 8 = p := Nat.mod_eq_of_lt (by omega)
  have hpartner : decide (8 ≤ p) = false := decide_eq_false (by omega)
  have hlimit : ¬ upperSize s - 1 < s.trr.walk.next := by omega
  have hclimb : ∀ want bad, climb 20 (modWalk (assignSend s (nodeId s) p (peerRec s p i).node want bad) fun w =>
      { w with known := w.known ++ [peerRec s p i], next := w.next + 1, count := w.count + 1, cur := none }) (peerRec s p i).node none (peerRec s p i) =
      numbered s (peerRec s p i) want bad := fun want bad => by
    rw [assignSend_own]
    exact climb_own 19 _ _ (peerRec s p i) rfl rfl he hfree
  have hrole' : (i.role == 1) = false := beq_eq_false_iff_ne.mpr hrole
  unfold numberPeer
  simp only [harm, hmod, hpartner, hn, hlimit, Bool.false_and, Bool.false_eq_true, if_false, decide_false, Bool.or_false]
  rw [hrole', Bool.and_false, if_neg Bool.false_ne_true]
  by_cases hbad : i.role ≠ expectedRole n false expect
  · rw [if_pos (decide_eq_true hbad), if_pos hbad, decide_eq_true hbad]
    exact congrArg (fun u => walkOn (discReport u .roleMismatch)) (hclimb _ true)
  · rw [decide_eq_false hbad, if_neg Bool.false_ne_true, if_neg hbad]
    exact congrArg (fun u => walkOn (modWalk u _)) (hclimb _ false)

end Sys2Proof.Machine
end

section
/-! SUPPORT. The rows of the walk's numbering: IDENT, NEW_LINK and the loss of a cell (R114, R126, R129, R131). -/

namespace Sys2Proof.Machine

open Sys2Proof

/-! IDENT. -/

/-- At the walker the IDENT of an unknown peer on an UP link of its own port is numbered. -/
theorem identTake_unknown (s : State) (p expect : Nat) (i : Ident) (n : NodeRec) (hp : p < 6) (hcur : s.trr.walk.cur = some (0, p))
    (hn : recOf s.trr.walk 0 = some n) (harm : s.trr.walk.arm = false) (huid : recUid s.trr.walk i.uid = none) :
    identTake s 1 expect i = numberPeer s n p i expect false := by
  have hpartner : (decide (8 ≤ p) && decide (p < 16)) = false := by rw [decide_eq_false (by omega)]; rfl
  have hup : ¬ 16 ≤ p := by omega
  unfold identTake
  simp only [hcur, hn, harm, huid, hpartner, if_neg hup]
  rfl

theorem identIn_own (s : State) (p : Port) (k : Packet) (hid : s.trr.nodeId = some 0) (hcur : s.trr.walk.cur = some (0, p.val)) :
    identIn s k = walkAgain (fun u => identTake u (peerDir (reg s (trlR (0x110 + 0x40 * p.val)))) (expectOf u p) (identParse k.payload)) s := by
  have hnode : nodeId s = 0 := by rw [nodeId, hid]; rfl
  have hmod : p.val % 8 = p.val := Nat.mod_eq_of_lt (by omega)
  have hfilter : (s.trr.walk.cur.filter fun c => c.1 == nodeId s) = some (0, p.val) := by rw [hcur, hnode]; rfl
  unfold identIn
  rw [hfilter]
  dsimp only
  rw [hmod]

/-- A record that a walker finds for a node is of that node. -/
theorem recOf_node {w : Walk} {x : BitVec 14} {n : NodeRec} (h : recOf w x = some n) : n.node = x := by
  simpa using List.find?_some h

/-- The STATION part expects the role of EXPECT below its ports. -/
theorem expectedRole_station (n : NodeRec) (h : n.role = 3) (e : Nat) : expectedRole n false e = e := by
  unfold expectedRole
  rw [h]
  rfl

theorem mem_q2_enqueue (s : State) (p : Nat) (k : Packet) (d : Bool) (h : k.cls = 2) : k ∈ (portOf (enqueue s p k d) p).q2 := by
  have hne : ¬ k.cls = 1 := by rw [h]; decide
  unfold enqueue
  rw [portOf_modPort_same, if_neg hne, if_pos h]
  exact List.mem_append_right _ (List.mem_singleton_self _)

/-- The ASSIGN of a peer on an own port waits there. -/
theorem numbered_waits (s : State) (r : NodeRec) (want : Nat) (bad : Bool) :
    Waits2 (numbered s r want bad) r.port 0x0A [wd (r.node.toNat + want * 2 ^ 16 + b2n bad * 2 ^ 18)] :=
  ⟨assignPacket s r.node.toNat want bad, by rw [portOf_numbered]; exact mem_q2_enqueue s r.port _ false rfl, rfl, rfl, rfl⟩

theorem Waits2.of_port {s t : State} {p typ : Nat} {pay : List Word} (h : Waits2 s p typ pay) (hp : portOf t p = portOf s p) : Waits2 t p typ pay := by
  unfold Waits2 at h ⊢
  rw [hp]
  exact h

/-- No walk begins again once a walk has gone on from a state whose finds stand. -/
theorem walkAgain_on (f : State → State) (s u : State) (hf : f s = walkOn u) (hset : ∀ e ∈ u.swSet, e.1 ≠ trrR 0x004)
    (hrun : u.trr.walk.running = s.trr.walk.running) : walkAgain f s = walkOn u := by
  have hkeeps := walkOn_keeps u
  rw [walkAgain_once f s, hf]
  rw [hf, hkeeps.arm, ← hrun]
  exact hkeeps.stops hset

/-- A port of the STATION walker, with ID 0, is in hand, and the part beyond it is unknown, on an UP link, where a POLE part is
expected; the walk has an ID left and no range entry, and no START has been set in the cycle. -/
structure AtUnknown (s : State) (p : Port) (k : Packet) : Prop where
  id : s.trr.nodeId = some 0
  cur : s.trr.walk.cur = some (0, p.val)
  arm : s.trr.walk.arm = false
  own : ∃ n, recOf s.trr.walk 0 = some n ∧ n.role = 3
  link : peerDir (reg s (trlR (0x110 + 0x40 * p.val))) = 1
  uid : recUid s.trr.walk (identParse k.payload).uid = none
  next : s.trr.walk.next < upperSize s
  expects : expectOf s p = 2
  ents : s.trr.walk.ents = []
  free : rb s (trrR (0x400 + 0x40 * p.val)) 31 = false
  unset : ∀ e ∈ s.swSet, e.1 ≠ trrR 0x004

/-- IDs of the upper parts are below 1,024 (R114). -/
theorem upperSize_le (s : State) : upperSize s ≤ 1024 := by
  have : clampN 1 16 (rf s (trrR 0x00C) 4 0) ≤ 16 := by unfold clampN; split <;> [decide; (split <;> omega)]
  unfold upperSize
  omega

theorem AtUnknown.node {s : State} {p : Port} {k : Packet} (h : AtUnknown s p k) :
    (peerRec s p (identParse k.payload)).node.toNat = s.trr.walk.next := by
  have hsize := upperSize_le s
  have hnext := h.next
  show (BitVec.ofNat 14 s.trr.walk.next).toNat = _
  rw [BitVec.toNat_ofNat]
  omega

/-- The peer is numbered: as a POLE part, or as a part in the wrong place. -/
theorem AtUnknown.identIn {s : State} {p : Port} {k : Packet} (h : AtUnknown s p k) (hi : (identParse k.payload).role ≠ 1) (u : State)
    (hu : u = if (identParse k.payload).role ≠ 2 then discReport (numbered s (peerRec s p (identParse k.payload)) 2 true) .roleMismatch
      else numberedPole s p (identParse k.payload) 2)
    (hset : ∀ e ∈ u.swSet, e.1 ≠ trrR 0x004) (hrun : u.trr.walk.running = s.trr.walk.running) : Machine.identIn s k = walkOn u := by
  obtain ⟨n, hn, hrole⟩ := h.own
  have hnode : nodeId s = 0 := by rw [nodeId, h.id]; rfl
  have hnum := numberPeer_own s n p (identParse k.payload) 2 ((recOf_node hn).trans hnode.symm) p.isLt h.arm h.next h.ents h.free hi
  rw [expectedRole_station n hrole 2] at hnum
  rw [identIn_own s p k h.id h.cur, walkAgain_on _ s u ?_ hset hrun]
  rw [h.expects, h.link, identTake_unknown s p 2 _ n p.isLt h.cur hn h.arm h.uid, hnum, hu]
  split
  · rfl
  · rfl

/-- The IDENT of an unknown POLE part: its ID, its ASSIGN, its entry and its record (R114). -/
theorem AtUnknown.numbers {s : State} {p : Port} {k : Packet} (h : AtUnknown s p k) (hi : (identParse k.payload).role = 2) :
    let t := Machine.identIn s k
    let id := s.trr.walk.next
    Waits2 t p 0x0A [wd (id + 2 * 2 ^ 16)] ∧ t.trr.walk.next = id + 1 ∧ t.trr.walk.count = s.trr.walk.count + 1 ∧
      (∃ r ∈ t.trr.walk.known, (r.uid, r.node, r.role, r.parent, r.port) = ((identParse k.payload).uid, BitVec.ofNat 14 id, 2, 0, p.val)) ∧
      reg t (trrR (0x400 + 0x40 * p.val)) = wd (2 ^ 31 + id * 2 ^ 16 + id) := by
  have hnode : nodeId s = 0 := by rw [nodeId, h.id]; rfl
  obtain ⟨r, hr⟩ : ∃ r, r = peerRec s p (identParse k.payload) := ⟨_, rfl⟩
  have hid : r.node.toNat = s.trr.walk.next := by rw [hr, h.node]
  have hport : r.port = p.val := by rw [hr]; rfl
  have hwalk := numbered_walk s r 2 false
  have hpole : numberedPole s p (identParse k.payload) 2 = modWalk (numbered s r 2 false) fun w =>
      { w with todo := walkPorts r.node (identParse k.payload).act (identParse k.payload).dirs (fun d => false || d != 3 || (identParse k.payload).role != 1) ++
                 (r.node, 6) :: w.todo } := by rw [hr]; rfl
  have hgo := h.identIn (by rw [hi]; decide) _ (if_neg (not_not.mpr hi)).symm (by rw [hpole, modWalk, modTrr_swSet, numbered_swSet]; exact h.unset)
    (by rw [hpole, modWalk_walk, hwalk])
  obtain ⟨-, hknext, hkcount, -, hkknown, -, hkwaits, hkregs, -⟩ := walkOn_keeps (numberedPole s p (identParse k.payload) 2)
  dsimp only
  rw [hgo, hknext, hkcount]
  rw [hpole, modWalk_walk, hwalk, ← hpole] at hkknown
  refine ⟨hkwaits.waits ?_, by rw [hpole, modWalk_walk, hwalk], by rw [hpole, modWalk_walk, hwalk], ?_, ?_⟩
  · have hw := numbered_waits s r 2 false
    rw [hid, hport, b2n, if_neg Bool.false_ne_true, Nat.zero_mul, Nat.add_zero] at hw
    rw [hpole]
    exact hw.of_port (portOf_modWalk _ _ _)
  · obtain ⟨x, hx, hxr⟩ := hkknown r (List.mem_append_right _ (List.mem_singleton_self _))
    have hshape : (r.uid, r.node, r.role, r.parent, r.port) =
        ((identParse k.payload).uid, BitVec.ofNat 14 s.trr.walk.next, (identParse k.payload).role, nodeId s, p.val) := by rw [hr]; rfl
    rw [hi, hnode] at hshape
    exact ⟨x, hx, hxr.trans hshape⟩
  · rw [hkregs _ (by simp only [trrR]; omega) (by simp only [trrR]; omega) (by simp only [trrR, fltR]; omega), hpole, reg_modWalk, reg_numbered,
      hport, if_pos rfl, entWord, hid, b2n, if_neg Bool.false_ne_true, Nat.zero_mul, Nat.add_zero]

/-- The IDENT of an unknown part of another role than the one expected (R129). -/
theorem AtUnknown.mismatch {s : State} {p : Port} {k : Packet} (h : AtUnknown s p k) (hq : notInjecting s = true) (hi : (identParse k.payload).role = 0) :
    let t := Machine.identIn s k
    Waits2 t p 0x0A [wd (s.trr.walk.next + 2 * 2 ^ 16 + 2 ^ 18)] ∧ (now s, faultMsg 97 .roleMismatch (trrR 0x008) false) ∈ t.flt.bus := by
  obtain ⟨r, hr⟩ : ∃ r, r = peerRec s p (identParse k.payload) := ⟨_, rfl⟩
  have hid : r.node.toNat = s.trr.walk.next := by rw [hr, h.node]
  have hport : r.port = p.val := by rw [hr]; rfl
  have hquiet : notInjecting (numbered s r 2 true) = true := notInjecting_of_reg
    (by rw [reg_numbered, if_neg (by rw [hport]; simp only [trrR, fltR]; omega)]) hq
  have hrep := discReport_quiet _ .roleMismatch hquiet
  have hgo := h.identIn (by rw [hi]; decide) (discReport (numbered s r 2 true) .roleMismatch) (by rw [if_pos (by rw [hi]; decide), hr])
    (by rw [hrep, modFlt_swSet, numbered_swSet]; exact h.unset) (by rw [hrep, modFlt_trr, numbered_walk])
  obtain ⟨-, -, -, -, -, hkbus, hkwaits, -, -⟩ := walkOn_keeps (discReport (numbered s r 2 true) .roleMismatch)
  dsimp only
  rw [hgo]
  rw [hrep] at hkbus hkwaits ⊢
  refine ⟨hkwaits.waits ?_, hkbus ?_⟩
  · have hw := numbered_waits s r 2 true
    rw [hid, hport, b2n, if_pos rfl, Nat.one_mul] at hw
    exact hw.of_port (portOf_modFlt _ _ _)
  · rw [numbered_now]
    exact List.mem_append_right _ (List.mem_singleton_self _)

end Sys2Proof.Machine
end

section
/-! SUPPORT. A peer that comes back, and the repair of routes (R126, R131). -/

namespace Sys2Proof.Machine

open Sys2Proof

/-! NEW_LINK. -/

/-- A primary peer that comes back with no range entry written only forgets its repairs, of which there are none. -/
theorem knownLink_primary (s : State) (reporter : BitVec 14) (p : Nat) (r : NodeRec) (he : s.trr.walk.ents = []) (halt : r.alt = false) :
    knownLink s reporter p r = modWalk s fun w => { w with ents := [] } := by
  have hkeep : ¬ (r.alt = true ∧ reporter ≠ r.parent) := fun h => Bool.false_ne_true (halt.symm.trans h.1)
  have hents : ∀ f : Ent → Bool, (modWalk s fun w => { w with ents := w.ents.filter f }) = modWalk s fun w => { w with ents := [] } := fun f => by
    unfold modWalk modTrr
    dsimp only
    rw [he, List.filter_nil]
  unfold knownLink
  dsimp only
  rw [he, List.filter_nil, List.foldl_nil, if_neg hkeep]
  exact hents _

/-- A known POLE part that comes back to a port of the STATION walker is probed and gets its former ID (R131). -/
theorem newLink_known (s : State) (p : Port) (ex : Nat) (i : Ident) (n r : NodeRec) (hdone : s.trr.walk.done = true) (hid : s.trr.nodeId = some 0)
    (hn : recOf s.trr.walk 0 = some n) (hrole : n.role = 3) (hi : i.role = 2) (hexp : expectOf s p = 2) (hr : recUid s.trr.walk i.uid = some r)
    (halt : r.alt = false) (he : s.trr.walk.ents = []) :
    newLink s 0 p ex i = modWalk (enqueue (probeSend s (0, p.val)) p ⟨0, 0, 0x0A, 2, 0, [wd (r.node.toNat + 2 * 2 ^ 16)]⟩ false) fun w => { w with ents := [] } := by
  have hnode : nodeId s = 0 := by rw [nodeId, hid]; rfl
  have hprobe := goesOut_probeSend s (0, p.val)
  have hnode' : nodeId (probeSend s (0, p.val)) = 0 := by rw [nodeId, hprobe.trr]; exact hnode
  have hassign : assignSend (probeSend s (0, p.val)) 0 p r.node 2 false =
      enqueue (probeSend s (0, p.val)) p ⟨0, 0, 0x0A, 2, 0, [wd (r.node.toNat + 2 * 2 ^ 16)]⟩ false := by
    have h := assignSend_own (probeSend s (0, p.val)) p r.node 2 false
    rw [assignPacket, hnode', b2n, if_neg Bool.false_ne_true, Nat.zero_mul, Nat.add_zero] at h
    exact h
  have hents : (assignSend (probeSend s (0, p.val)) 0 p r.node 2 false).trr.walk.ents = [] := by
    rw [hassign]
    exact (congrArg (fun t : Trr => t.walk.ents) hprobe.trr).trans he
  have hpartner : (decide (n.role = 2) && decide (¬ (2 : Nat) = 0)) = false := by rw [hrole]; rfl
  have hwant : expectedRole n false (if (0 : BitVec 14) = nodeId s then expectOf s p else ex) = 2 := by
    rw [if_pos hnode.symm, hexp, expectedRole_station n hrole]
  rw [← hassign, ← knownLink_primary _ 0 p r hents halt]
  unfold newLink
  simp only [hdone, hn, hpartner, hwant, hi, hr, Bool.not_true, Bool.false_eq_true, if_false, ne_eq, not_true_eq_false, decide_false]

/-! The loss of a cell. -/

/-- A child of the lost cell whose secondary parent is on a port of this part has one repair entry, on that port (R126). -/
theorem repairUp_own (m : Nat) (s : State) (stop : List (BitVec 14)) (c sp : NodeRec) (hsp : sp.parent = nodeId s) (he : s.trr.walk.ents = [])
    (hfree : rb s (trrR (0x400 + 0x40 * sp.port)) 31 = false) :
    repairUp (m + 1) s stop c sp =
      setReg (modWalk s fun w => { w with ents := [⟨nodeId s, sp.port, 0, c.node, c.last, true, true⟩] }) (trrR (0x400 + 0x40 * sp.port))
        (entWord true c.last c.node) := by
  unfold repairUp
  rw [hsp, entNew_first s sp.port c.node c.last true true he hfree]
  simp only [nodeId_setReg, nodeId_modWalk, or_true, if_true]

theorem repair_single (s : State) (lost : BitVec 14) (c sp : NodeRec) (e : BitVec 14) (pt : Nat) (hrole : roleOf s = .arm) (hact : s.sys.pair.active = true)
    (hdone : s.trr.walk.done = true) (hlost : (s.trr.walk.known.filter fun x => x.parent == lost && x.node != lost && !x.alt) = [c])
    (hsec : c.second = some (e, pt)) (hrec : recOf s.trr.walk e = some sp) (hne : sp.parent ≠ e) :
    repair s lost = repairUp 20 s (ancestors 20 s.trr.walk lost) c sp := by
  have hcond : (roleOf s != .arm || !s.sys.pair.active || !s.trr.walk.done) = false := by rw [hrole, hact, hdone]; rfl
  unfold repair
  simp only [hcond, hlost, List.foldl_cons, List.foldl_nil, hsec, hrec, if_neg hne, Bool.false_eq_true, if_false]

/-- Settles O38: from one IDENT, one NEW_LINK and one lost cell to the ID, the entries and the packets they bring. -/
theorem walkNumbersAndRepairs : Obligations.WalkNumbersAndRepairs := by
  intro p k s hr hq
  have hunknown : ∀ role, (s.trr.nodeId = some 0 ∧ s.trr.walk.cur = some (0, p.val) ∧ s.trr.walk.arm = false ∧
      (∃ n, recOf s.trr.walk 0 = some n ∧ n.role = 3) ∧ (identParse k.payload).role = role ∧ peerDir (reg s (trlR (0x110 + 0x40 * p.val))) = 1 ∧
      recUid s.trr.walk (identParse k.payload).uid = none ∧ 0 < s.trr.walk.next ∧ s.trr.walk.next < upperSize s ∧ expectOf s p = 2 ∧ s.trr.walk.ents = [] ∧
      rb s (trrR (0x400 + 0x40 * p.val)) 31 = false ∧ k.typ = 9 ∧ packetOk k = true ∧ (∀ e ∈ s.swSet, e.1 ≠ trrR 0x004)) →
      AtUnknown s p k ∧ (identParse k.payload).role = role ∧ exec (.identRx k) s = .next (identIn s k) := by
    rintro role ⟨hid, hcur, harm, hown, hi, hlink, huid, -, hnext, hexp, he, hfree, ht, hk, hset⟩
    have htaken : live s (fun s => hopIn s 0x09 k fun s => identIn s k) = identIn s k := by
      rw [live_of_run s _ hr, hopIn_takes s 0x09 k _ (by rw [ht]; rfl) hk]
    exact ⟨⟨hid, hcur, harm, hown, hlink, huid, hnext, hexp, he, hfree, hset⟩, hi, congrArg Host.Outcome.next htaken⟩
  refine ⟨fun h => ?_, fun h => ?_, fun n r ex hdone hid hn hrole hi hexp hrec halt he => answers_live rfl hr ?_,
    fun lost c e pt sp hrole hact hdone hlost he hsec hrec hpar hne _ hfree => answers_live rfl hr ?_⟩
  · obtain ⟨hat, hi, hexec⟩ := hunknown 2 h
    exact ⟨_, hexec, hat.numbers hi⟩
  · obtain ⟨hat, hi, hexec⟩ := hunknown 0 h
    exact ⟨_, hexec, hat.mismatch hq hi⟩
  · -- a peer that comes back
    have hnode : nodeId s = 0 := by rw [nodeId, hid]; rfl
    have hprobe : probeSend s (0, p.val) = enqueue s p (probePacket s) false := hnode ▸ probeSend_own s p
    rw [newLink_known s p ex.toNat _ n r hdone hid hn hrole hi hexp hrec halt he]
    refine ⟨enqueue_queued _ p _, fun q h => ?_, ?_, ?_⟩
    · rw [portOf_modWalk, portOf_enqueue_other _ p q _ _ h, hprobe, portOf_enqueue_other s p q _ _ h]
    · rw [hprobe]; rfl
    · rw [hprobe]; rfl
  · -- a cell is lost
    rw [repair_single s lost c sp e pt hrole hact hdone hlost hsec hrec (by rw [hpar]; exact hne.symm), repairUp_own 19 s _ c sp hpar he hfree]
    refine ⟨?_, by rw [setReg_trr]; rfl, fun a ha => by rw [reg_setReg_other _ _ _ _ ha, reg_modWalk], by rw [setReg_ports, setReg_mem, setReg_flt]; rfl⟩
    rw [reg_setReg_same, entWord, b2n, if_pos rfl, Nat.one_mul]

end Sys2Proof.Machine
end

section
/-! SUPPORT. The record of a Cayenne and the fault bus while the part enters SAFE (R140, R142, R452). -/

namespace Sys2Proof.Machine

open Sys2Proof

/-! What an entry to SAFE leaves of the router and of the fault bus. -/

/-- The absorption holds, the fault bus, and the word of TRR_CAY_STAT. -/
def cayPart (s : State) := (s.trr.hold, s.flt.bus, reg s (trrR 0x024))

theorem cayPart_setReg (s : State) (a : Nat) (v : Word) (h : trrR 0x024 ≠ a) : cayPart (setReg s a v) = cayPart s := by
  unfold cayPart
  rw [reg_setReg_other s a v _ h, setReg_trr, setReg_flt]

@[simp] theorem cayPart_modPort (s : State) (p : Nat) (f : PortSt → PortSt) : cayPart (modPort s p f) = cayPart s := rfl
@[simp] theorem cayPart_modCore (s : State) (n : Nat) (f : Core → Core) : cayPart (modCore s n f) = cayPart s := rfl
@[simp] theorem cayPart_modStp (s : State) (f : Stp → Stp) : cayPart (modStp s f) = cayPart s := rfl
@[simp] theorem cayPart_modLpe (s : State) (f : Lpe → Lpe) : cayPart (modLpe s f) = cayPart s := rfl
@[simp] theorem cayPart_modSup (s : State) (f : Sup → Sup) : cayPart (modSup s f) = cayPart s := rfl
@[simp] theorem cayPart_modSwg (s : State) (f : Swg → Swg) : cayPart (modSwg s f) = cayPart s := rfl
@[simp] theorem cayPart_modRdl (s : State) (f : Rdl → Rdl) : cayPart (modRdl s f) = cayPart s := rfl
@[simp] theorem cayPart_modCap (s : State) (f : Cap → Cap) : cayPart (modCap s f) = cayPart s := rfl
@[simp] theorem cayPart_modSaf (s : State) (f : Saf → Saf) : cayPart (modSaf s f) = cayPart s := rfl
@[simp] theorem cayPart_modNv (s : State) (f : Nv → Nv) : cayPart (modNv s f) = cayPart s := rfl

theorem cayPart_modSys (s : State) (f : Sys → Sys) (h : (f s.sys).strap = s.sys.strap) : cayPart (modSys s f) = cayPart s := by
  have hrole : roleOf (modSys s f) = roleOf s := congrArg Role.ofStrap h
  unfold cayPart reg
  rw [hrole]
  rfl

theorem cayPart_modFlt (s : State) (f : Flt → Flt) (h : (f s.flt).bus = s.flt.bus) : cayPart (modFlt s f) = cayPart s := by
  unfold cayPart
  rw [reg_modFlt]
  exact congrArg (fun b => (s.trr.hold, b, reg s (trrR 0x024))) h

@[simp] theorem cayPart_modPair (s : State) (f : Pair → Pair) : cayPart (modPair s f) = cayPart s := rfl

theorem dropWork_cay (s : State) : cayPart (dropWork s) = cayPart s := by
  have htrr : ∀ u : State, cayPart (modTrr u fun t => { t with reqs := [], orphans := [] }) = cayPart u := fun _ => rfl
  unfold dropWork
  rw [cayPart_modLpe, cayPart_modStp, htrr, foldl_keeps cayPart _ (fun _ _ => cayPart_modCore ..), foldl_keeps cayPart _ (fun _ _ => cayPart_modPort ..)]

theorem discard_cay (s : State) (c r b : Nat) (w : Bool) : cayPart (discard s c r b w) = cayPart s := by
  have h10 : ∀ u v, cayPart (setReg u (sysR 0x010) v) = cayPart u := fun u v => cayPart_setReg u _ v (by decide)
  have h14 : ∀ u v, cayPart (setReg u (sysR 0x014) v) = cayPart u := fun u v => cayPart_setReg u _ v (by decide)
  have h18 : ∀ u v, cayPart (setReg u (sysR 0x018) v) = cayPart u := fun u v => cayPart_setReg u _ v (by decide)
  unfold discard
  simp only [apply_ite cayPart, cayPart_modSys, h10, h14, h18, ite_self]

theorem peerTell_cay (s : State) (v : Bool) : cayPart (peerTell s v) = cayPart s := by
  unfold peerTell partnerCmd
  split
  · split
    · exact cayPart_modPort ..
    · rfl
  · rfl

theorem intlDrop_cay (s : State) : cayPart (intlDrop s) = cayPart s := by
  rcases intlDrop_cases s with e | ⟨v, hv, e⟩
  · rw [e, cayPart_modPair]
  · have hv1 : cayPart v = cayPart s := by rw [hv, discard_cay, pairYield, cayPart_modPair, dropWork_cay]
    rcases e with e | e
    · rw [e, hv1]
    · rw [e, peerTell_cay, hv1]

theorem turnOffAt_cay (s : State) (t : Nat) : cayPart (turnOffAt s t) = cayPart s := by
  unfold turnOffAt
  split
  · rfl
  · split
    · rfl
    · rfl

theorem safeEffects_cay (s : State) : cayPart (safeEffects s) = cayPart s := by
  have hstop : cayPart (safeStop s) = cayPart s := by rw [safeStop, cayPart_modLpe, cayPart_modFlt _ _ rfl]
  have hriddle : ∀ u : State, cayPart (safeRiddle u) = cayPart u := fun u => by rw [safeRiddle, cayPart_modRdl, cayPart_modSwg]
  rw [safeEffects_eq]
  simp only [apply_ite cayPart, hriddle, turnOff, turnOffAt_cay, ite_self, intlDrop_cay, hstop]

theorem dropTrans_cay (s : State) : cayPart (dropTrans s) = cayPart s := by
  have hwords : ∀ w, cayPart (wordsBack w s) = cayPart s := fun w => by
    unfold wordsBack
    exact foldl_keeps cayPart (fun s k => setReg s (lpeMem (k / 16) (k % 16)) (w.getD k 0))
      (fun u k => cayPart_setReg u _ _ (by simp only [trrR, lpeMem, lpeR]; omega)) _ s
  have hback : ∀ (u : Undo) (t : State), cayPart (transBack u t) = cayPart t := fun u t => by
    unfold transBack
    simp only [cayPart_modSys, cayPart_modLpe, cayPart_modRdl, cayPart_modSwg, cayPart_modNv, cayPart_modSaf, cayPart_modSup, cayPart_modFlt]
  cases hu : s.sys.undo with
  | none => rw [dropTrans_of_none s hu]
  | some u => rw [dropTrans_of_some s u hu, apply_ite cayPart, hback, hwords, ite_self]

/-- Reports come from fewer than 512 units, whose mask bits lie in SYS. -/
theorem safeCore_cay (s : State) (bit : Nat) (src : Option Nat) (hsrc : ∀ n, src = some n → n < 512) : cayPart (safeCore s bit src) = cayPart s := by
  cases hb : s.sys.barred with
  | true => rw [safeCore, if_pos hb]
  | false =>
    have hdrop : safeCore s bit src = safeCore (dropTrans s) bit src := by
      unfold safeCore
      rw [dropTrans_idem, dropTrans_barred, hb, if_neg Bool.false_ne_true, if_neg Bool.false_ne_true]
    have hmark : cayPart (safeMark (dropTrans s) bit src) = cayPart (dropTrans s) := by
      cases src with
      | none => exact cayPart_modSys _ _ rfl
      | some n =>
        have hn := hsrc n rfl
        exact (cayPart_setReg _ _ _ (by simp only [trrR, safeMask, sysR]; omega)).trans (cayPart_modSys _ _ rfl)
    have hleave : ∀ u : State, cayPart (modeLeave u) = cayPart u := fun u => by
      unfold modeLeave testLeave aliveBegin
      simp only [cayPart_modSys, apply_ite cayPart, cayPart_modSaf, cayPart_modFlt, ite_self]
    rw [hdrop, safeCore_eq _ bit src ((dropTrans_barred s).trans hb) (dropTrans_idem s), apply_ite cayPart, cayPart_modSys _ _ rfl, safeEffects_cay, hleave,
      hmark, dropTrans_cay, ite_self]

/-! The demand of the upper roles. -/

/-- From s to t the holds and the record stand, and no message is gone from the bus. -/
structure CayStands (s t : State) : Prop where
  hold : t.trr.hold = s.trr.hold
  bus : s.flt.bus ⊆ t.flt.bus
  stat : reg t (trrR 0x024) = reg s (trrR 0x024)

theorem cayStands_of_part {s t : State} (h : cayPart t = cayPart s) : CayStands s t := by
  simp only [cayPart, Prod.mk.injEq] at h
  obtain ⟨hhold, hbus, hstat⟩ := h
  exact ⟨hhold, by rw [hbus]; exact List.Subset.refl _, hstat⟩

theorem CayStands.trans {s t u : State} (a : CayStands s t) (b : CayStands t u) : CayStands s u :=
  ⟨b.hold.trans a.hold, List.Subset.trans a.bus b.bus, b.stat.trans a.stat⟩

theorem cayStands_report (s : State) (src : Nat) (k : Kind) (a : Nat) : CayStands s (report s src k a) := by
  have hout := goesOut_report s src k a
  exact ⟨by rw [hout.trr], hout.bus, hout.regs _ (by decide) (by decide)⟩

theorem demandCore_cay (s : State) (bit : Nat) : CayStands s (demandCore s bit) := by
  have habort : ∀ u : State, cayPart (testAbort u) = cayPart u := fun u => by
    unfold testAbort
    rw [apply_ite cayPart, cayPart_modSaf, ite_self]
  have hout : ∀ u : State, cayPart (demandOut u) = cayPart u := fun u => by
    unfold demandOut
    rw [apply_ite cayPart, cayPart_modSaf, cayPart_modSaf, ite_self]
  have hdrop : ∀ f, cayPart (modSaf (dropTrans s) f) = cayPart s := fun f => by rw [cayPart_modSaf, dropTrans_cay]
  unfold demandCore
  dsimp only
  split
  · exact cayStands_of_part (hdrop _)
  · have hfirst : ∀ f, CayStands s (report (testAbort (modSaf (dropTrans s) f)) 356 .demand (safR 0x00C)) := fun f =>
      (cayStands_of_part ((habort _).trans (hdrop f))).trans (cayStands_report ..)
    refine (hfirst fun f => { f with demand := f.demand ||| BitVec.ofNat 8 (2 ^ bit) }).trans (cayStands_of_part ?_)
    have hcore : ∀ u : State, cayPart (safeCore u 18 (some 356)) = cayPart u := fun u => safeCore_cay u 18 (some 356) fun n hn => by cases hn; decide
    simp only [apply_ite cayPart, cayPart_modSaf, hcore, hout, ite_self]

theorem enterSafe_stands (s : State) (bit n : Nat) (hn : n < 512) : CayStands s (enterSafe s bit (some n)) := by
  have hcore : cayPart (safeCore (dropTrans s) bit (some n)) = cayPart s := by
    rw [safeCore_cay _ bit (some n) fun m hm => by cases hm; exact hn, dropTrans_cay]
  unfold enterSafe
  dsimp only
  split
  · exact (cayStands_of_part hcore).trans (demandCore_cay _ 5)
  · exact cayStands_of_part hcore

/-! A cell. -/

theorem dropTrans_strap (s : State) : (dropTrans s).sys.strap = s.sys.strap := by
  have hwords : ∀ w, (wordsBack w s).sys.strap = s.sys.strap := fun w => by
    unfold wordsBack
    exact foldl_keeps (fun u : State => u.sys.strap) (fun s k => setReg s (lpeMem (k / 16) (k % 16)) (w.getD k 0)) (fun _ _ => by rw [setReg_sys]) _ s
  cases hu : s.sys.undo with
  | none => rw [dropTrans_of_none s hu]
  | some u =>
    rw [dropTrans_of_some s u hu]
    split
    · exact hwords u.words
    · rfl

theorem dropTrans_gcmd (s : State) : (dropTrans s).swg.gcmd = s.swg.gcmd := by
  have hwords : ∀ w, (wordsBack w s).swg = s.swg := fun w => by
    unfold wordsBack
    exact foldl_keeps State.swg (fun s k => setReg s (lpeMem (k / 16) (k % 16)) (w.getD k 0)) (fun _ _ => by rw [setReg_swg]) _ s
  have hback : ∀ (u : Undo) (t : State), (transBack u t).swg.gcmd = t.swg.gcmd := fun u t => by
    simp only [transBack, modSys_swg, modLpe_swg, modRdl_swg, modSwg_swg, modNv_swg, modSaf_swg, modSup_swg, modFlt_swg]
  cases hu : s.sys.undo with
  | none => rw [dropTrans_of_none s hu]
  | some u =>
    rw [dropTrans_of_some s u hu]
    split
    · rw [hback, hwords]
    · rfl

/-- A cell whose gate commands are low enters SAFE with them low, and reports nothing more than it has. -/
theorem enterSafe_low (s : State) (bit n : Nat) (hn : n < 512) (hb : s.sys.barred = false) (hc : isCell s = true) (hg : s.swg.gcmd = 0) :
    (enterSafe s bit (some n)).swg.gcmd = 0 ∧ cayPart (enterSafe s bit (some n)) = cayPart s := by
  have hd := dropTrans_idem s
  have hcd : isCell (dropTrans s) = true := by rw [isCell, roleOf, dropTrans_strap]; exact hc
  have hbd := (dropTrans_barred s).trans hb
  have hgd : (dropTrans s).swg.gcmd = 0 := (dropTrans_gcmd s).trans hg
  have hsame : enterSafe s bit (some n) = enterSafe (dropTrans s) bit (some n) := by
    unfold enterSafe
    rw [hd]
  have hcell := enterSafe_cell (dropTrans s) bit (some n) hcd hd
  refine ⟨?_, ?_⟩
  · rw [hsame]
    by_cases hm : modeOf (dropTrans s) = .safe
    · have hisland := safeMark_island (dropTrans s) bit (some n)
      rw [hcell, safeCore_eq _ bit _ hbd hd, if_pos hm, modSys_swg]
      exact (congrArg (fun i : Saf × Nv × Swg × Rdl => i.2.2.1.gcmd) hisland).trans hgd
    · exact (enterSafe_gates (dropTrans s) bit (some n) hbd hd hm hcd).1 fun _ => hgd
  · rw [hsame, hcell, safeCore_cay _ bit (some n) fun m hm => by cases hm; exact hn, dropTrans_cay]

end Sys2Proof.Machine
end

section
/-! SUPPORT. Cayennes that leave, and the record of one that is applied (R86, R87, R137, R142). -/

namespace Sys2Proof.Machine

open Sys2Proof

/-! Cayennes that leave. -/

/-- A Cayenne is not moved by one that leaves before a tick symbol. -/
theorem mem_tickHeld (p : Nat) (b : Nat × Nat) (l : List Sent) (q : Port) (c : BitVec 2) (d : BitVec 6) (e : Nat) :
    Sent.cayenne q c d e ∈ l.map (tickHeld p b) ↔ Sent.cayenne q c d e ∈ l := by
  rw [List.mem_map]
  constructor
  · rintro ⟨x, hx, h⟩
    cases x with
    | tick => exact nomatch h
    | _ => exact h ▸ hx
  · exact fun h => ⟨_, h, rfl⟩

/-- From s to t a Cayenne has left the live ones of some ports, and no other port; only the ports and what is sent have changed. -/
structure CayLeft (s t : State) (sc : BitVec 2) (hops : Nat) (ps : List Nat) : Prop where
  frame : { t with ports := s.ports, sent := s.sent } = s
  live : ∀ q, isLive t q = isLive s q
  kept : ∀ q c d e, Sent.cayenne q c d e ∈ s.sent → Sent.cayenne q c d e ∈ t.sent
  left : ∀ p : Port, p.val ∈ ps → isLive s p = true → ∃ e, Sent.cayenne p sc (BitVec.ofNat 6 hops) e ∈ t.sent
  others : ∀ p : Port, p.val ∉ ps → ∀ c d e, Sent.cayenne p c d e ∈ t.sent → Sent.cayenne p c d e ∈ s.sent

theorem CayLeft.nil (s : State) (sc : BitVec 2) (hops : Nat) : CayLeft s s sc hops [] :=
  ⟨rfl, fun _ => rfl, fun _ _ _ _ => id, fun _ h => absurd h List.not_mem_nil, fun _ _ _ _ _ => id⟩

theorem CayLeft.cons {s t u : State} {sc : BitVec 2} {hops p : Nat} {ps : List Nat} (a : CayLeft s t sc hops [p]) (b : CayLeft t u sc hops ps) :
    CayLeft s u sc hops (p :: ps) := by
  refine ⟨?_, fun q => (b.live q).trans (a.live q), fun q c d e h => b.kept q c d e (a.kept q c d e h), fun q hq hl => ?_, fun q hq c d e h => ?_⟩
  · have hb := congrArg (fun v : State => { v with ports := s.ports, sent := s.sent }) b.frame
    exact hb.trans a.frame
  · rcases List.mem_cons.mp hq with hp | hp
    · obtain ⟨e, he⟩ := a.left q (List.mem_singleton.mpr hp) hl
      exact ⟨e, b.kept _ _ _ _ he⟩
    · exact b.left q hp ((a.live q).trans hl)
  · have hne : ¬ q.val = p ∧ q.val ∉ ps := by simpa using hq
    exact a.others q (fun h => hne.1 (List.mem_singleton.mp h)) c d e (b.others q hne.2 c d e h)

/-- A Cayenne on a port at an instant: the transmitter is busy for a span, and a tick symbol is held behind it (R57, R87). -/
def cayOut (s : State) (p : Port) (span : Nat × Nat) (sc : BitVec 2) (hops at_ : Nat) : State :=
  send { modPort s p fun t => { t with cayBusy := span, quietFrom := now s } with sent := s.sent.map (tickHeld p span) }
    (.cayenne p sc (BitVec.ofNat 6 hops) at_)

theorem cayLeave_live (s : State) (p : Port) (sc : BitVec 2) (hops dep : Nat) (h : isLive s p = true) :
    ∃ span at_, cayLeave s p sc hops dep = cayOut s p span sc hops at_ := ⟨_, _, dif_pos ⟨p.isLt, h⟩⟩

/-- It leaves every port as live as it was. -/
theorem isLive_cayOut (s : State) (p : Port) (span : Nat × Nat) (sc : BitVec 2) (hops at_ q : Nat) :
    isLive (cayOut s p span sc hops at_) q = isLive s q := by
  have hport : portOf (cayOut s p span sc hops at_) q = portOf (modPort s p fun t => { t with cayBusy := span, quietFrom := now s }) q := rfl
  have hdir : dirOf (cayOut s p span sc hops at_) q = dirOf s q := rfl
  rw [portOf_modPort] at hport
  unfold isLive
  rw [hport, hdir]
  split
  next e => rw [e]
  next => rfl

theorem cayOut_left (s : State) (p : Port) (span : Nat × Nat) (sc : BitVec 2) (hops at_ : Nat) : CayLeft s (cayOut s p span sc hops at_) sc hops [p.val] := by
  have hsent : (cayOut s p span sc hops at_).sent = s.sent.map (tickHeld p span) ++ [.cayenne p sc (BitVec.ofNat 6 hops) at_] := rfl
  refine ⟨rfl, isLive_cayOut s p span sc hops at_, fun q c d e hm => ?_, fun q hq _ => ?_,
    fun q hq c d e hm => ?_⟩
  · rw [hsent]
    exact List.mem_append_left _ ((mem_tickHeld ..).mpr hm)
  · have hqp : q = p := Fin.ext (List.mem_singleton.mp hq)
    rw [hqp, hsent]
    exact ⟨_, List.mem_append_right _ (List.mem_singleton_self _)⟩
  · rw [hsent] at hm
    rcases List.mem_append.mp hm with hm | hm
    · exact (mem_tickHeld ..).mp hm
    · have heq := List.mem_singleton.mp hm
      injection heq with hqp
      exact absurd (congrArg Fin.val hqp) fun hv => hq (List.mem_singleton.mpr hv)

/-- One port. -/
theorem cayLeave_left (s : State) (p : Nat) (sc : BitVec 2) (hops dep : Nat) : CayLeft s (cayLeave s p sc hops dep) sc hops [p] := by
  by_cases h : p < 6 ∧ isLive s p = true
  · obtain ⟨span, at_, hgo⟩ := cayLeave_live s ⟨p, h.1⟩ sc hops dep h.2
    rw [hgo]
    exact cayOut_left s ⟨p, h.1⟩ span sc hops at_
  · have hgo : cayLeave s p sc hops dep = s := dif_neg h
    rw [hgo]
    refine ⟨rfl, fun _ => rfl, fun _ _ _ _ => id, fun q hq hl => ?_, fun _ _ _ _ _ => id⟩
    have hv := List.mem_singleton.mp hq
    exact absurd ⟨hv ▸ q.isLt, hv ▸ hl⟩ h

theorem cayLeaves_left (sc : BitVec 2) (hops : Nat) (dep : Nat → Nat) (ps : List Nat) (s : State) :
    CayLeft s (ps.foldl (fun s p => cayLeave s p sc hops (dep p)) s) sc hops ps := by
  induction ps generalizing s with
  | nil => exact CayLeft.nil s sc hops
  | cons p ps ih => exact (cayLeave_left s p sc hops (dep p)).cons (ih _)

/-- A Cayenne that is sent also begins its hold (R139). -/
theorem caySend_sent (s : State) (ps : List Nat) (sc : BitVec 2) (hops : Nat) (dep : Nat → Nat) :
    let t := caySend s ps sc hops dep
    (∃ u, CayLeft s u sc hops ps ∧ t.sent = u.sent) ∧ (kget none t.trr.hold sc.toNat).isSome = true ∧
      { t with ports := s.ports, sent := s.sent, trr := s.trr } = s := by
  have hleft := cayLeaves_left sc hops dep ps s
  unfold caySend
  dsimp only
  generalize ps.foldl (fun s p => cayLeave s p sc hops (dep p)) s = u at hleft ⊢
  refine ⟨⟨u, hleft, rfl⟩, ?_, congrArg (fun v : State => { v with trr := s.trr }) hleft.frame⟩
  rw [modTrr_trr, kget_kput_same]
  rfl

/-! The record. -/

/-- The word of TRR_CAY_STAT. -/
def cayWord (sc : BitVec 2) (loc : Bool) (hops ports : Nat) : Word :=
  wd (2 ^ 31 + (b2n loc * 2 ^ 30 + sc.toNat * 2 ^ 16 + hops % 64 * 256 + ports % 64))

/-- Its fields: SEEN, LOCAL, the scope, HOPS and the ports (R142). -/
theorem cayWord_fields (sc : BitVec 2) (loc : Bool) (hops ports : Nat) :
    bitOf (cayWord sc loc hops ports) 31 = true ∧ bitOf (cayWord sc loc hops ports) 30 = loc ∧ fld (cayWord sc loc hops ports) 17 16 = sc.toNat ∧
      fld (cayWord sc loc hops ports) 13 8 = hops % 64 ∧ fld (cayWord sc loc hops ports) 5 0 = ports % 64 := by
  have hsc := sc.isLt
  have hh := Nat.mod_lt hops (show 64 > 0 by decide)
  have hp := Nat.mod_lt ports (show 64 > 0 by decide)
  have hb : b2n loc ≤ 1 := by cases loc <;> decide
  have hw : (cayWord sc loc hops ports).toNat = 2 ^ 31 + (b2n loc * 2 ^ 30 + sc.toNat * 2 ^ 16 + hops % 64 * 256 + ports % 64) := by
    rw [cayWord, wd, BitVec.toNat_ofNat, Nat.mod_eq_of_lt (by omega)]
  unfold bitOf fld
  rw [hw]
  refine ⟨beq_iff_eq.mpr (by omega), ?_, by omega, by omega, by omega⟩
  cases loc with
  | true => exact beq_iff_eq.mpr (by simp only [b2n, if_true]; omega)
  | false => exact beq_eq_false_iff_ne.mpr (by simp only [b2n, Bool.false_eq_true, if_false]; omega)

/-- The record of a Cayenne, with its arrival (R86, R142). -/
def cayRecord (s : State) (sc : BitVec 2) (loc : Bool) (hops ports at_ : Nat) : State :=
  modTrr (setReg (flag (setReg s (trrR 0x024) (wd (b2n loc * 2 ^ 30 + sc.toNat * 2 ^ 16 + hops % 64 * 256 + ports % 64))) (trrR 0x024) 0x80000000)
    (trrR 0x028) (wd (at_ / 2000))) fun t => { t with cayAt := (at_ + 2) / 5 * 5 }

theorem cayRecord_stat (s : State) (sc : BitVec 2) (loc : Bool) (hops ports at_ : Nat) :
    reg (cayRecord s sc loc hops ports at_) (trrR 0x024) = cayWord sc loc hops ports := by
  have hsc := sc.isLt
  have hh := Nat.mod_lt hops (show 64 > 0 by decide)
  have hp := Nat.mod_lt ports (show 64 > 0 by decide)
  have hb : b2n loc ≤ 1 := by cases loc <;> decide
  have hor : ∀ n, n < 2 ^ 31 → wd n ||| wd 0x80000000 = wd (2 ^ 31 + n) := fun n hn => by
    have h := Nat.two_pow_add_eq_or_of_lt hn 1
    rw [Nat.mul_one] at h
    rw [h, wd, wd, wd, BitVec.ofNat_or, BitVec.or_comm]
  rw [cayRecord, reg_modTrr, reg_setReg_other _ _ _ _ (by decide), reg_flag, if_pos rfl, reg_setReg_same, hor _ (by omega), cayWord]

end Sys2Proof.Machine
end

section
/-! SUPPORT. The effect of a Cayenne at its node: the record, the report, the turn-off and SAFE (R140, R142, R206). -/

namespace Sys2Proof.Machine

open Sys2Proof

/-- The state before SAFE: the record stands, the report is on the bus, the capture engine is told and the turn-off has begun. -/
def cayTold (s : State) (sc : BitVec 2) (loc : Bool) (hops ports at_ : Nat) : State :=
  let u := modFlt (cayRecord s sc loc hops ports at_) fun f => { f with bus := f.bus ++ [(now s, faultMsg 98 .cayenneRx (trrR 0x024) false)] }
  turnOffAt (modCap u fun c => if rb u (capR 0x018) 10 then { c with trig := c.trig ||| 0x400 } else c) (at_ / 2000 + if loc then 0 else 4)

/-- The first Cayenne since the record was cleared is recorded, reported and enters SAFE with cause 17. -/
theorem cayApply_first (s : State) (sc : BitVec 2) (loc : Bool) (hops ports at_ : Nat) (h : rb s (trrR 0x024) 31 = false) (hq : notInjecting s = true) :
    cayApply s sc loc hops ports at_ = enterSafe (cayTold s sc loc hops ports at_) 17 (some 98) := by
  have hquiet : notInjecting (cayRecord s sc loc hops ports at_) = true := by
    refine notInjecting_of_reg ?_ hq
    rw [cayRecord, reg_modTrr, reg_setReg_other _ _ _ _ (by decide), reg_flag_other _ _ _ _ (by decide), reg_setReg_other _ _ _ _ (by decide)]
  have hnow : now (cayRecord s sc loc hops ports at_) = now s := by
    rw [cayRecord, now_modTrr, now_setReg, now_flag, now_setReg]
  have hreport := report_quiet (cayRecord s sc loc hops ports at_) 98 .cayenneRx (trrR 0x024) hquiet
  rw [hnow] at hreport
  unfold cayApply
  rw [h, if_neg Bool.false_ne_true]
  dsimp only
  rw [← cayRecord, hreport, cayTold]

/-! The turn-off. -/

theorem turnOffAt_same (s : State) (t : Nat) : ((turnOffAt s t).sent, (turnOffAt s t).sys) = (s.sent, s.sys) := by
  unfold turnOffAt
  split
  · rfl
  · split <;> rfl

/-- Whenever its origin lies, a turn-off leaves every gate command of a cell low (R206). -/
theorem turnOffAt_low (s : State) (t : Nat) (hc : isCell s = true) (hl : TurnOffLow s) : (turnOffAt s t).swg.gcmd = 0 := by
  unfold turnOffAt
  rw [hc, Bool.not_true, if_neg Bool.false_ne_true]
  split
  next h => exact hl h
  next => exact gcmdDrop_all s.swg (now s)

/-! What stands before SAFE. -/

theorem cayTold_same (s : State) (sc : BitVec 2) (loc : Bool) (hops ports at_ : Nat) :
    ((cayTold s sc loc hops ports at_).sent, (cayTold s sc loc hops ports at_).sys) = (s.sent, s.sys) := by
  rw [cayTold, turnOffAt_same, modCap_sent, modCap_sys, modFlt_sent, modFlt_sys, cayRecord, modTrr_sent, modTrr_sys, setReg_sent, setReg_sys, flag_sent,
    flag_sys, setReg_sent, setReg_sys]

theorem cayTold_part (s : State) (sc : BitVec 2) (loc : Bool) (hops ports at_ : Nat) :
    cayPart (cayTold s sc loc hops ports at_) =
      (s.trr.hold, s.flt.bus ++ [(now s, faultMsg 98 .cayenneRx (trrR 0x024) false)], cayWord sc loc hops ports) := by
  have hhold : (cayRecord s sc loc hops ports at_).trr.hold = s.trr.hold := by rw [cayRecord, modTrr_trr, setReg_trr, flag_trr, setReg_trr]
  have hflt : (cayRecord s sc loc hops ports at_).flt = s.flt := by rw [cayRecord, modTrr_flt, setReg_flt, flag_flt, setReg_flt]
  rw [cayTold, turnOffAt_cay, cayPart_modCap, cayPart, modFlt_trr, reg_modFlt, cayRecord_stat, hhold]
  exact congrArg (fun f : Flt => (s.trr.hold, f.bus ++ _, _)) hflt

theorem cayTold_low (s : State) (sc : BitVec 2) (loc : Bool) (hops ports at_ : Nat) (hc : isCell s = true) (hl : TurnOffLow s) :
    (cayTold s sc loc hops ports at_).swg.gcmd = 0 := by
  have hsys : (cayRecord s sc loc hops ports at_).sys = s.sys := by rw [cayRecord, modTrr_sys, setReg_sys, flag_sys, setReg_sys]
  have hswg : (cayRecord s sc loc hops ports at_).swg = s.swg := by rw [cayRecord, modTrr_swg, setReg_swg, flag_swg, setReg_swg]
  rw [cayTold]
  refine turnOffAt_low _ _ ?_ ?_
  · rw [isCell_modCap, isCell_modFlt, isCell, roleOf, hsys]
    exact hc
  · rw [TurnOffLow, modCap_swg, modFlt_swg, hswg]
    exact hl

/-! SAFE. -/

/-- What an applied Cayenne shows (R140, R142, R452). -/
theorem cayApply_shows (s : State) (sc : BitVec 2) (loc : Bool) (hops ports at_ : Nat) (h : rb s (trrR 0x024) 31 = false) (hq : notInjecting s = true)
    (hb : s.sys.barred = false) :
    let t := cayApply s sc loc hops ports at_
    modeOf t = .safe ∧ t.sys.cause.getLsbD 1 = true ∧ rb t (sysR 0x20C) 2 = true ∧ t.sent = s.sent ∧ t.trr.hold = s.trr.hold ∧
      reg t (trrR 0x024) = cayWord sc loc hops ports ∧ (now s, faultMsg 98 .cayenneRx (trrR 0x024) false) ∈ t.flt.bus := by
  have hsame := cayTold_same s sc loc hops ports at_
  have hpart := cayTold_part s sc loc hops ports at_
  rw [cayApply_first s sc loc hops ports at_ h hq]
  generalize cayTold s sc loc hops ports at_ = u at hsame hpart
  simp only [cayPart, Prod.mk.injEq] at hsame hpart
  obtain ⟨hsent, hsys⟩ := hsame
  obtain ⟨hhold, hbus, hstat⟩ := hpart
  have hbu : u.sys.barred = false := by rw [hsys]; exact hb
  obtain ⟨hcause, hsent', hmask⟩ := enterSafe_shows u 1 (some 98) hbu
  obtain ⟨hhold', hbus', hstat'⟩ := enterSafe_stands u 17 98 (by decide)
  refine ⟨enterSafe_mode u 17 (some 98) hbu, hcause, hmask 98 rfl (by decide), hsent'.trans hsent, hhold'.trans hhold, hstat'.trans hstat, hbus' ?_⟩
  rw [hbus]
  exact List.mem_append_right _ (List.mem_singleton_self _)

/-- At a cell every gate command is low, and the report is the only one. -/
theorem cayApply_cell (s : State) (sc : BitVec 2) (loc : Bool) (hops ports at_ : Nat) (h : rb s (trrR 0x024) 31 = false) (hq : notInjecting s = true)
    (hb : s.sys.barred = false) (hc : isCell s = true) (hl : TurnOffLow s) :
    let t := cayApply s sc loc hops ports at_
    t.swg.gcmd = 0 ∧ t.flt.bus = s.flt.bus ++ [(now s, faultMsg 98 .cayenneRx (trrR 0x024) false)] := by
  have hsame := cayTold_same s sc loc hops ports at_
  have hpart := cayTold_part s sc loc hops ports at_
  have hlow := cayTold_low s sc loc hops ports at_ hc hl
  rw [cayApply_first s sc loc hops ports at_ h hq]
  generalize cayTold s sc loc hops ports at_ = u at hsame hpart hlow
  have hsys := congrArg Prod.snd hsame
  dsimp only at hsys
  obtain ⟨hg, hkeep⟩ := enterSafe_low u 17 98 (by decide) (by rw [hsys]; exact hb) (by rw [isCell, roleOf, hsys]; exact hc) hlow
  exact ⟨hg, congrArg (fun x : KV (Option Nat) × List (Nat × BitVec 64) × Word => x.2.1) (hkeep.trans hpart)⟩

end Sys2Proof.Machine
end

section
/-! SUPPORT. Cayennes launched and received, the end of a hold and of a record (R137 to R142, Table 4-8). -/

namespace Sys2Proof.Machine

open Sys2Proof

/-! A launch. -/

def cayCtrlRow : RegRow := reg1 0x020 0x14 [(31, 31, .wo), (9, 0, .rw)]

theorem rowOf_cayCtrl : rowOf (trrR 0x020) = some cayCtrlRow := by decide

/-- A launch of scope arm: TRR_CAY_CTRL takes the word, and the Cayenne goes out. -/
theorem cayCtrlWrite_arm (s : State) (o : Origin) (val : Word) (h : fld val 9 8 = 0) :
    ∃ v, cayCtrlWrite s o (setBit val 31 true) = cayLaunch (setReg s (trrR 0x020) v) 0 := by
  have hw1s : setBit val 31 true &&& accMask cayCtrlRow (· == .w1s) = 0 := by simp [cayCtrlRow, reg1, accMask]
  have hscope : scopeOf (fld (setBit val 31 true) 9 8) = 0 := by
    rw [fld_setBit_other _ _ _ _ _ (by decide), h]
    rfl
  refine ⟨softTake (reg s (trrR 0x020)) cayCtrlRow (setBit val 31 true), ?_⟩
  unfold cayCtrlWrite
  rw [genWrite_soft_only s o _ _ cayCtrlRow rowOf_cayCtrl (by decide) hw1s, bitOf_start, hscope, if_pos rfl]

/-- An ARM part sends scope arm on its DOWN and PARTNER ports (Table 4-8). -/
theorem cayPorts_arm (s : State) (h : roleOf s = .arm) :
    cayPorts s 0 = some ((List.range 6).filter fun p => dirOf s p == 3 || dirOf s p == 4) := by
  unfold cayPorts
  rw [h]
  rfl

/-- What stands after a Cayenne has gone out. -/
structure CayGone (s t : State) : Prop where
  regs : ∀ a, reg t a = reg s a
  sys : t.sys = s.sys
  flt : t.flt = s.flt
  swg : t.swg = s.swg
  now : now t = now s

theorem cayGone_of_frame {s t : State} (h : { t with ports := s.ports, sent := s.sent, trr := s.trr } = s) : CayGone s t := by
  have hregs := fun a => congrArg (fun v : State => reg v a) h
  have hsys := congrArg (fun v : State => v.sys) h
  have hflt := congrArg (fun v : State => v.flt) h
  have hswg := congrArg (fun v : State => v.swg) h
  have hnow := congrArg (fun v : State => Machine.now v) h
  exact ⟨hregs, hsys, hflt, hswg, hnow⟩

theorem CayGone.quiet {s t : State} (h : CayGone s t) (hq : notInjecting s = true) : notInjecting t = true := notInjecting_of_reg (h.regs _) hq

theorem CayGone.unseen {s t : State} (h : CayGone s t) (hr : rb s (trrR 0x024) 31 = false) : rb t (trrR 0x024) 31 = false := by rw [rb, h.regs]; exact hr

theorem isLive_setReg (s : State) (a : Nat) (v : Word) (p : Nat) (h : SameLinks s (setReg s a v)) : isLive (setReg s a v) p = isLive s p := by
  unfold isLive
  rw [portOf_setReg, h.dir]

/-- What a launch of scope arm at an ARM part shows (R137, R142, R452). -/
def ArmLaunched (s t : State) : Prop :=
  modeOf t = .safe ∧ t.sys.cause.getLsbD 1 = true ∧ rb t (trrR 0x024) 31 = true ∧ rb t (trrR 0x024) 30 = true ∧ rf t (trrR 0x024) 17 16 = 0 ∧
    (∀ p : Port, dirOf s p = 3 → isLive s p = true → ∃ e, Sent.cayenne p 0 0 e ∈ t.sent) ∧
    (∀ p : Port, dirOf s p ≠ 3 → dirOf s p ≠ 4 → ∀ c d e, Sent.cayenne p c d e ∈ t.sent → Sent.cayenne p c d e ∈ s.sent) ∧
    (now s, faultMsg 98 .cayenneRx (trrR 0x024) false) ∈ t.flt.bus ∧ (kget none t.trr.hold 0).isSome = true

/-- A launch of scope arm at an ARM part (R137). -/
theorem cayLaunch_arm (s : State) (hq : notInjecting s = true) (hrole : roleOf s = .arm) (hb : s.sys.barred = false) (hr : rb s (trrR 0x024) 31 = false) :
    ArmLaunched s (cayLaunch s 0) := by
  have hgo : cayLaunch s 0 = cayApply (caySend s ((List.range 6).filter fun p => dirOf s p == 3 || dirOf s p == 4) 0 0 fun p =>
      nowPs s + Config.cayLatency 6 p % 3201) 0 true 0 0 (nowPs s) := by
    unfold cayLaunch
    rw [cayPorts_arm s hrole]
  obtain ⟨⟨w, hleft, hwsent⟩, hhold, hframe⟩ := caySend_sent s ((List.range 6).filter fun p => dirOf s p == 3 || dirOf s p == 4) 0 0 fun p =>
    nowPs s + Config.cayLatency 6 p % 3201
  rw [hgo]
  generalize caySend s ((List.range 6).filter fun p => dirOf s p == 3 || dirOf s p == 4) 0 0 _ = u at hwsent hhold hframe ⊢
  have hgone := cayGone_of_frame hframe
  obtain ⟨hmode, hcause, -, hsent, hholdt, hstat, hbus⟩ := cayApply_shows u 0 true 0 0 (nowPs s) (hgone.unseen hr) (hgone.quiet hq) (by rw [hgone.sys]; exact hb)
  obtain ⟨h31, h30, hsc, -, -⟩ := cayWord_fields 0 true 0 0
  refine ⟨hmode, hcause, by rw [rb, hstat, h31], by rw [rb, hstat, h30], by rw [rf, hstat, hsc]; rfl, fun p hd hl => ?_, fun p h3 h4 c d e hm => ?_,
    by rw [← hgone.now]; exact hbus, by rw [hholdt]; exact hhold⟩
  · rw [hsent, hwsent]
    exact hleft.left p (List.mem_filter.mpr ⟨List.mem_range.mpr p.isLt, by rw [hd]; rfl⟩) hl
  · rw [hsent, hwsent] at hm
    refine hleft.others p (fun hp => ?_) c d e hm
    have hdir := (List.mem_filter.mp hp).2
    simp [h3, h4] at hdir

/-- The write of TRR_CAY_CTRL launches at the state before it but for that register. -/
theorem cayCtrlWrite_launch (s : State) (o : Origin) (val : Word) (hq : notInjecting s = true) (hrole : roleOf s = .arm) (hb : s.sys.barred = false)
    (hr : rb s (trrR 0x024) 31 = false) (h : fld val 9 8 = 0) : ArmLaunched s (cayCtrlWrite s o (setBit val 31 true)) := by
  obtain ⟨v, hgo⟩ := cayCtrlWrite_arm s o val h
  have hlinks := sameLinks_setReg_apart s (a := trrR 0x020) v (by decide) (by intro p; simp only [trrR, trlR]; omega)
  have hlive := fun p => isLive_setReg s (trrR 0x020) v p hlinks
  have hreg := fun a (ha : a ≠ trrR 0x020) => reg_setReg_other s (trrR 0x020) v a ha
  rw [hgo]
  generalize hg : setReg s (trrR 0x020) v = g at hlinks hlive hreg
  have hsys : g.sys = s.sys := by rw [← hg, setReg_sys]
  have hsent : g.sent = s.sent := by rw [← hg, setReg_sent]
  have hnow : now g = now s := by rw [← hg, now_setReg]
  have hrun := cayLaunch_arm g (notInjecting_of_reg (hreg _ (by decide)) hq) (by rw [roleOf, hsys]; exact hrole) (by rw [hsys]; exact hb)
    (by rw [rb, hreg _ (by decide)]; exact hr)
  unfold ArmLaunched at hrun ⊢
  simpa only [hlinks.dir, hlive, hsent, hnow] using hrun

end Sys2Proof.Machine
end

section
/-! SUPPORT. A Cayenne received at a cell, the end of a hold and of a record, and O36 (R138, R139, R140, R142). -/

namespace Sys2Proof.Machine

open Sys2Proof

/-! A receipt at a cell. -/

/-- A hold of scope arm or wider runs (R139). -/
def armHeld (s : State) : Bool := s.trr.hold.any fun e => decide (0 ≤ e.1) && e.2.any (decide <| now s < ·)

theorem mem_of_kget {α : Type} {d v : α} {m : KV α} {k : Nat} (h : kget d m k = v) (hne : v ≠ d) : (k, v) ∈ m := by
  induction m with
  | nil => exact absurd h.symm hne
  | cons x m ih =>
    obtain ⟨k', v'⟩ := x
    rw [kget] at h
    split at h
    next hk => rw [← hk, ← h]; exact List.mem_cons_self
    next => exact List.mem_cons_of_mem _ (ih h)

theorem armHeld_of_running {s : State} {e : Nat} (h : kget none s.trr.hold 0 = some e) (hnow : now s < e) : armHeld s = true :=
  List.any_eq_true.mpr ⟨_, mem_of_kget h (Option.some_ne_none e), by simp [hnow]⟩

theorem armHeld_nil {s : State} (h : s.trr.hold = []) : armHeld s = false := by rw [armHeld, h]; rfl

/-- The ports a cell forwards a Cayenne on that came on port 0. -/
def onward : List Nat := (List.range 6).filter fun p => !([0].contains p)

/-- The copies a cell sends of a Cayenne of scope arm from port 0 (R138, R139). -/
def cayFlood (s : State) (hops at_ : Nat) : State :=
  if armHeld s then s else caySend s onward 0 (Nat.min 63 (hops + 1)) fun p => at_ + Config.cayLatency 0 p % 28001

theorem cayFlood_gone (s : State) (hops at_ : Nat) : CayGone s (cayFlood s hops at_) := by
  unfold cayFlood
  split
  next => exact cayGone_of_frame rfl
  next => exact cayGone_of_frame (caySend_sent s onward 0 _ _).2.2

theorem CayGone.role {s t : State} (h : CayGone s t) : roleOf t = roleOf s := by rw [roleOf, h.sys, roleOf]

theorem cayReceive_cell (s : State) (hops at_ : Nat) (hc : isCell s = true) (hl : isLive s 0 = true) :
    cayReceive s 1 0 hops at_ = cayApply (cayFlood s hops at_) 0 false hops 1 at_ := by
  have hrole : roleOf s = .cell := by simpa [isCell] using hc
  have harr : ((List.range 6).filter fun p => (1 : Nat).testBit p && isLive s p) = [0] := by
    simp [show List.range 6 = [0, 1, 2, 3, 4, 5] from rfl, hl, Nat.testBit]
  have hports : cayPorts s (scopeOf 0) = some (List.range 6) := by unfold cayPorts; rw [hrole]
  have happ : ∀ u, roleOf u = .cell → cayApplies u (scopeOf 0) = true := fun u hu => by unfold cayApplies; rw [hu]
  unfold cayReceive
  dsimp only
  rw [harr, hports]
  exact (if_neg Bool.false_ne_true).trans (if_pos (happ (cayFlood s hops at_) ((cayFlood_gone s hops at_).role.trans hrole)))

/-- HOPS goes up by one to at most 63 (R138). -/
theorem hops_next (h : BitVec 6) : BitVec.ofNat 6 (Nat.min 63 (h.toNat + 1)) = if h = 63 then 63 else h + 1 := by
  revert h; decide

theorem cayFlood_sent (s : State) (h : BitVec 6) (at_ : Nat) (hh : s.trr.hold = []) (p : Port) (hp : p ≠ 0) (hl : isLive s p = true) :
    ∃ e, Sent.cayenne p 0 (if h = 63 then 63 else h + 1) e ∈ (cayFlood s h.toNat at_).sent := by
  unfold cayFlood
  rw [armHeld_nil hh, if_neg Bool.false_ne_true]
  obtain ⟨⟨w, hleft, hsent⟩, -, -⟩ := caySend_sent s onward 0 (Nat.min 63 (h.toNat + 1)) fun p => at_ + Config.cayLatency 0 p % 28001
  have hon : ∀ q : Port, q ≠ 0 → q.val ∈ onward := by decide
  rw [hsent, ← hops_next]
  exact hleft.left p (hon p hp) hl

/-- What a Cayenne of scope arm that came on port 0 shows at a cell (R138, R140, R142). -/
theorem cayReceive_shows (s : State) (h : BitVec 6) (at_ : Nat) (hq : notInjecting s = true) (hc : isCell s = true) (hb : s.sys.barred = false)
    (hlow : TurnOffLow s) (hl : isLive s 0 = true) (hr : rb s (trrR 0x024) 31 = false) :
    let t := cayReceive s 1 0 h.toNat at_
    (modeOf t = .safe ∧ t.swg.gcmd = 0 ∧ rb t (trrR 0x024) 31 = true ∧ rb t (trrR 0x024) 30 = false ∧ rf t (trrR 0x024) 13 8 = h.toNat ∧
      rf t (trrR 0x024) 5 0 = 1 ∧ rb t (sysR 0x20C) 2 = true ∧ t.sys.cause.getLsbD 1 = true ∧ Reports s t 98 .cayenneRx (trrR 0x024)) ∧
      t.sent = (cayFlood s h.toNat at_).sent := by
  have hgone := cayFlood_gone s h.toNat at_
  rw [cayReceive_cell s h.toNat at_ hc hl]
  generalize cayFlood s h.toNat at_ = u at hgone
  have hru := hgone.unseen hr
  have hqu := hgone.quiet hq
  have hbu : u.sys.barred = false := by rw [hgone.sys]; exact hb
  obtain ⟨hmode, hcause, hmask, hsent, -, hstat, -⟩ := cayApply_shows u 0 false h.toNat 1 at_ hru hqu hbu
  obtain ⟨hg, hbus⟩ := cayApply_cell u 0 false h.toNat 1 at_ hru hqu hbu (by rw [isCell, hgone.role]; exact hc) (by rw [TurnOffLow, hgone.swg]; exact hlow)
  obtain ⟨h31, h30, -, hhops, hport⟩ := cayWord_fields 0 false h.toNat 1
  exact ⟨⟨hmode, hg, by rw [rb, hstat, h31], by rw [rb, hstat, h30], by rw [rf, hstat, hhops]; exact Nat.mod_eq_of_lt h.isLt, by rw [rf, hstat, hport],
    hmask, hcause, by rw [Reports, hbus, hgone.flt, hgone.now]⟩, hsent⟩

/-! The end of a hold and of a record. -/

/-- Only holds that still run are kept (R139). -/
theorem mem_running (s : State) (e : Nat × Option Nat) (he : e ∈ s.trr.hold) :
    (∃ d, e.2 = some d ∧ now s < d) ↔ e ∈ s.trr.hold.filter fun e => e.2.any (decide <| now s < ·) := by
  rw [List.mem_filter, Option.any_eq_true]
  simp only [he, true_and, decide_eq_true_eq]

/-- 1 to SEEN clears the record (R142). -/
theorem cayStatWrite_seen (s : State) (val : Word) (hv : bitOf val 31 = true) (hs : ∀ e ∈ s.hwSet, e.1 ≠ trrR 0x024) :
    cayStatWrite s val = setReg (setReg s (trrR 0x024) 0) (trrR 0x028) 0 := by
  have hfree : s.hwSet.any (fun e => e.1 == trrR 0x024) = false := by
    rw [List.any_eq_false]
    exact fun e he h => hs e he (beq_iff_eq.mp h)
  exact if_pos (by rw [hv, hfree]; rfl)

/-- Settles O36: the launch and the receipt go through what `cayApply` shows, over the state in which the copies have left. -/
theorem cayennesAreLaunchedAndFlooded : Obligations.CayennesAreLaunchedAndFlooded := by
  unfold Obligations.CayennesAreLaunchedAndFlooded
  intro o val h s hr hq
  refine ⟨fun hrole hb hf hu _ => answers_live rfl hr (cayCtrlWrite_launch s o val hq hrole hb hu hf), fun at_ hc hb hlow hl hu => answers_live rfl hr ?_,
    answers_live rfl hr ⟨mem_running s, rfl⟩, fun hv hs => answers_live rfl hr ?_⟩
  · obtain ⟨⟨hmode, hg, h31, h30, hhops, hport, hmask, hcause, hrep⟩, hsent⟩ := cayReceive_shows s h at_ hq hc hb hlow hl hu
    refine ⟨hmode, hg, h31, h30, hhops, hport, hmask, hcause, hrep, fun e he hnow => ?_, fun hh p hp hlp => ?_⟩
    · exact hsent.trans (congrArg (fun u : State => u.sent) (if_pos (armHeld_of_running he hnow)))
    · obtain ⟨e, he⟩ := cayFlood_sent s h at_ hh p hp hlp
      exact ⟨e, hsent ▸ he⟩
  · rw [cayStatWrite_seen s val hv hs]
    refine ⟨by rw [reg_setReg_other _ _ _ _ (by decide), reg_setReg_same], reg_setReg_same .., fun a h1 h2 => ?_, rfl⟩
    rw [reg_setReg_other _ _ _ _ h2, reg_setReg_other _ _ _ _ h1]

end Sys2Proof.Machine
end

section
/-! SUPPORT. The selection's arithmetic: the order of R155, the boundary in it, and the split of a quota (R155, R160, R162). -/

namespace Sys2Proof.Machine

open Sys2Proof

/-! The order. -/

theorem orderBin_lt (high : Bool) {n : Nat} (h : n < 32) : orderBin high n < 32 := by
  unfold orderBin
  split <;> omega

/-- Counting from the other end twice is counting from this one. -/
theorem orderBin_twice (high : Bool) {n : Nat} (h : n < 32) : orderBin high (orderBin high n) = n := by
  cases high with
  | false => rfl
  | true => exact Nat.sub_sub_self (by omega)

theorem orderCounts_length (high : Bool) (h : Hist) : (orderCounts high h).length = 65 := by
  simp only [orderCounts, List.length_append, List.length_map, List.length_range, List.length_singleton]

/-- A class counted high to low has the sum it has low to high. -/
theorem sum_orderBin (high : Bool) (f : Nat → Nat) :
    ((List.range 32).map fun n => f (orderBin high n)).sum = ((List.range 32).map f).sum := by
  cases high with
  | false => rfl
  | true =>
    have hrev : (List.range 32).map (orderBin true) = (List.range 32).reverse := by decide
    calc ((List.range 32).map fun n => f (orderBin true n)).sum
        = (((List.range 32).map (orderBin true)).map f).sum := by rw [List.map_map]; rfl
      _ = ((List.range 32).map f).sum := by rw [hrev, List.map_reverse, List.sum_reverse]

/-- The number of cells of classes 0, 1 and 2R, which the selection may take. -/
def availOf (h : Hist) : Nat := (orderCounts false h).sum

/-- It is the same in both orders. -/
theorem sum_orderCounts (high : Bool) (h : Hist) : (orderCounts high h).sum = availOf h := by
  unfold availOf
  simp only [orderCounts, List.sum_append]
  rw [sum_orderBin high (kget 0 h.cnt), sum_orderBin high (fun n => kget 0 h.cnt (32 + n))]
  rfl

/-- The class of a position in the order, as a boundary carries it. -/
def posClass (pos : Nat) : Nat := if pos < 32 then 0 else if pos < 64 then 1 else 2

/-- The bin of a position in the order; 0 for 2R. -/
def posBin (high : Bool) (pos : Nat) : Nat := if pos < 64 then orderBin high (pos % 32) else 0

/-- A position's class and bin stand for that position. -/
theorem orderPos_of_pos (high : Bool) {pos : Nat} (h : pos < 65) : orderPos high (posClass pos) (posBin high pos) = some pos := by
  unfold posClass posBin
  have hbin : orderBin high (orderBin high (pos % 32) % 32) = pos % 32 := by
    rw [Nat.mod_eq_of_lt (orderBin_lt high (by omega)), orderBin_twice high (by omega)]
  by_cases h0 : pos < 32
  · rw [if_pos h0, if_pos (by omega), orderPos, hbin, Nat.mod_eq_of_lt h0]
  · by_cases h1 : pos < 64
    · rw [if_neg h0, if_pos h1, if_pos h1, orderPos, hbin]
      exact congrArg some (by omega)
    · rw [if_neg h0, if_neg h1, if_neg h1, orderPos]
      exact congrArg some (by omega)

/-! The boundary. -/

/-- A number of cells that the counts hold is reached at a boundary: what stands before it and the quota in it are that number. -/
theorem boundary_reaches (cs : List Nat) (base p : Nat) (h0 : 0 < p) (hp : p ≤ cs.sum) :
    ∃ k q, boundary cs base p = some (base + k, q) ∧ k < cs.length ∧ (cs.take k).sum + q = p ∧ 0 < q ∧ q ≤ cs.getD k 0 := by
  induction cs generalizing base p with
  | nil => exact absurd hp (by rw [List.sum_nil]; omega)
  | cons c l ih =>
    by_cases hc : p ≤ c
    · exact ⟨0, p, by rw [boundary, if_pos hc]; rfl, by simp, by simp, h0, hc⟩
    · rw [List.sum_cons] at hp
      obtain ⟨k, q, hb, hk, hsum, hq, hle⟩ := ih (base + 1) (p - c) (by omega) (by omega)
      refine ⟨k + 1, q, ?_, by simpa using hk, ?_, hq, hle⟩
      · rw [boundary, if_neg hc, hb, Nat.add_right_comm, Nat.add_assoc]
      · rw [List.take_succ_cons, List.sum_cons]; omega

/-! The selection. -/

/-- FRAC: a fraction is asked for, and of the cells there are a more than p to serve it (R155). -/
def fracOf (a p : Nat) (f : Bool) : Bool := f && decide (p + 1 ≤ a)

theorem lt_succ_iff_not_fracOf (a p : Nat) : decide (a < p + 1) = !decide (p + 1 ≤ a) := by
  rw [← decide_not, decide_eq_decide, Nat.not_le]

/-- A fraction that cannot be served is dropped (R155). -/
theorem frac_dropped (a p : Nat) (f : Bool) : (f && !(f && decide (a < p + b2n f))) = fracOf a p f := by
  cases f with
  | false => rfl
  | true =>
    show (!decide (a < p + 1)) = decide (p + 1 ≤ a)
    rw [lt_succ_iff_not_fracOf, Bool.not_not]

/-- The cells that are asked for. -/
theorem asked_eq (a p : Nat) (f : Bool) :
    (if (f && decide (a < p + b2n f)) = true then p + b2n f - 1 else p + b2n f) = p + b2n (fracOf a p f) := by
  cases f with
  | false => rfl
  | true =>
    show (if decide (a < p + 1) = true then p + 1 - 1 else p + 1) = p + b2n (decide (p + 1 ≤ a))
    rw [lt_succ_iff_not_fracOf]
    cases decide (p + 1 ≤ a) <;> rfl

/-- SHORT: the fraction has no part in it. -/
theorem short_iff (a p : Nat) (f : Bool) : a < p + b2n (fracOf a p f) ↔ a < p := by
  cases h : fracOf a p f with
  | false => exact Iff.rfl
  | true =>
    rw [fracOf, Bool.and_eq_true, decide_eq_true_eq] at h
    exact ⟨fun hl => absurd hl (Nat.not_lt.mpr h.2), fun hl => Nat.lt_succ_of_lt hl⟩

/-- P: the cells asked for, as far as there are any. -/
theorem taken_eq (a p : Nat) (f : Bool) : (if a < p then a else p + b2n (fracOf a p f)) = Nat.min a (p + b2n (fracOf a p f)) := by
  rw [← if_congr (short_iff a p f) rfl rfl]
  by_cases h : a < p + b2n (fracOf a p f)
  · rw [if_pos h]; exact (Nat.min_eq_left (Nat.le_of_lt h)).symm
  · rw [if_neg h]; exact (Nat.min_eq_right (Nat.not_lt.mp h)).symm

/-- FRAC of a selection (R155). -/
def fracTaken (h : Hist) (n : Int) (f : Nat) : Bool := fracOf (availOf h) (n.natAbs - h.held) (decide (0 < f))

/-- P of a selection (R155). -/
def takenOf (h : Hist) (n : Int) (f : Nat) : Nat := Nat.min (availOf h) (n.natAbs - h.held + b2n (fracTaken h n f))

/-- The quota before its boundary is found. -/
def quotaBase (s : State) (ipos : Bool) (h : Hist) (n : Int) (f : Nat) : Quota :=
  { (default : Quota) with
    plane := armPlane s, cb := 3, dir := ipos == decide (n < 0), neg := decide (n < 0), frac := fracTaken h n f, fduty := f }

/-- The quota with its boundary and what is taken there. -/
def quotaAt (b : Quota) : Option (Nat × Nat) → Quota
  | none => b
  | some (pos, q) => { b with cb := posClass pos, bin := posBin b.dir pos, q := q }

/-- The boundary, none where nothing is taken. -/
def boundaryOf (cs : List Nat) (p : Nat) : Option (Nat × Nat) := if p = 0 then none else boundary cs 0 p

/-- The selection in terms of P, FRAC and the boundary (R155). -/
theorem selectQuota_eq (s : State) (h : Hist) (ipos : Bool) (n : Int) (f : Nat) :
    let b := quotaBase s ipos h n f
    selectQuota s h ipos n f = (quotaAt b (boundaryOf (orderCounts b.dir h) (takenOf h n f)), decide (availOf h < n.natAbs - h.held), decide (n.natAbs < h.held)) := by
  have hfold : (orderCounts false h).foldl (· + ·) 0 = availOf h := List.sum_eq_foldl.symm
  have hdir : (!(ipos != decide (n < 0))) = (ipos == decide (n < 0)) := Bool.not_not _
  unfold selectQuota
  simp only [hdir, hfold, frac_dropped, asked_eq, decide_eq_true_eq, short_iff, taken_eq, boundaryOf, takenOf, fracTaken, quotaBase]
  by_cases hp : Nat.min (availOf h) (n.natAbs - h.held + b2n (fracOf (availOf h) (n.natAbs - h.held) (decide (0 < f)))) = 0
  · simp only [hp, if_true]
    rfl
  · simp only [hp, if_false]
    rcases boundary _ 0 _ with _ | ⟨pos, q⟩ <;> rfl

/-- P cells to take, of which there are enough, end in a boundary: what stands before it and Q are exactly P (R155). -/
theorem boundaryOf_exact (h : Hist) (high : Bool) (p : Nat) (hp : 0 < p) (hle : p ≤ availOf h) :
    ∃ pos q, boundaryOf (orderCounts high h) p = some (pos, q) ∧ pos < 65 ∧ ((orderCounts high h).take pos).sum + q = p ∧ 0 < q ∧
      q ≤ (orderCounts high h).getD pos 0 := by
  obtain ⟨k, q, hb, hk, hsum, hq, hc⟩ := boundary_reaches (orderCounts high h) 0 p hp (by rwa [sum_orderCounts])
  refine ⟨k, q, ?_, by rwa [orderCounts_length] at hk, hsum, hq, hc⟩
  rw [boundaryOf, if_neg (by omega), hb, Nat.zero_add]

theorem takenOf_eq (h : Hist) (n : Int) (f : Nat) :
    takenOf h n f = Nat.min (availOf h) (if fracTaken h n f = true then n.natAbs - h.held + 1 else n.natAbs - h.held) := by
  unfold takenOf b2n
  cases fracTaken h n f <;> rfl

/-- The cells before the boundary and Q are exactly P; with P = 0 there is no boundary (R155). -/
theorem quotaAt_exact (h : Hist) (b : Quota) (n : Int) (f : Nat) (hcb : b.cb = 3) :
    let q := quotaAt b (boundaryOf (orderCounts b.dir h) (takenOf h n f))
    (takenOf h n f = 0 → q.cb = 3) ∧ (0 < takenOf h n f → ∃ pos, orderPos b.dir q.cb q.bin = some pos ∧
      ((orderCounts b.dir h).take pos).sum + q.q = takenOf h n f ∧ 0 < q.q ∧ q.q ≤ (orderCounts b.dir h).getD pos 0) := by
  refine ⟨fun h0 => by rw [boundaryOf, if_pos h0]; exact hcb, fun hp => ?_⟩
  obtain ⟨pos, q, hb, hpos, hsum, hq, hc⟩ := boundaryOf_exact h b.dir (takenOf h n f) hp (Nat.min_le_left _ _)
  rw [hb]
  exact ⟨pos, orderPos_of_pos b.dir hpos, hsum, hq, hc⟩

/-- A quota keeps its other fields where its boundary is found. -/
theorem quotaAt_keeps (b : Quota) (e : Option (Nat × Nat)) :
    ((quotaAt b e).dir, (quotaAt b e).neg, (quotaAt b e).plane, (quotaAt b e).frac) = (b.dir, b.neg, b.plane, b.frac) := by
  cases e <;> rfl

/-! The split of a quota. -/

theorem splitQ_names (l : List (Nat × Nat)) (q : Nat) (fr : Bool) : (splitQ l q fr).map (·.1) = l.map (·.1) := by
  induction l generalizing q with
  | nil => rfl
  | cons e l ih => rw [splitQ, List.map_cons, List.map_cons, ih]

/-- The shares are the whole quota, or every count where the quota is larger. -/
theorem splitQ_sum (l : List (Nat × Nat)) (q : Nat) (fr : Bool) : ((splitQ l q fr).map (·.2.1)).sum = Nat.min q (l.map (·.2)).sum := by
  induction l generalizing q with
  | nil => exact (Nat.min_zero q).symm
  | cons e l ih =>
    rw [splitQ, List.map_cons, List.sum_cons, ih, List.map_cons, List.sum_cons]
    simp only [Nat.min_def]
    split <;> split <;> split <;> omega

/-- No participant's share exceeds its count. -/
theorem splitQ_le (l : List (Nat × Nat)) (q : Nat) (fr : Bool) : ∀ x ∈ List.zip l (splitQ l q fr), x.2.2.1 ≤ x.1.2 := by
  induction l generalizing q with
  | nil => intro x hx; exact absurd hx (List.not_mem_nil)
  | cons e l ih =>
    intro x hx
    rw [splitQ, List.zip_cons_cons, List.mem_cons] at hx
    rcases hx with rfl | hx
    · exact Nat.min_le_right _ _
    · exact ih _ x hx

/-- With nothing left to hand out no share carries FRAC. -/
theorem splitQ_zero_frac (l : List (Nat × Nat)) (fr : Bool) : (splitQ l 0 fr).filter (·.2.2) = [] := by
  induction l with
  | nil => rfl
  | cons e l ih =>
    have h0 : Nat.min 0 e.2 = 0 := Nat.zero_min _
    rw [splitQ, h0, List.filter_cons, ih]
    simp

/-- The FRAC of one participant: its share is not 0 and takes the rest of the quota. -/
theorem share_frac (q c : Nat) (fr : Bool) : (fr && decide (0 < Nat.min q c) && Nat.min q c == q) = (fr && decide (0 < q ∧ q ≤ c)) := by
  cases fr with
  | false => rfl
  | true =>
    rw [Bool.true_and, Bool.true_and, Bool.eq_iff_iff, Bool.and_eq_true, decide_eq_true_eq, decide_eq_true_eq, beq_iff_eq]
    simp only [Nat.min_def]
    split <;> omega

/-- One share carries FRAC where the counts reach the quota, and none otherwise (R162). -/
theorem splitQ_frac (l : List (Nat × Nat)) (q : Nat) (fr : Bool) :
    ((splitQ l q fr).filter (·.2.2)).length = if fr = true ∧ 0 < q ∧ q ≤ (l.map (·.2)).sum then 1 else 0 := by
  induction l generalizing q with
  | nil => rw [if_neg (by rw [List.map_nil, List.sum_nil]; omega)]; rfl
  | cons e l ih =>
    rw [splitQ, share_frac, List.filter_cons, List.map_cons, List.sum_cons]
    by_cases h : 0 < q ∧ q ≤ e.2
    · have hrest : q - Nat.min q e.2 = 0 := by rw [show Nat.min q e.2 = q from Nat.min_eq_left h.2, Nat.sub_self]
      have hall : q ≤ e.2 + (l.map (·.2)).sum := Nat.le_add_right_of_le h.2
      rw [hrest, splitQ_zero_frac]
      cases fr <;> simp [h, hall]
    · have hrest : (0 < q - Nat.min q e.2 ∧ q - Nat.min q e.2 ≤ (l.map (·.2)).sum) ↔ (0 < q ∧ q ≤ e.2 + (l.map (·.2)).sum) := by
        simp only [Nat.min_def]
        split <;> omega
      rw [decide_eq_false h, Bool.and_false, if_neg (by simp), ih]
      exact if_congr (and_congr_right' hrest) rfl rfl

/-- A share that carries FRAC takes the last of the quota. -/
theorem splitQ_ends (l : List (Nat × Nat)) (q : Nat) (fr : Bool) (i g : Nat) (l' : List (Nat × Nat × Bool))
    (h : splitQ l q fr = l' ++ [(i, g, true)]) : (l'.map (·.2.1)).sum + g = q := by
  induction l generalizing q l' with
  | nil => exact absurd h (by simp [splitQ])
  | cons e l ih =>
    rw [splitQ] at h
    cases l' with
    | nil =>
      rw [List.nil_append, List.cons.injEq, Prod.mk.injEq, Prod.mk.injEq, Bool.and_eq_true, beq_iff_eq] at h
      obtain ⟨⟨-, hg, -, hq⟩, -⟩ := h
      rw [List.map_nil, List.sum_nil, Nat.zero_add, ← hg, hq]
    | cons x l' =>
      rw [List.cons_append, List.cons.injEq] at h
      obtain ⟨rfl, hr⟩ := h
      have hle : Nat.min q e.2 ≤ q := Nat.min_le_left _ _
      rw [List.map_cons, List.sum_cons, Nat.add_assoc, ih _ _ hr]
      exact Nat.add_sub_cancel' hle

/-- Settles O39: the selection through its boundary, the split by induction on the participants. -/
theorem selectionAndSplitAreExact : Obligations.SelectionAndSplitAreExact := by
  unfold Obligations.SelectionAndSplitAreExact
  refine ⟨fun s h ipos n f => ?_, fun l q fr =>
    ⟨splitQ_names l q fr, splitQ_sum l q fr, splitQ_le l q fr, splitQ_frac l q fr, fun i g l' hr => splitQ_ends l q fr i g l' hr⟩⟩
  have hkeep := quotaAt_keeps (quotaBase s ipos h n f) (boundaryOf (orderCounts (quotaBase s ipos h n f).dir h) (takenOf h n f))
  have hexact := quotaAt_exact h (quotaBase s ipos h n f) n f rfl
  simp only [Prod.mk.injEq] at hkeep
  obtain ⟨hdir, hneg, hplane, hfrac⟩ := hkeep
  simp only [selectQuota_eq, hdir, hneg, hplane, hfrac, sum_orderCounts]
  have htaken : Nat.min (availOf h) (if (quotaBase s ipos h n f).frac = true then n.natAbs - h.held + 1 else n.natAbs - h.held) = takenOf h n f :=
    (takenOf_eq h n f).symm
  rw [htaken]
  exact ⟨rfl, (Bool.decide_and ..).symm, trivial, trivial, hexact⟩

end Sys2Proof.Machine
end

section
/-! SUPPORT. What the Riddle's work leaves as it was: its registers, flags, reports and the packets that it sends on one hop (R150). -/

namespace Sys2Proof.Machine

open Sys2Proof

/-! Registers of the Riddle, its own state and its reports. -/

/-- An address of the Riddle's registers. -/
def IsRdl (a : Nat) : Prop := rdlR 0 ≤ a ∧ a < rdlR 0x10000

theorem isRdl_rdlR {o : Nat} (h : o < 0x10000) : IsRdl (rdlR o) := ⟨by simp only [rdlR]; omega, by simp only [rdlR]; omega⟩

theorem rdlR_ne {a b : Nat} (h : a ≠ b) : rdlR a ≠ rdlR b := fun e => h (Nat.add_left_cancel e)

/-- The parts of the state that the Riddle reads and its registers, flags and reports do not touch. -/
def outerPart (s : State) := (s.lt, s.sys, s.tmk, s.trr, s.swg, s.sup, s.mem, s.ports)

/-- From s to t the Riddle's registers and its own state may change, messages may have been put on the fault bus, and event flags of cores set. -/
structure RiddleOnly (s t : State) : Prop where
  part : outerPart t = outerPart s
  regs : ∀ a, ¬ IsRdl a → reg t a = reg s a
  bus : s.flt.bus ⊆ t.flt.bus

theorem RiddleOnly.refl (s : State) : RiddleOnly s s := ⟨rfl, fun _ _ => rfl, List.Subset.refl _⟩

theorem RiddleOnly.trans {s t u : State} (a : RiddleOnly s t) (b : RiddleOnly t u) : RiddleOnly s u :=
  ⟨b.part.trans a.part, fun x hx => (b.regs x hx).trans (a.regs x hx), List.Subset.trans a.bus b.bus⟩

theorem RiddleOnly.ite {s t u : State} {c : Prop} [Decidable c] (a : RiddleOnly s t) (b : RiddleOnly s u) : RiddleOnly s (if c then t else u) := by
  split
  · exact a
  · exact b

theorem riddleOnly_setReg (s : State) (o : Nat) (v : Word) (h : o < 0x10000) : RiddleOnly s (setReg s (rdlR o) v) :=
  ⟨rfl, fun x hx => reg_setReg_other s _ v x fun e => hx (e ▸ isRdl_rdlR h), List.Subset.refl _⟩

theorem riddleOnly_modRdl (s : State) (f : Rdl → Rdl) : RiddleOnly s (modRdl s f) := ⟨rfl, fun _ _ => rfl, List.Subset.refl _⟩

theorem riddleOnly_flag (s : State) (o m : Nat) (h : o < 0x10000) : RiddleOnly s (flag s (rdlR o) m) :=
  ⟨rfl, fun x hx => reg_flag_other s _ m x fun e => hx (e ▸ isRdl_rdlR h), List.Subset.refl _⟩

theorem riddleOnly_raiseEvAll (s : State) (m : Nat) : RiddleOnly s (raiseEvAll s m) := by
  obtain ⟨l, e⟩ := raiseEvAll_cores s m
  rw [e]
  exact ⟨rfl, fun _ _ => rfl, List.Subset.refl _⟩

theorem riddleOnly_report (s : State) (src : Nat) (k : Kind) (a : Nat) (h : notInjecting s = true) : RiddleOnly s (report s src k a) := by
  rw [report_quiet s src k a h]
  exact ⟨rfl, fun _ _ => rfl, List.subset_append_left ..⟩

/-- A report is on the bus. -/
theorem report_on_bus (s : State) (src : Nat) (k : Kind) (a : Nat) (h : notInjecting s = true) :
    (now s, faultMsg src k a false) ∈ (report s src k a).flt.bus := by
  rw [report_quiet s src k a h]
  exact List.mem_append_right _ (List.mem_singleton_self _)

namespace RiddleOnly

variable {s t : State} (h : RiddleOnly s t)

include h

theorem parts : t.lt = s.lt ∧ t.sys = s.sys ∧ t.tmk = s.tmk ∧ t.trr = s.trr ∧ t.swg = s.swg ∧ t.sup = s.sup ∧ t.mem = s.mem ∧ t.ports = s.ports := by
  simpa only [outerPart, Prod.mk.injEq] using h.part

theorem lt : t.lt = s.lt := h.parts.1
theorem sys : t.sys = s.sys := h.parts.2.1
theorem tmk : t.tmk = s.tmk := h.parts.2.2.1
theorem trr : t.trr = s.trr := h.parts.2.2.2.1
theorem swg : t.swg = s.swg := h.parts.2.2.2.2.1
theorem mem : t.mem = s.mem := h.parts.2.2.2.2.2.2.1
theorem ports : t.ports = s.ports := h.parts.2.2.2.2.2.2.2

theorem now : now t = now s := congrArg BitVec.toNat h.lt
theorem role : roleOf t = roleOf s := by rw [roleOf, roleOf, h.sys]
theorem cell : isCell t = isCell s := by rw [Machine.isCell, Machine.isCell, h.role]
theorem running : running t = running s := by rw [Machine.running, Machine.running, modeOf, modeOf, h.sys]
theorem portOf (p : Nat) : portOf t p = portOf s p := by rw [Machine.portOf, Machine.portOf, h.ports]
theorem tt8 : tt8 t = tt8 s := by rw [Machine.tt8, Machine.tt8, h.tmk]
theorem nodeId : nodeId t = nodeId s := by rw [Machine.nodeId, Machine.nodeId, h.trr]

theorem quiet (hq : notInjecting s = true) : notInjecting t = true :=
  notInjecting_of_reg (h.regs _ (by simp only [IsRdl, rdlR, fltR]; omega)) hq

theorem armPlane : armPlane t = armPlane s := by
  rw [Machine.armPlane, Machine.armPlane, rb, rb, h.regs _ (by simp only [IsRdl, rdlR, sysR]; omega)]

theorem dir {p : Nat} (hp : p < 6) : dirOf t p = dirOf s p := by
  have hf : reg t (fltR 0x090) = reg s (fltR 0x090) := h.regs _ (by simp only [IsRdl, rdlR, fltR]; omega)
  have ht : rf t (trlR (0x100 + 0x40 * p)) 2 0 = rf s (trlR (0x100 + 0x40 * p)) 2 0 := by
    rw [rf, rf, h.regs _ (by simp only [IsRdl, rdlR, trlR]; omega)]
  unfold dirOf
  rw [hf, ht]

theorem active {p : Nat} (hp : p < 6) : isActive t p = isActive s p := by
  rw [Machine.isActive, Machine.isActive, h.dir hp, h.portOf]

theorem ports_of (d : Nat) : portsOf t d = portsOf s d :=
  List.filter_congr fun p hp => by rw [h.dir (List.mem_range.mp hp)]

theorem downs : downPorts t = downPorts s := h.ports_of 3

theorem partner : partnerPort t = partnerPort s := congrArg List.head? (h.ports_of 4)

theorem hopPacket (typ seq : Nat) (ws : List Word) : hopPacket t typ seq ws = hopPacket s typ seq ws := by
  rw [Machine.hopPacket, Machine.hopPacket, ownPacket, ownPacket, h.nodeId]

end RiddleOnly

theorem mem_portsOf {s : State} {d p : Nat} : p ∈ portsOf s d ↔ p < 6 ∧ dirOf s p = d := by
  rw [portsOf, List.mem_filter, List.mem_range, beq_iff_eq]

/-- A DOWN port is one of the six. -/
theorem downPorts_lt {s : State} {p : Nat} (h : p ∈ downPorts s) : p < 6 := (mem_portsOf.mp h).1

/-! Packets of one hop. -/

/-- A C1 packet waits behind those of its port. -/
theorem portOf_enqueue_c1 (s : State) (p q : Nat) (k : Packet) (d : Bool) (h : k.cls = 1) :
    portOf (enqueue s p k d) q = if q = p then { portOf s p with q1 := (portOf s p).q1 ++ [k] } else portOf s q := by
  rw [enqueue, portOf_modPort, h]
  rfl

theorem queued_enqueue_c1 (s : State) (p : Nat) (k : Packet) (d : Bool) (h : k.cls = 1) : Queued s (enqueue s p k d) p k := by
  unfold Queued
  simp only [portOf_enqueue_c1 s p p k d h, h, if_true]

/-- A state with other packets on its ports, other counts of subtrees and other bins for the next tick. -/
def withSends (s : State) (l : KV PortSt) (c : KV Nat) (b : Option Bins) : State := { s with ports := l, rdl := { s.rdl with heldCnt := c, binsNew := b } }

/-- From s to t packets may have been put on ports, counts of subtrees stored, and the bins of the next tick set. -/
structure SendsOnly (s t : State) : Prop where
  frame : ∃ l c b, t = withSends s l c b
  stage : ∀ p, (portOf t p).stage = (portOf s p).stage

theorem SendsOnly.refl (s : State) : SendsOnly s s := ⟨⟨s.ports, s.rdl.heldCnt, s.rdl.binsNew, rfl⟩, fun _ => rfl⟩

theorem SendsOnly.trans {s t u : State} (a : SendsOnly s t) (b : SendsOnly t u) : SendsOnly s u := by
  obtain ⟨l, c, bn, rfl⟩ := a.frame
  obtain ⟨l', c', bn', rfl⟩ := b.frame
  exact ⟨⟨l', c', bn', rfl⟩, fun p => (b.stage p).trans (a.stage p)⟩

theorem SendsOnly.reg {s t : State} (h : SendsOnly s t) (a : Nat) : reg t a = reg s a := by
  obtain ⟨l, c, b, rfl⟩ := h.frame
  rfl

theorem SendsOnly.links {s t : State} (h : SendsOnly s t) : SameLinks s t :=
  ⟨dirOf_of_role_bits (h.reg _) fun p => by rw [rf, rf, h.reg], h.stage⟩

theorem SendsOnly.foldl {α : Type} {f : State → α → State} (h : ∀ s a, SendsOnly s (f s a)) (l : List α) (s : State) : SendsOnly s (l.foldl f s) := by
  induction l generalizing s with
  | nil => exact SendsOnly.refl s
  | cons a l ih => exact (h s a).trans (ih _)

theorem sendsOnly_enqueue (s : State) (p : Nat) (k : Packet) (d : Bool) : SendsOnly s (enqueue s p k d) :=
  ⟨⟨_, s.rdl.heldCnt, s.rdl.binsNew, rfl⟩, stage_enqueue s p k d⟩

theorem sendsOnly_count (s : State) (k v : Nat) : SendsOnly s (modRdl s fun r => { r with heldCnt := kput 0 r.heldCnt k v }) :=
  ⟨⟨s.ports, _, s.rdl.binsNew, rfl⟩, fun _ => rfl⟩

theorem sendsOnly_descSend (s : State) (p : Nat) (q : Quota) : SendsOnly s (descSend s p q) := by
  unfold descSend
  split
  · exact sendsOnly_enqueue ..
  · exact SendsOnly.refl s

theorem sendsOnly_holdSend (s : State) (q : Quota) : SendsOnly s (holdSend s q) := SendsOnly.foldl (fun _ _ => sendsOnly_descSend ..) _ s

theorem sendsOnly_splitSend (s : State) (q : Quota) : SendsOnly s (splitSend s q).1 := by
  refine SendsOnly.trans (SendsOnly.foldl (fun u e => ?_) _ s) (sendsOnly_holdSend _ q)
  dsimp only
  split
  · exact SendsOnly.refl u
  · exact (sendsOnly_descSend u e.1 _).trans (sendsOnly_count ..)

theorem sendsOnly_mirrorSend (s : State) (k : Packet) : SendsOnly s (mirrorSend s k) := by
  unfold mirrorSend
  split
  · split
    · exact sendsOnly_enqueue ..
    · exact SendsOnly.refl s
  · exact SendsOnly.refl s

/-- A packet goes out on those of some ports that are ACTIVE. -/
def sendOn (l : List Nat) (s : State) (k : Packet) : State := l.foldl (fun s p => if isActive s p then enqueue s p k false else s) s

theorem sendsOnly_sendOn (l : List Nat) (s : State) (k : Packet) : SendsOnly s (sendOn l s k) :=
  SendsOnly.foldl (fun u p => by
    split
    · exact sendsOnly_enqueue ..
    · exact SendsOnly.refl u) l s

/-- On one port that is ACTIVE it waits there. -/
theorem sendOn_single (s : State) (p : Nat) (k : Packet) (h : isActive s p = true) : sendOn [p] s k = enqueue s p k false := if_pos h

end Sys2Proof.Machine
end

section
/-! SUPPORT. The Rake: what a node keeps of it, how a plane is merged, held and sent, and the histogram at an ARM part (R149 to R152, R166 to R170). -/

namespace Sys2Proof.Machine

open Sys2Proof

/-! Inputs. -/

/-- A whole RAKE of this tick is taken on an ACTIVE DOWN port while the plane's output has not begun (R150, R151). -/
def RakeMine (s : State) (p : Nat) (k : Packet) : Prop :=
  k.typ = 0x10 ∧ packetOk k = true ∧ dirOf s p = 3 ∧ isActive s p = true ∧ k.seq.toNat = tt8 s ∧ rakeSent s (bitOf (k.payload.getD 0 0) 31) = false

/-- An input is kept for its plane and port. -/
def rakeKept (x : Nat) (h : Hist) (r : Rdl) : Rdl := { r with inp := kput none r.inp x (some h) }

theorem rakeKept_inp (x : Nat) (h : Hist) (r : Rdl) : (rakeKept x h r).inp = kput none r.inp x (some h) := rfl

theorem rakeIn_good {s : State} {p : Nat} {k : Packet} (h : RakeMine s p k) :
    hopIn s 0x10 k (fun s => rakeIn s p k .good) = modRdl s (rakeKept (ppKey (bitOf (k.payload.getD 0 0) 31) p) (histOf k.payload)) := by
  obtain ⟨ht, hk, hd, ha, hseq, hs⟩ := h
  rw [hopIn_takes s 0x10 k _ (by rw [ht]; rfl) hk, rakeIn]
  exact if_pos ⟨hd, ha, hseq, hs⟩

theorem rakeIn_bad {s : State} {p : Nat} {k : Packet} (h : RakeMine s p k) {arr : Arrival} (ha : arr ≠ .good) :
    hopIn s 0x10 k (fun s => rakeIn s p k arr) = modRdl s fun r => { r with bad := r.bad ++ [ppKey (bitOf (k.payload.getD 0 0) 31) p] } := by
  obtain ⟨ht, hk, hd, hact, hseq, hs⟩ := h
  rw [hopIn_takes s 0x10 k _ (by rw [ht]; rfl) hk, rakeIn]
  simp only [ha, if_false]
  exact if_pos ⟨hd, hact, hseq, hs⟩

theorem rakeIn_other {s : State} {p : Nat} {k : Packet} (h : ¬ RakeMine s p k) (arr : Arrival) : hopIn s 0x10 k (fun s => rakeIn s p k arr) = s := by
  unfold hopIn
  split
  next hin =>
    rw [Bool.and_eq_true, beq_iff_eq] at hin
    obtain ⟨ht, hk⟩ := hin
    exact if_neg fun hc => h ⟨BitVec.eq_of_toNat_eq ht, hk, hc⟩
  next => rfl

/-! Which inputs are missing, and what stands for them. -/

/-- The inputs a node expects for a plane and has not got. -/
def rakeMissing (s : State) (b : Bool) : List Nat := (rakeExpected s b).filter fun q => (kget none s.rdl.inp (ppKey b q)).isNone

/-- The inputs it has got. -/
def rakeGot (s : State) (b : Bool) : List Hist := (downPorts s).filterMap fun q => kget none s.rdl.inp (ppKey b q)

/-- It still waits for a missing input: one has not begun, and RAKE_WAIT has not come (R151). -/
def rakeWaits (s : State) (b : Bool) : Bool :=
  (rakeMissing s b).any (fun p => !s.rdl.bad.contains (ppKey b p)) && decide (phaseOf s < rf s (rdlR 0x028) 14 0)

/-- What a held port counts as: its stored count, 0 after HOLD_LIMIT ticks without delivery (R152, R167). -/
def heldFor (s : State) (b : Bool) (p : Nat) : Nat := if holdLimit s ≤ kget 0 s.rdl.quiet (ppKey b p) then 0 else kget 0 s.rdl.heldCnt (ppKey b p)

/-- The merged histogram of a plane: the node's own report with what it holds, and the inputs it has got. -/
def rakeMerged (s : State) (b : Bool) : Hist :=
  (rakeGot s b).foldl histAdd { (if isCell s then ownHist s else default) with held := ((rakeMissing s b).map (heldFor s b)).foldl (· + ·) 0 }

/-- A count of ticks up to 255. -/
def tickCount (n : Nat) : Nat := Nat.min 255 (n + 1)

/-- A port's count at a plane's output: one more where f says so, else 0. -/
def nextCount (f : Nat → Bool) (p n : Nat) : Nat := if f p then tickCount n else 0

/-- The counts of a plane's ports after its output: one more where f says so, else 0. -/
def portCounts (b : Bool) (f : Nat → Bool) (m : KV Nat) : KV Nat :=
  (List.range 6).foldl (fun m p => if f p then kmod 0 m (ppKey b p) tickCount else kput 0 m (ppKey b p) 0) m

/-- The record of a plane's output: what is held, for how long, and that it has been sent (R166, R167). -/
def rakeMark (s : State) (b : Bool) (r : Rdl) : Rdl :=
  { r with heldNow := r.heldNow ++ (rakeMissing s b).map (ppKey b)
           heldRun := portCounts b (fun p => (rakeMissing s b).contains p) r.heldRun
           quiet := portCounts b (fun p => (kget none r.inp (ppKey b p)).isNone) r.quiet
           sentA := r.sentA || !b, sentB := r.sentB || b }

/-- The state with that record; a held port is flagged. -/
def rakeMarked (s : State) (b : Bool) : State :=
  let t := modRdl s (rakeMark s b)
  if (rakeMissing s b).isEmpty then t else flag t rdlStat 0x20

/-- A held port has been held for HOLD_LIMIT ticks (R166). -/
def rakeLost (s : State) (b : Bool) : Bool := (rakeMissing s b).any fun p => kget 0 s.rdl.heldRun (ppKey b p) + 1 == holdLimit s

/-- The reports of an ARM part for its held ports (R166). -/
def rakeTold (s : State) (b : Bool) : State :=
  let t := rakeMarked s b
  let t := if (rakeMissing s b).isEmpty then t else report t 128 .rakeHold rdlStat
  if rakeLost s b then report (flag t rdlStat 0x40) 128 .rakeLost rdlStat else t

theorem riddleOnly_rakeMarked (s : State) (b : Bool) : RiddleOnly s (rakeMarked s b) :=
  (riddleOnly_modRdl s _).trans (RiddleOnly.ite (RiddleOnly.refl _) (riddleOnly_flag _ 0x004 _ (by decide)))

theorem rakeStart_keeps (s : State) (b : Bool) (h : rakeSent s b = true ∨ rakeWaits s b = true) : rakeStart s b = s :=
  if_pos (by rw [Bool.or_eq_true]; exact h)

/-- An output that starts: a cell sends the merged plane on, an ARM part takes it (R149, R151). -/
theorem rakeStart_starts (s : State) (b : Bool) (hs : rakeSent s b = false) (hw : rakeWaits s b = false) :
    rakeStart s b =
      if isCell (rakeMarked s b) then
        match rakePort (rakeMarked s b) b with
        | some p => enqueue (rakeMarked s b) p (hopPacket (rakeMarked s b) 0x10 (tt8 (rakeMarked s b)) (histWords b (rakeMerged s b))) false
        | none => rakeMarked s b
      else histDone (rakeTold s b) (rakeMerged s b) :=
  if_neg (Bool.not_eq_true _ ▸ Bool.or_eq_false_iff.mpr ⟨hs, hw⟩)

/-! The counts of held ports. -/

theorem ppKey_inj {b : Bool} {p q : Nat} (h : ppKey b p = ppKey b q) : p = q := Nat.add_left_cancel h

theorem kget_foldl_kput (b : Bool) (g : Nat → Nat → Nat) (l : List Nat) (hl : l.Nodup) (m : KV Nat) (d : Nat) :
    kget 0 (l.foldl (fun m p => kput 0 m (ppKey b p) (g p (kget 0 m (ppKey b p)))) m) (ppKey b d) =
      if d ∈ l then g d (kget 0 m (ppKey b d)) else kget 0 m (ppKey b d) := by
  induction l generalizing m with
  | nil => rfl
  | cons p l ih =>
    obtain ⟨hp, hn⟩ := List.nodup_cons.mp hl
    rw [List.foldl_cons, ih hn, kget_kput]
    by_cases he : d = p
    · rw [he, if_neg hp, if_pos rfl, if_pos List.mem_cons_self]
    · rw [if_neg fun h => he (ppKey_inj h)]
      exact if_congr (by rw [List.mem_cons, or_iff_right he]) rfl rfl

/-- A port's count after the plane's output. -/
theorem kget_portCounts (b : Bool) (f : Nat → Bool) (m : KV Nat) {d : Nat} (hd : d < 6) :
    kget 0 (portCounts b f m) (ppKey b d) = if f d = true then tickCount (kget 0 m (ppKey b d)) else 0 := by
  have he : portCounts b f m = (List.range 6).foldl (fun m p => kput 0 m (ppKey b p) (nextCount f p (kget 0 m (ppKey b p)))) m := by
    unfold portCounts
    refine List.foldl_ext _ _ m fun m p _ => ?_
    unfold nextCount kmod
    cases f p <;> rfl
  rw [he, kget_foldl_kput b (nextCount f) _ List.nodup_range, if_pos (List.mem_range.mpr hd), nextCount]

theorem rakeMissing_lt {s : State} {b : Bool} {d : Nat} (h : d ∈ rakeMissing s b) : d < 6 :=
  downPorts_lt (List.mem_of_mem_filter (List.mem_of_mem_filter h))

theorem rakeMarked_rdl (s : State) (b : Bool) : (rakeMarked s b).rdl = rakeMark s b s.rdl := by
  unfold rakeMarked
  split <;> rfl

/-- A held port is recorded with one tick more (R166). -/
theorem rakeMark_held (s : State) (b : Bool) {d : Nat} (h : d ∈ rakeMissing s b) (r : Rdl) :
    kget 0 (rakeMark s b r).heldRun (ppKey b d) = Nat.min 255 (kget 0 r.heldRun (ppKey b d) + 1) ∧ ppKey b d ∈ (rakeMark s b r).heldNow := by
  refine ⟨?_, List.mem_append_right _ (List.mem_map_of_mem h)⟩
  show kget 0 (portCounts b (fun p => (rakeMissing s b).contains p) r.heldRun) (ppKey b d) = _
  rw [kget_portCounts b _ _ (rakeMissing_lt h), if_pos (List.elem_eq_true_of_mem h), tickCount]

theorem rakeMark_sent (s : State) (b : Bool) : (rakeSent (rakeMarked s b) b, rakeSent (rakeMarked s b) !b) = (true, rakeSent s !b) := by
  unfold rakeSent
  rw [rakeMarked_rdl]
  cases b <;> simp [rakeMark]

/-! The output of a cell. -/

theorem RiddleOnly.rakePort {s t : State} (h : RiddleOnly s t) (b : Bool) : rakePort t b = rakePort s b := by
  have h0 := h.active (p := 0) (by decide)
  have h1 := h.active (p := 1) (by decide)
  have d0 := h.dir (p := 0) (by decide)
  have d1 := h.dir (p := 1) (by decide)
  unfold Machine.rakePort
  cases b <;> simp only [Bool.false_eq_true, if_false, if_true, List.find?_cons, List.find?_nil, h0, h1, d0, d1]

/-- A cell's output waits on its port behind what was there (R149). -/
theorem rakeStart_cell (s : State) (b : Bool) (q : Nat) (hc : isCell s = true) (hs : rakeSent s b = false) (hw : rakeWaits s b = false)
    (hq : rakePort s b = some q) :
    rakeStart s b = enqueue (rakeMarked s b) q (hopPacket s 0x10 (tt8 s) (histWords b (rakeMerged s b))) false := by
  have hm := riddleOnly_rakeMarked s b
  rw [rakeStart_starts s b hs hw, hm.cell, if_pos hc, hm.rakePort, hq, hm.tt8, hm.hopPacket]

theorem frame_enqueue_modRdl (s : State) (f : Rdl → Rdl) (p : Nat) (k : Packet) (d : Bool) :
    { enqueue (modRdl s f) p k d with ports := s.ports, rdl := s.rdl } = s := rfl

/-- With plane A on another port, or for plane A itself, a cell's output is that of the plane alone (R149). -/
theorem rakeOutput_cell (s : State) (b : Bool) (hc : isCell s = true) (hb : b = true → rakePort s true ≠ rakePort s false) :
    rakeOutput s b = rakeStart s b := by
  rw [rakeOutput, if_pos hc, if_neg]
  rw [Bool.and_eq_true, beq_iff_eq]
  rintro ⟨rfl, he⟩
  exact hb rfl he

/-- A cell's own report holds nothing. -/
theorem ownHist_held (s : State) : { ownHist s with held := 0 } = ownHist s := by
  unfold ownHist
  split <;> rfl

theorem rakeMerged_cell (s : State) (b : Bool) (hc : isCell s = true) (hm : rakeMissing s b = []) :
    rakeMerged s b = (rakeGot s b).foldl histAdd (ownHist s) := by
  rw [rakeMerged, hm, if_pos hc]
  exact congrArg (List.foldl histAdd · (rakeGot s b)) (ownHist_held s)

theorem rakeMerged_held (s : State) (b : Bool) (d : Nat) (hc : isCell s = true) (hm : rakeMissing s b = [d]) (hg : rakeGot s b = []) :
    rakeMerged s b = { ownHist s with held := heldFor s b d } := by
  rw [rakeMerged, hm, hg, if_pos hc]
  exact congrArg (fun n => { ownHist s with held := n }) (Nat.zero_add _)

/-! The histogram at an ARM part. -/

theorem reg_foldl_setReg_other (f : Nat → Nat) (g : Nat → Word) (l : List Nat) (x : Nat) (hx : ∀ k, x ≠ f k) (s : State) :
    reg (l.foldl (fun s k => setReg s (f k) (g k)) s) x = reg s x := by
  induction l generalizing s with
  | nil => rfl
  | cons k l ih => rw [List.foldl_cons, ih, reg_setReg_other _ _ _ _ (hx k)]

theorem reg_foldl_setReg (f : Nat → Nat) (g : Nat → Word) (hf : ∀ {m n}, f m = f n → m = n) (l : List Nat) (n : Nat) (s : State) :
    reg (l.foldl (fun s k => setReg s (f k) (g k)) s) (f n) = if n ∈ l then g n else reg s (f n) := by
  induction l generalizing s with
  | nil => rfl
  | cons k l ih =>
    rw [List.foldl_cons, ih, reg_setReg]
    by_cases he : n = k
    · rw [he, if_pos rfl, if_pos List.mem_cons_self, ite_self]
    · rw [if_neg fun h => he (hf h)]
      exact if_congr (by rw [List.mem_cons, or_iff_right he]) rfl rfl

/-- The histogram's counts in their registers (R170). -/
def histCounts (s : State) (h : Hist) : State := (List.range 64).foldl (fun s n => setReg s (rdlR (0x100 + 4 * n)) (wd (kget 0 h.cnt n % 4096))) s

theorem reg_histCounts (s : State) (h : Hist) {n : Nat} (hn : n < 64) : reg (histCounts s h) (rdlR (0x100 + 4 * n)) = wd (kget 0 h.cnt n % 4096) := by
  rw [histCounts, reg_foldl_setReg (fun n => rdlR (0x100 + 4 * n)) _ (fun h => by simp only [rdlR] at h; omega), if_pos (List.mem_range.mpr hn)]

theorem reg_histCounts_other (s : State) (h : Hist) {o : Nat} (ho : o < 0x100) : reg (histCounts s h) (rdlR o) = reg s (rdlR o) :=
  reg_foldl_setReg_other _ _ _ _ (fun k => rdlR_ne (by omega)) s

/-- The histogram's registers: its counts, RDL_CNT, and none of the status (R170). -/
theorem reg_histStore (s : State) (h : Hist) :
    (∀ n, n < 64 → reg (histStore s h) (rdlR (0x100 + 4 * n)) = wd (kget 0 h.cnt n % 4096)) ∧
    reg (histStore s h) (rdlR 0x030) = wd (h.c2r % 4096 * 4096 + h.c2x % 4096) ∧ reg (histStore s h) rdlStat = reg s rdlStat := by
  obtain ⟨v, w, e⟩ : ∃ v w, histStore s h =
      setReg (setReg (setReg (histCounts s h) (rdlR 0x030) (wd (h.c2r % 4096 * 4096 + h.c2x % 4096))) (rdlR 0x034) v) (rdlR 0x060) w := ⟨_, _, rfl⟩
  rw [e]
  refine ⟨fun n hn => ?_, ?_, ?_⟩
  · rw [reg_setReg_other _ _ _ _ (rdlR_ne (by omega)), reg_setReg_other _ _ _ _ (rdlR_ne (by omega)), reg_setReg_other _ _ _ _ (rdlR_ne (by omega)),
      reg_histCounts s h hn]
  · rw [reg_setReg_other _ _ _ _ (by decide), reg_setReg_other _ _ _ _ (by decide), reg_setReg_same]
  · rw [reg_setReg_other _ _ _ _ (by decide), reg_setReg_other _ _ _ _ (by decide), reg_setReg_other _ _ _ _ (by decide)]
    exact reg_histCounts_other s h (by decide)

/-- From s to t only registers change. -/
def RegsOnly (s t : State) : Prop := ∃ l, t = { s with regs := l }

theorem RegsOnly.trans {s t u : State} (a : RegsOnly s t) (b : RegsOnly t u) : RegsOnly s u := by
  obtain ⟨l, rfl⟩ := a
  obtain ⟨m, rfl⟩ := b
  exact ⟨m, rfl⟩

theorem regsOnly_setReg (s : State) (a : Nat) (v : Word) : RegsOnly s (setReg s a v) := ⟨_, rfl⟩

theorem regsOnly_foldl_setReg (f : Nat → Nat) (g : Nat → Word) (l : List Nat) (s : State) : RegsOnly s (l.foldl (fun s k => setReg s (f k) (g k)) s) := by
  induction l generalizing s with
  | nil => exact ⟨s.regs, rfl⟩
  | cons k l ih => exact (regsOnly_setReg s _ _).trans (ih _)

theorem regsOnly_histStore (s : State) (h : Hist) : RegsOnly s (histStore s h) :=
  (((regsOnly_foldl_setReg _ _ _ s).trans (regsOnly_setReg _ _ _)).trans (regsOnly_setReg _ _ _)).trans (regsOnly_setReg _ _ _)

/-- The histogram's registers with the bins of the next tick (R148, R170). -/
def histBins (s : State) (h : Hist) : State :=
  let u := histStore s h
  let z := zoom u h
  if u.rdl.first || rb u (rdlR 0x018) 0 then u else setReg u (rdlR 0x014) (wd (z.1 * 65536 + z.2))

theorem reg_histBins_other (s : State) (h : Hist) {o : Nat} (ho : o ≠ 0x014) : reg (histBins s h) (rdlR o) = reg (histStore s h) (rdlR o) := by
  unfold histBins
  dsimp only
  split
  · rfl
  · exact reg_setReg_other _ _ _ _ (rdlR_ne ho)

theorem regsOnly_histBins (s : State) (h : Hist) : RegsOnly s (histBins s h) := by
  unfold histBins
  dsimp only
  split
  · exact regsOnly_histStore s h
  · exact (regsOnly_histStore s h).trans (regsOnly_setReg ..)

/-- A histogram is there, and the cores know. -/
def withHist (s : State) (h : Hist) (l : KV Core) : State := { modRdl s fun r => { r with hist := some h } with cores := l }

theorem reg_withHist (s : State) (h : Hist) (l : KV Core) (a : Nat) : reg (withHist s h l) a = reg s a := rfl

theorem histDone_eq (s : State) (h : Hist) : ∃ l, histDone s h = withHist (histBins s h) h l := raiseEvAll_cores _ _

/-- A complete histogram is stored and shown (R170). -/
theorem histDone_shows (s : State) (h : Hist) : (histDone s h).rdl.hist = some h ∧
    (∀ n, n < 64 → reg (histDone s h) (rdlR (0x100 + 4 * n)) = wd (kget 0 h.cnt n % 4096)) ∧
    reg (histDone s h) (rdlR 0x030) = wd (h.c2r % 4096 * 4096 + h.c2x % 4096) ∧ reg (histDone s h) rdlStat = reg s rdlStat ∧
    ((histDone s h).ports, (histDone s h).mem, (histDone s h).flt) = (s.ports, s.mem, s.flt) := by
  obtain ⟨hcnt, hcls, hstat⟩ := reg_histStore s h
  obtain ⟨l, e⟩ := histDone_eq s h
  rw [e]
  refine ⟨rfl, fun n hn => ?_, ?_, ?_, ?_⟩
  · rw [reg_withHist, reg_histBins_other s h (by omega), hcnt n hn]
  · rw [reg_withHist, reg_histBins_other s h (by decide), hcls]
  · rw [reg_withHist, rdlStat, reg_histBins_other s h (by decide)]
    exact hstat
  · obtain ⟨m, hm⟩ := regsOnly_histBins s h
    rw [hm]
    rfl

/-- An ARM part takes its own plane (R151). -/
theorem rakeOutput_arm (s : State) (b : Bool) (hrole : roleOf s = .arm) (hb : b = armPlane s) (hs : rakeSent s b = false) (hw : rakeWaits s b = false) :
    rakeOutput s b = histDone (rakeTold s b) (rakeMerged s b) := by
  have hc : isCell s = false := by rw [isCell, hrole]; rfl
  rw [rakeOutput, if_neg (by rw [hc]; decide), if_pos ⟨hrole, hb⟩, rakeStart_starts s b hs hw, (riddleOnly_rakeMarked s b).cell, if_neg (by rw [hc]; decide)]

theorem rakeMerged_arm (s : State) (b : Bool) (hrole : roleOf s = .arm) (hm : rakeMissing s b = []) :
    rakeMerged s b = (rakeGot s b).foldl histAdd default := by
  have hc : isCell s = false := by rw [isCell, hrole]; rfl
  rw [rakeMerged, hm, hc]
  rfl

/-- With nothing missing an ARM part reports nothing. -/
theorem rakeTold_full (s : State) (b : Bool) (hm : rakeMissing s b = []) : rakeTold s b = modRdl s (rakeMark s b) := by
  have hl : rakeLost s b = false := by rw [rakeLost, hm]; rfl
  have ht : rakeMarked s b = modRdl s (rakeMark s b) := by rw [rakeMarked, hm]; rfl
  rw [rakeTold, hl, hm, ht]
  rfl

/-- A held port is reported, and one held for HOLD_LIMIT ticks as lost (R166). -/
theorem rakeTold_held (s : State) (b : Bool) (d : Nat) (hq : notInjecting s = true) (hm : rakeMissing s b = [d]) :
    (now s, faultMsg 128 .rakeHold rdlStat false) ∈ (rakeTold s b).flt.bus ∧
    (kget 0 s.rdl.heldRun (ppKey b d) + 1 = holdLimit s →
      (now s, faultMsg 128 .rakeLost rdlStat false) ∈ (rakeTold s b).flt.bus ∧ rb (rakeTold s b) rdlStat 6 = true) := by
  have hmark := riddleOnly_rakeMarked s b
  obtain ⟨u, hu⟩ : ∃ u, u = report (rakeMarked s b) 128 .rakeHold rdlStat := ⟨_, rfl⟩
  have honly : RiddleOnly s u := hu ▸ hmark.trans (riddleOnly_report _ _ _ _ (hmark.quiet hq))
  have hheld : (now s, faultMsg 128 .rakeHold rdlStat false) ∈ u.flt.bus := by
    have := report_on_bus (rakeMarked s b) 128 .rakeHold rdlStat (hmark.quiet hq)
    rwa [hmark.now, ← hu] at this
  have htold : rakeTold s b = if rakeLost s b then report (flag u rdlStat 0x40) 128 .rakeLost rdlStat else u := by
    rw [rakeTold, hm, hu]
    rfl
  have hflag := riddleOnly_flag u 0x004 0x40 (by decide)
  have hquiet : notInjecting (flag u rdlStat 0x40) = true := (honly.trans hflag).quiet hq
  rw [htold]
  refine ⟨?_, fun hlim => ?_⟩
  · split
    · exact (riddleOnly_report _ _ _ _ hquiet).bus hheld
    · exact hheld
  · have hl : rakeLost s b = true := by rw [rakeLost, hm, List.any_cons, beq_iff_eq.mpr hlim]; rfl
    rw [if_pos hl]
    refine ⟨?_, ?_⟩
    · have := report_on_bus (flag u rdlStat 0x40) 128 .rakeLost rdlStat hquiet
      rwa [now_flag, honly.now] at this
    · rw [report_quiet _ _ _ _ hquiet]
      exact (rb_flag u rdlStat 0x40 6 (by decide)).trans (Bool.or_eq_true_iff.mpr (.inr (by decide)))

/-! O40. -/

theorem rakeWaits_full {s : State} {b : Bool} (h : rakeMissing s b = []) : rakeWaits s b = false := by
  rw [rakeWaits, h]
  rfl

theorem rakeWaits_over {s : State} {b : Bool} {d : Nat} (hm : rakeMissing s b = [d]) (h : rf s (rdlR 0x028) 14 0 ≤ phaseOf s ∨ ppKey b d ∈ s.rdl.bad) :
    rakeWaits s b = false := by
  rw [rakeWaits, hm]
  rcases h with h | h
  · rw [decide_eq_false (Nat.not_lt.mpr h), Bool.and_false]
  · rw [List.any_cons, List.any_nil, List.contains_iff_mem.mpr h]
    rfl

theorem rakeWaits_begun {s : State} {b : Bool} {d : Nat} (hm : d ∈ rakeMissing s b) (hb : ppKey b d ∉ s.rdl.bad)
    (h : phaseOf s < rf s (rdlR 0x028) 14 0) : rakeWaits s b = true := by
  rw [rakeWaits, decide_eq_true h, Bool.and_true, List.any_eq_true]
  exact ⟨d, hm, by simpa using hb⟩

/-- Settles O40: an output that starts is the merged plane over the state in which it is recorded. -/
theorem rakeIsMergedAndHeld : Obligations.RakeIsMergedAndHeld := by
  unfold Obligations.RakeIsMergedAndHeld
  intro p k arr b s hr hquiet kb ins missing mine
  refine ⟨fun ha hm => answers_live rfl hr ?_, fun ha hm => answers_live rfl hr ?_, fun hm => answers_live rfl hr (rakeIn_other hm arr),
    fun q hc hs hq hb hm => answers_live rfl hr ?_, fun hc hb hd hp => answers_live rfl hr ?_, fun q d hc hb hs hq _ hm hi hd => answers_live rfl hr ?_,
    fun hrole hb hs hm => answers_live rfl hr ?_, fun d hrole hb hs _ hm hd => answers_live rfl hr ?_⟩
  · -- a whole RAKE is kept
    subst ha
    rw [rakeIn_good hm]
    refine ⟨rfl, ?_, fun x hx => ?_, rfl⟩
    · rw [modRdl_rdl, rakeKept_inp, kget_kput_same]
    · rw [modRdl_rdl, rakeKept_inp, kget_kput_other _ _ _ _ _ hx]
  · -- one that fails its CRC has begun
    rw [rakeIn_bad hm ha]
    exact ⟨rfl, rfl, rfl⟩
  · -- every input is in
    rw [rakeOutput_cell s b hc fun h he => hb h (by rw [← he, ← h]; exact hq), rakeStart_cell s b q hc hs (rakeWaits_full hm) hq, rakeMerged_cell s b hc hm]
    have hmark : rakeMarked s b = modRdl s (rakeMark s b) := by rw [rakeMarked, show rakeMissing s b = [] from hm]; rfl
    have hsent := rakeMark_sent s b
    rw [hmark] at hsent ⊢
    exact ⟨(queued_enqueue_c1 _ q _ _ rfl).of_port rfl, hsent, fun r hr => portOf_enqueue_other _ _ _ _ _ hr, frame_enqueue_modRdl ..⟩
  · -- an input has not begun before RAKE_WAIT
    obtain ⟨d, hdm, hbad⟩ := hd
    rw [rakeOutput_cell s b hc fun h => absurd h (by rw [hb]; decide)]
    exact rakeStart_keeps s b (.inr (rakeWaits_begun hdm hbad hp))
  · -- an input is missing and held
    rw [rakeOutput_cell s b hc fun h => absurd h (by rw [hb]; decide), rakeStart_cell s b q hc hs (rakeWaits_over hm hd) hq, rakeMerged_held s b d hc hm hi]
    obtain ⟨hrun, hheld⟩ := rakeMark_held s b (d := d) (by rw [show rakeMissing s b = [d] from hm]; exact List.mem_singleton_self d) s.rdl
    have hmark : rakeMarked s b = flag (modRdl s (rakeMark s b)) rdlStat 0x20 := by rw [rakeMarked, show rakeMissing s b = [d] from hm]; rfl
    rw [hmark]
    refine ⟨(queued_enqueue_c1 _ q _ _ rfl).of_port rfl, hrun, hheld, ?_, rfl⟩
    exact (rb_flag (modRdl s (rakeMark s b)) rdlStat 0x20 5 (by decide)).trans (Bool.or_eq_true_iff.mpr (.inr (by decide)))
  · -- the histogram of an ARM part
    rw [rakeOutput_arm s b hrole hb hs (rakeWaits_full hm), rakeMerged_arm s b hrole hm, rakeTold_full s b hm]
    obtain ⟨hhist, hcnt, hcls, -, hframe⟩ := histDone_shows (modRdl s (rakeMark s b)) (ins.foldl histAdd default)
    exact ⟨hhist, hcnt, hcls, hframe⟩
  · -- its reports
    rw [rakeOutput_arm s b hrole hb hs (rakeWaits_over hm hd)]
    obtain ⟨-, -, -, hstat, hframe⟩ := histDone_shows (rakeTold s b) (rakeMerged s b)
    simp only [Prod.mk.injEq] at hframe
    obtain ⟨-, -, hflt⟩ := hframe
    rw [hflt, rb, show reg (histDone (rakeTold s b) (rakeMerged s b)) (rdlR 0x004) = reg (rakeTold s b) rdlStat from hstat]
    exact rakeTold_held s b d hquiet hm

end Sys2Proof.Machine
end

section
/-! SUPPORT. The selection at an ARM part: its flags and registers, and the DESCENT and BINS that it sends (R146, R153 to R158, R160). -/

namespace Sys2Proof.Machine

open Sys2Proof

/-! The flags of a selection. -/

/-- From s to t flags of RDL_STATUS may have been set and reported, and RDL_STARVE counted. -/
structure SelNoted (s t : State) : Prop where
  only : RiddleOnly s t
  rdl : t.rdl = s.rdl
  regs : ∀ o, o ≠ 0x004 → o ≠ 0x038 → reg t (rdlR o) = reg s (rdlR o)
  stat : ∀ i, i < 32 → rb s rdlStat i = true → rb t rdlStat i = true

theorem SelNoted.refl (s : State) : SelNoted s s := ⟨RiddleOnly.refl s, rfl, fun _ _ _ => rfl, fun _ _ h => h⟩

theorem SelNoted.trans {s t u : State} (a : SelNoted s t) (b : SelNoted t u) : SelNoted s u :=
  ⟨a.only.trans b.only, b.rdl.trans a.rdl, fun o h1 h2 => (b.regs o h1 h2).trans (a.regs o h1 h2), fun i hi h => b.stat i hi (a.stat i hi h)⟩

theorem selNoted_flag (s : State) (m : Nat) : SelNoted s (flag s rdlStat m) :=
  ⟨riddleOnly_flag s 0x004 m (by decide), rfl, fun _ h _ => reg_flag_other _ _ _ _ (rdlR_ne h),
    fun i hi h => by rw [rb_flag _ _ _ _ hi, h, Bool.true_or]⟩

theorem selNoted_report (s : State) {src : Nat} (k : Kind) (hq : notInjecting s = true) : SelNoted s (report s src k rdlStat) := by
  refine ⟨riddleOnly_report s src k rdlStat hq, ?_, ?_, ?_⟩ <;> rw [report_quiet s src k rdlStat hq]
  · rfl
  · exact fun _ _ _ => rfl
  · exact fun _ _ h => h

theorem selNoted_rdlFlag (s : State) (i : Nat) (k : Kind) (hq : notInjecting s = true) : SelNoted s (rdlFlag s i k) :=
  (selNoted_flag s _).trans (selNoted_report _ k ((selNoted_flag s _).only.quiet hq))

theorem selNoted_starve (s : State) (v : Word) : SelNoted s (setReg s (rdlR 0x038) v) :=
  ⟨riddleOnly_setReg s 0x038 v (by decide), rfl, fun _ _ h => reg_setReg_other _ _ _ _ (rdlR_ne h),
    fun i _ h => by rw [rb, reg_setReg_other _ _ _ _ (by decide)]; exact h⟩

/-- A boundary in 2R is counted and flagged, and the first of a run reported (R156). -/
def starveNote (s : State) : State :=
  let c := (reg s (rdlR 0x038)).toNat
  let s := flag (setReg s (rdlR 0x038) (wd (Nat.min 4294967295 (c + 1)))) rdlStat 1
  if s.rdl.starve then s else report s 128 .refreshStarved rdlStat

theorem selNoted_starveNote (s : State) (hq : notInjecting s = true) : SelNoted s (starveNote s) := by
  have h := (selNoted_starve s (wd (Nat.min 4294967295 ((reg s (rdlR 0x038)).toNat + 1)))).trans (selNoted_flag _ 1)
  unfold starveNote
  dsimp only
  split
  · exact h
  · exact h.trans (selNoted_report _ _ (h.only.quiet hq))

/-- What a selection notes: HELD_EXCESS, SHORT, and a boundary in 2R (R155, R156). -/
def selNotes (s : State) (q : Quota) (short exc : Bool) : State :=
  let s := if exc then rdlFlag s 4 .heldExcess else s
  let s := if short then rdlFlag s 1 .cellsShort else s
  if q.cb == 2 then starveNote s else s

theorem SelNoted.ite {s t : State} (c : Bool) (f : State → State) (h : SelNoted s t) (hf : SelNoted t (f t)) : SelNoted s (if c then f t else t) := by
  cases c with
  | true => exact h.trans hf
  | false => exact h

theorem selNoted_selNotes (s : State) (q : Quota) (short exc : Bool) (hq : notInjecting s = true) : SelNoted s (selNotes s q short exc) := by
  have h1 := SelNoted.ite exc (rdlFlag · 4 .heldExcess) (SelNoted.refl s) (selNoted_rdlFlag s 4 _ hq)
  have h2 := SelNoted.ite short (rdlFlag · 1 .cellsShort) h1 (selNoted_rdlFlag _ 1 _ (h1.only.quiet hq))
  exact SelNoted.ite (q.cb == 2) starveNote h2 (selNoted_starveNote _ (h2.only.quiet hq))

/-! The selection without its packets. -/

/-- GO is cleared and the direction of the current stored (R153, R154). -/
def selBegun (s : State) : State := setRf (unflag s (rdlR 0x01C) 0x80000000) (rdlR 0x024) 0 0 (b2n (iDir s s.rdl.iArm))

/-- RDL_QUOTA. -/
def selWord (q : Quota) (short : Bool) : Word :=
  wd (q.cb * 2 ^ 30 + b2n q.dir * 2 ^ 29 + b2n q.neg * 2 ^ 28 + b2n q.frac * 2 ^ 27 + b2n short * 2 ^ 26 + q.bin * 2 ^ 21 + q.q % 4096)

/-- The record of a selection. -/
def selRecord (q : Quota) (n : Int) (f : Nat) (r : Rdl) : Rdl :=
  { r with selDone := true, quota := q, starve := q.cb == 2, lastN := n, lastF := f, first := false }

/-- RDL_QUOTA is written, and the bins are those of full scale where the Riddle starts (R147). -/
def selStored (s : State) (w : Word) : State :=
  let t := setReg s (rdlR 0x020) w
  if t.rdl.first then setReg t (rdlR 0x014) (reg t (rdlR 0x008)) else t

/-- What the selection takes: the quota, SHORT and the HELD excess. -/
def selTaken (s : State) (h : Hist) (n : Int) (f : Nat) : Quota × Bool × Bool := selectQuota s h (iDir s s.rdl.iArm) n f

/-- The state after a selection, before its packets. -/
def selected (s : State) (h : Hist) (n : Int) (f : Nat) : State :=
  let r := selTaken s h n f
  raiseEvAll (modRdl (selStored (selNotes (selBegun s) r.1 r.2.1 r.2.2) (selWord r.1 r.2.1)) (selRecord r.1 n f)) 0x800

/-- The packets of a selection: in RUN or DEGRADED of the active part a DESCENT with its copy, then BINS (R146, R158, R423). -/
def selSends (s : State) (q : Quota) : State :=
  binsSend (if s.sys.pair.active && running s then mirrorSend (splitSend s q).1 (hopPacket s 0x12 (tt8 s) (quotaWords q)) else s)

theorem riddleOnly_selBegun (s : State) : RiddleOnly s (selBegun s) :=
  (riddleOnly_setReg s 0x01C _ (by decide)).trans (riddleOnly_setReg _ 0x024 _ (by decide))

/-- The selection reads the plane of the part and nothing else of its state. -/
theorem selectQuota_congr {s t : State} (h : armPlane t = armPlane s) (g : Hist) (ipos : Bool) (n : Int) (f : Nat) :
    selectQuota t g ipos n f = selectQuota s g ipos n f := by
  have hb : quotaBase t ipos g n f = quotaBase s ipos g n f := by rw [quotaBase, quotaBase, h]
  rw [selectQuota_eq, selectQuota_eq, hb]

theorem reg_selBegun_other (s : State) (o : Nat) (h1 : o ≠ 0x01C) (h2 : o ≠ 0x024) : reg (selBegun s) (rdlR o) = reg s (rdlR o) := by
  rw [selBegun, reg_setRf_other _ _ _ _ _ _ (rdlR_ne h2)]
  exact reg_setReg_other _ _ _ _ (rdlR_ne h1)

theorem selectRun_eq (s : State) (h : Hist) (n : Int) (f : Nat) (hh : s.rdl.hist = some h) (hn : 0 ≤ n ∨ fullBridge s = true) :
    selectRun s n f = selSends (selected s h n f) (selTaken s h n f).1 := by
  have hdir : iDir (unflag s (rdlR 0x01C) 0x80000000) s.rdl.iArm = iDir s s.rdl.iArm := by
    have hreg : reg (unflag s (rdlR 0x01C) 0x80000000) (rdlR 0x024) = reg s (rdlR 0x024) := reg_setReg_other _ _ _ _ (by decide)
    rw [iDir, iDir, rf, rb, hreg, rf, rb]
  have hrange : (decide (n < 0) && !rb (selBegun s) (rdlR 0x000) 2) = false := by
    rw [rb, reg_selBegun_other s 0x000 (by decide) (by decide)]
    rcases hn with hn | hn
    · rw [decide_eq_false (by omega), Bool.false_and]
    · rw [show bitOf (reg s (rdlR 0x000)) 2 = true from hn, Bool.not_true, Bool.and_false]
  have hbegun : setRf (unflag s (rdlR 0x01C) 0x80000000) (rdlR 0x024) 0 0 (b2n (iDir (unflag s (rdlR 0x01C) 0x80000000) (unflag s (rdlR 0x01C) 0x80000000).rdl.iArm)) =
      selBegun s := by rw [unflag_rdl, hdir, selBegun]
  unfold selectRun
  rw [hh]
  dsimp only
  rw [hbegun, unflag_rdl, hdir, hrange]
  simp only [Bool.false_eq_true, if_false]
  rw [selectQuota_congr (riddleOnly_selBegun s).armPlane]
  rfl

/-! What stands after a selection, before its packets. -/

/-- The fields of the Riddle that a selection leaves. -/
theorem selStored_rdl (s : State) (w : Word) : (selStored s w).rdl = s.rdl := by
  unfold selStored
  dsimp only
  split <;> rfl

theorem riddleOnly_selStored (s : State) (w : Word) : RiddleOnly s (selStored s w) := by
  have h := riddleOnly_setReg s 0x020 w (by decide)
  unfold selStored
  dsimp only
  split
  · exact h.trans (riddleOnly_setReg _ 0x014 _ (by decide))
  · exact h

/-- RDL_QUOTA takes its word; RDL_NEXT changes only where the Riddle starts, and no other register changes (R147). -/
theorem reg_selStored (s : State) (w : Word) : reg (selStored s w) (rdlR 0x020) = w ∧
    (∀ o, o ≠ 0x020 → (o ≠ 0x014 ∨ s.rdl.first = false) → reg (selStored s w) (rdlR o) = reg s (rdlR o)) := by
  unfold selStored
  dsimp only
  cases hf : s.rdl.first with
  | true =>
    rw [setReg_rdl, hf, if_pos rfl]
    refine ⟨by rw [reg_setReg_other _ _ _ _ (by decide), reg_setReg_same], fun o h1 h2 => ?_⟩
    rw [reg_setReg_other _ _ _ _ (rdlR_ne (h2.resolve_right (by decide))), reg_setReg_other _ _ _ _ (rdlR_ne h1)]
  | false =>
    rw [setReg_rdl, hf, if_neg (by decide)]
    exact ⟨reg_setReg_same .., fun o h1 _ => reg_setReg_other _ _ _ _ (rdlR_ne h1)⟩

theorem reg_raiseEvAll (s : State) (m a : Nat) : reg (raiseEvAll s m) a = reg s a := by
  obtain ⟨l, e⟩ := raiseEvAll_cores s m
  rw [e]
  rfl

theorem rdl_raiseEvAll (s : State) (m : Nat) : (raiseEvAll s m).rdl = s.rdl := by
  obtain ⟨l, e⟩ := raiseEvAll_cores s m
  rw [e]

section

variable (s : State) (h : Hist) (n : Int) (f : Nat) (hq : notInjecting s = true)

theorem reg_selected_quota : reg (selected s h n f) (rdlR 0x020) = selWord (selTaken s h n f).1 (selTaken s h n f).2.1 := by
  rw [selected, reg_raiseEvAll, reg_modRdl, (reg_selStored _ _).1]

include hq

/-- The flags of the selection in s. -/
theorem selNoted_selected :
    SelNoted (selBegun s) (selNotes (selBegun s) (selTaken s h n f).1 (selTaken s h n f).2.1 (selTaken s h n f).2.2) :=
  selNoted_selNotes _ _ _ _ ((riddleOnly_selBegun s).quiet hq)

theorem riddleOnly_selected : RiddleOnly s (selected s h n f) :=
  ((((riddleOnly_selBegun s).trans (selNoted_selected s h n f hq).only).trans (riddleOnly_selStored _ _)).trans (riddleOnly_modRdl _ _)).trans
    (riddleOnly_raiseEvAll _ _)

theorem selected_rdl : (selected s h n f).rdl = selRecord (selTaken s h n f).1 n f s.rdl := by
  rw [selected, rdl_raiseEvAll, modRdl_rdl, selStored_rdl, (selNoted_selected s h n f hq).rdl]
  rfl

/-- A register that the selection does not name stands; RDL_NEXT too, but where the Riddle starts. -/
theorem reg_selected (o : Nat) (h1 : o ≠ 0x004) (h2 : o ≠ 0x038) (h3 : o ≠ 0x020) (h4 : o ≠ 0x014 ∨ s.rdl.first = false) :
    reg (selected s h n f) (rdlR o) = reg (selBegun s) (rdlR o) := by
  have hnote := selNoted_selected s h n f hq
  have hstore := (reg_selStored (selNotes (selBegun s) (selTaken s h n f).1 (selTaken s h n f).2.1 (selTaken s h n f).2.2)
    (selWord (selTaken s h n f).1 (selTaken s h n f).2.1)).2 o h3 (by rw [hnote.rdl]; exact h4)
  rw [selected, reg_raiseEvAll, reg_modRdl, hstore, hnote.regs o h1 h2]

/-- A flag of RDL_STATUS that is set stays set. -/
theorem rb_selected_stat (i : Nat) (hi : i < 32) (hb : rb s rdlStat i = true) : rb (selected s h n f) rdlStat i = true := by
  have hbegun : rb (selBegun s) rdlStat i = true := by rw [rb, rdlStat, reg_selBegun_other s 0x004 (by decide) (by decide)]; exact hb
  rw [rb, selected, reg_raiseEvAll, reg_modRdl, rdlStat, (reg_selStored _ _).2 0x004 (by decide) (.inl (by decide))]
  exact (selNoted_selected s h n f hq).stat i hi hbegun

/-- The direction of the current is stored (R154). -/
theorem rb_selected_dir : rb (selected s h n f) (rdlR 0x024) 0 = iDir s s.rdl.iArm := by
  rw [rb, reg_selected s h n f hq 0x024 (by decide) (by decide) (by decide) (.inl (by decide)), selBegun, setRf, reg_setReg_same, bitOf_eq, getLsbD_setFld,
    if_pos (by decide)]
  cases iDir s s.rdl.iArm <;> rfl

/-- GO is cleared where software has not set it in the cycle (R13, R153). -/
theorem rb_selected_go (hs : s.swSet = []) : rb (selected s h n f) (rdlR 0x01C) 31 = false := by
  have hclear : ∀ w : Word, bitOf (w &&& ~~~wd 0x80000000) 31 = false := fun w => by
    rw [bitOf_eq, BitVec.getLsbD_and, BitVec.getLsbD_not, show (wd 0x80000000).getLsbD 31 = true from by decide]
    simp
  rw [rb, reg_selected s h n f hq 0x01C (by decide) (by decide) (by decide) (.inl (by decide)), selBegun, reg_setRf_other _ _ _ _ _ _ (by decide),
    reg_unflag_alone _ _ _ _ (by rw [hs]; exact fun _ h => absurd h List.not_mem_nil), if_pos rfl, hclear]

end

/-! Its packets. -/

/-- The BINS of the next tick (R146). -/
def binsPacket (s : State) : Packet :=
  hopPacket s 0x11 ((tt8 s + 1) % 256) [reg s (rdlR 0x014), wd (Nat.max 1 (rf s (rdlR 0x02C) 3 0) * 2 ^ 28)]

/-- The bins of the next tick are kept at the part as well. -/
def binsKept (s : State) : State :=
  modRdl s fun r => { r with binsNew := some ⟨fld (reg s (rdlR 0x014)) 31 16, fld (reg s (rdlR 0x014)) 15 0, Nat.max 1 (rf s (rdlR 0x02C) 3 0)⟩ }

theorem binsSend_eq (s : State) : binsSend s =
    if s.sys.pair.active || s.sys.pair.gap then mirrorSend (sendOn (downPorts s) (binsKept s) (binsPacket s)) (binsPacket s) else binsKept s := rfl

theorem sendsOnly_binsKept (s : State) : SendsOnly s (binsKept s) := ⟨⟨s.ports, s.rdl.heldCnt, _, rfl⟩, fun _ => rfl⟩

theorem sendsOnly_binsSend (s : State) : SendsOnly s (binsSend s) := by
  rw [binsSend_eq]
  split
  · exact ((sendsOnly_binsKept s).trans (sendsOnly_sendOn ..)).trans (sendsOnly_mirrorSend ..)
  · exact sendsOnly_binsKept s

theorem sendsOnly_selSends (s : State) (q : Quota) : SendsOnly s (selSends s q) := by
  refine SendsOnly.trans ?_ (sendsOnly_binsSend _)
  split
  · exact (sendsOnly_splitSend s q).trans (sendsOnly_mirrorSend ..)
  · exact SendsOnly.refl s

/-- A part without a PARTNER port sends no copy. -/
theorem mirrorSend_alone (s : State) (k : Packet) (h : partnerPort s = none) : mirrorSend s k = s := by
  unfold mirrorSend
  rw [h]

/-- The active part with one DOWN port puts BINS there. -/
theorem binsSend_single (s : State) (p : Nat) (ha : s.sys.pair.active = true) (hd : downPorts s = [p]) (hact : isActive s p = true)
    (hp : partnerPort s = none) : binsSend s = enqueue (binsKept s) p (binsPacket s) false := by
  rw [binsSend_eq, if_pos (by rw [ha]; rfl), hd, sendOn_single (binsKept s) _ _ hact]
  refine mirrorSend_alone _ _ ?_
  exact (congrArg List.head? (((sendsOnly_binsKept s).trans (sendsOnly_enqueue ..)).links.portsOf 4)).trans hp

/-- The cells of a histogram at a quota's boundary. -/
def countAt (q : Quota) (h : Hist) : Nat :=
  match (if q.cb = 3 then none else orderPos q.dir q.cb q.bin) with
  | some n => (orderCounts q.dir h).getD n 0
  | none => 0

/-- Its cells before that boundary. -/
def countBefore (q : Quota) (h : Hist) : Nat :=
  match (if q.cb = 3 then none else orderPos q.dir q.cb q.bin) with
  | some n => ((orderCounts q.dir h).take n).foldl (· + ·) 0
  | none => 0

/-- Who takes part in a split: a cell itself under the name 6, and the DOWN ports that have delivered. -/
def splitParts (s : State) (q : Quota) : List (Nat × Hist) :=
  (if isCell s then [(6, ownHist s)] else []) ++ (downPorts s).filterMap fun p => (kget none s.rdl.inp (ppKey q.plane p)).map fun h => (p, h)

/-- The share and FRAC of a participant (R160, R162). -/
def shareOf (s : State) (q : Quota) (i : Nat) : Nat × Nat × Bool :=
  ((splitQ (rotateAt ((splitParts s q).map fun e => (e.1, countAt q e.2))
    ((s.tmk.tick.toNat % 65536 + (nodeId s).toNat) % Nat.max 1 (splitParts s q).length)) q.q q.frac).find? (·.1 == i)).getD (i, 0, false)

/-- A DOWN port gets the DESCENT of its share, and the count of its subtree is stored (R160, R164). -/
def splitTo (q : Quota) (g : Nat → Nat × Nat × Bool) (s : State) (e : Nat × Hist) : State :=
  if e.1 = 6 then s
  else modRdl (descSend s e.1 { q with hold := false, q := (g e.1).2.1, frac := (g e.1).2.2 }) fun r =>
    { r with heldCnt := kput 0 r.heldCnt (ppKey q.plane e.1) (countBefore q e.2 + (g e.1).2.1 - b2n (g e.1).2.2) }

theorem splitSend_eq (s : State) (q : Quota) :
    splitSend s q = (holdSend ((splitParts s q).foldl (splitTo q (shareOf s q)) s) q, (shareOf s q 6).2.1, (shareOf s q 6).2.2) := rfl

/-- FRAC of the one participant of a split, which has c cells at the boundary. -/
def loneFrac (q : Quota) (c : Nat) : Bool := q.frac && decide (0 < Nat.min q.q c) && Nat.min q.q c == q.q

/-- Its quota. -/
def loneQuota (q : Quota) (c : Nat) : Quota := { q with hold := false, q := Nat.min q.q c, frac := loneFrac q c }

/-- The one participant of a split gets what there is of the quota, as far as it has cells (R160, R162). -/
theorem shareOf_alone (s : State) (q : Quota) (i : Nat) (h : Hist) (hp : splitParts s q = [(i, h)]) :
    shareOf s q i = (i, Nat.min q.q (countAt q h), loneFrac q (countAt q h)) := by
  have hk : ∀ n : Nat, n % Nat.max 1 1 = 0 := Nat.mod_one
  rw [shareOf, hp, List.length_singleton, hk]
  show (List.find? _ [(i, Nat.min q.q (countAt q h), loneFrac q (countAt q h))]).getD _ = _
  rw [List.find?_cons_of_pos (by exact beq_self_eq_true i)]
  rfl

theorem holdSend_none (s : State) (q : Quota) (h : s.rdl.heldNow = []) : holdSend s q = s := by
  have hf : (downPorts s).filter (fun p => s.rdl.heldNow.contains (ppKey q.plane p)) = [] := by
    rw [h]
    exact List.filter_eq_nil_iff.mpr fun _ _ => by simp
  rw [holdSend, hf, List.foldl_nil]

theorem SendsOnly.heldNow {s t : State} (h : SendsOnly s t) : t.rdl.heldNow = s.rdl.heldNow := by
  obtain ⟨l, c, b, rfl⟩ := h.frame
  rfl

theorem sendsOnly_splitTo (q : Quota) (g : Nat → Nat × Nat × Bool) (s : State) (e : Nat × Hist) : SendsOnly s (splitTo q g s e) := by
  unfold splitTo
  split
  · exact SendsOnly.refl s
  · exact (sendsOnly_descSend ..).trans (sendsOnly_count ..)

/-- An ARM part with one DOWN port that has delivered gives it its share (R160). -/
theorem splitSend_single (s : State) (q : Quota) (p : Nat) (g : Hist) (hc : isCell s = false) (hd : downPorts s = [p]) (hact : isActive s p = true)
    (hh : s.rdl.heldNow = []) (hg : kget none s.rdl.inp (ppKey q.plane p) = some g) :
    (portOf (splitSend s q).1 p).q1 = (portOf s p).q1 ++ [hopPacket s 0x12 (tt8 s) (quotaWords (loneQuota q (countAt q g)))] := by
  have hp : p ≠ 6 := Nat.ne_of_lt (downPorts_lt (by rw [hd]; exact List.mem_singleton_self p))
  have hparts : splitParts s q = [(p, g)] := by
    rw [splitParts, hc, hd, List.filterMap_cons, hg]
    rfl
  rw [splitSend_eq, hparts, List.foldl_cons, List.foldl_nil, holdSend_none _ q ((sendsOnly_splitTo ..).heldNow.trans hh), splitTo, if_neg hp,
    shareOf_alone s q p g hparts, descSend, if_pos hact, portOf_modRdl, portOf_enqueue_c1 _ _ _ _ _ rfl, if_pos rfl]
  rfl

/-! O41. -/

theorem SendsOnly.own {s t : State} (h : SendsOnly s t) : t.tmk = s.tmk ∧ t.trr = s.trr := by
  obtain ⟨l, c, b, rfl⟩ := h.frame
  exact ⟨rfl, rfl⟩

theorem SendsOnly.hopPacket {s t : State} (h : SendsOnly s t) (typ seq : Nat) (ws : List Word) : hopPacket t typ seq ws = hopPacket s typ seq ws := by
  rw [Machine.hopPacket, Machine.hopPacket, ownPacket, ownPacket, nodeId, nodeId, h.own.2]

theorem SendsOnly.binsPacket {s t : State} (h : SendsOnly s t) : binsPacket t = binsPacket s := by
  rw [Machine.binsPacket, Machine.binsPacket, h.hopPacket, tt8, tt8, h.own.1, h.reg, rf, rf, h.reg]

/-- What the packets of a selection leave of the fields it has set. -/
theorem SendsOnly.selection {s t : State} (h : SendsOnly s t) :
    (t.rdl.selDone, t.rdl.quota, t.rdl.lastN, t.rdl.lastF) = (s.rdl.selDone, s.rdl.quota, s.rdl.lastN, s.rdl.lastF) ∧
      (t.swg, t.mem, t.sys, t.flt) = (s.swg, s.mem, s.sys, s.flt) := by
  obtain ⟨l, c, b, rfl⟩ := h.frame
  exact ⟨rfl, rfl⟩

/-- A selection that has run on N and FDUTY (R153, R155). -/
def SelRan (s : State) (h : Hist) (n : Int) (f : Nat) (t : State) : Prop :=
  t.rdl.selDone = true ∧ t.rdl.quota = (selTaken s h n f).1 ∧ (t.rdl.lastN, t.rdl.lastF) = (n, f) ∧
    reg t (rdlR 0x020) = selWord (selTaken s h n f).1 (selTaken s h n f).2.1 ∧ rb t (rdlR 0x024) 0 = iDir s s.rdl.iArm ∧
    (t.swg, t.mem, t.sys) = (s.swg, s.mem, s.sys)

theorem selectRun_ran (s : State) (h : Hist) (n : Int) (f : Nat) (hq : notInjecting s = true) (hh : s.rdl.hist = some h)
    (hn : 0 ≤ n ∨ fullBridge s = true) : SelRan s h n f (selectRun s n f) := by
  have hsel := riddleOnly_selected s h n f hq
  have hsends := sendsOnly_selSends (selected s h n f) (selTaken s h n f).1
  obtain ⟨hr, hs⟩ := hsends.selection
  rw [selected_rdl s h n f hq] at hr
  rw [hsel.swg, hsel.mem, hsel.sys] at hs
  simp only [Prod.mk.injEq] at hr hs
  obtain ⟨hdone, hquota, hN, hF⟩ := hr
  obtain ⟨hswg, hmem, hsys, -⟩ := hs
  rw [selectRun_eq s h n f hh hn]
  refine ⟨hdone, hquota, by rw [hN, hF]; rfl, ?_, ?_, by rw [hswg, hmem, hsys]⟩
  · rw [hsends.reg, reg_selected_quota]
  · rw [rb, hsends.reg]
    exact rb_selected_dir s h n f hq

/-- GO does not stand after it (R153). -/
theorem selectRun_go (s : State) (h : Hist) (n : Int) (f : Nat) (hq : notInjecting s = true) (hh : s.rdl.hist = some h)
    (hn : 0 ≤ n ∨ fullBridge s = true) (hs : s.swSet = []) : rb (selectRun s n f) (rdlR 0x01C) 31 = false := by
  rw [selectRun_eq s h n f hh hn, rb, (sendsOnly_selSends ..).reg]
  exact rb_selected_go s h n f hq hs

/-- Neither the messages on the bus nor the flags of RDL_STATUS are lost in it. -/
theorem selectRun_keeps (s : State) (h : Hist) (n : Int) (f : Nat) (hq : notInjecting s = true) (hh : s.rdl.hist = some h)
    (hn : 0 ≤ n ∨ fullBridge s = true) :
    s.flt.bus ⊆ (selectRun s n f).flt.bus ∧ ∀ i, i < 32 → rb s rdlStat i = true → rb (selectRun s n f) rdlStat i = true := by
  have hsends := sendsOnly_selSends (selected s h n f) (selTaken s h n f).1
  have hs := hsends.selection.2
  simp only [Prod.mk.injEq] at hs
  obtain ⟨-, -, -, hflt⟩ := hs
  rw [selectRun_eq s h n f hh hn]
  refine ⟨by rw [hflt]; exact (riddleOnly_selected s h n f hq).bus, fun i hi hb => ?_⟩
  rw [rb, hsends.reg]
  exact rb_selected_stat s h n f hq i hi hb

/-- A standby part sends nothing (R158, R430). -/
theorem selSends_standby (s : State) (q : Quota) (ha : s.sys.pair.active = false) (hg : s.sys.pair.gap = false) : selSends s q = binsKept s := by
  rw [selSends, ha, Bool.false_and, if_neg (by decide), binsSend_eq, ha, hg]
  rfl

theorem binsKept_ports (s : State) : (binsKept s).ports = s.ports := rfl

theorem portOf_binsKept (s : State) (p : Nat) : portOf (binsKept s) p = portOf s p := rfl

/-- Outside RUN and DEGRADED the active part sends BINS alone. -/
theorem selSends_bins (s : State) (q : Quota) (p : Nat) (ha : s.sys.pair.active = true) (hr : running s = false) (hd : downPorts s = [p])
    (hact : isActive s p = true) (hp : partnerPort s = none) : (portOf (selSends s q) p).q1 = (portOf s p).q1 ++ [binsPacket s] := by
  rw [selSends, hr, Bool.and_false, if_neg (by decide), binsSend_single s p ha hd hact hp, portOf_enqueue_c1 _ _ _ _ _ rfl, if_pos rfl, portOf_binsKept]

/-- In RUN and DEGRADED it sends the share of its DOWN port, then BINS (R146, R158, R160). -/
theorem selSends_both (s : State) (q : Quota) (p : Nat) (g : Hist) (hc : isCell s = false) (ha : s.sys.pair.active = true) (hr : running s = true)
    (hd : downPorts s = [p]) (hact : isActive s p = true) (hp : partnerPort s = none) (hh : s.rdl.heldNow = [])
    (hg : kget none s.rdl.inp (ppKey q.plane p) = some g) :
    (portOf (selSends s q) p).q1 = (portOf s p).q1 ++ [hopPacket s 0x12 (tt8 s) (quotaWords (loneQuota q (countAt q g))), binsPacket s] := by
  have hs := sendsOnly_splitSend s q
  have hsys := hs.selection.2
  simp only [Prod.mk.injEq] at hsys
  obtain ⟨-, -, hsys, -⟩ := hsys
  have hpartner : partnerPort (splitSend s q).1 = none := (congrArg List.head? (hs.links.portsOf 4)).trans hp
  rw [selSends, ha, hr, Bool.and_self, if_pos rfl, mirrorSend_alone _ _ hpartner,
    binsSend_single _ p (by rw [hsys]; exact ha) ((hs.links.portsOf 3).trans hd) ((hs.links.isActive p).trans hact) hpartner,
    portOf_enqueue_c1 _ _ _ _ _ rfl, if_pos rfl, portOf_binsKept, hs.binsPacket]
  show (portOf (splitSend s q).1 p).q1 ++ [binsPacket s] = _
  rw [splitSend_single s q p g hc hd hact hh hg, List.append_assoc]
  rfl

theorem RiddleOnly.binsPacket {s t : State} (h : RiddleOnly s t) (h1 : reg t (rdlR 0x014) = reg s (rdlR 0x014)) (h2 : reg t (rdlR 0x02C) = reg s (rdlR 0x02C)) :
    binsPacket t = binsPacket s := by
  rw [Machine.binsPacket, Machine.binsPacket, h.hopPacket, h.tt8, h1, rf, rf, h2]

/-- The BINS of a selection are those in RDL_NEXT, where the Riddle does not start (R147). -/
theorem binsPacket_selected (s : State) (h : Hist) (n : Int) (f : Nat) (hq : notInjecting s = true) (hf : s.rdl.first = false) :
    binsPacket (selected s h n f) = binsPacket s := by
  refine (riddleOnly_selected s h n f hq).binsPacket ?_ ?_
  · rw [reg_selected s h n f hq 0x014 (by decide) (by decide) (by decide) (.inr hf), reg_selBegun_other _ _ (by decide) (by decide)]
  · rw [reg_selected s h n f hq 0x02C (by decide) (by decide) (by decide) (.inl (by decide)), reg_selBegun_other _ _ (by decide) (by decide)]

end Sys2Proof.Machine
end

section
/-! SUPPORT. When a selection runs: writes of RDL_CTRL and RDL_LEVEL, GO, LEVEL_DL, and O41 (R147, R153, R157). -/

namespace Sys2Proof.Machine

open Sys2Proof

/-! Writes of RDL_CTRL and RDL_LEVEL. -/

def rdlCtrlRow : RegRow := reg1 0x000 0 [(2, 2, .rw), (1, 1, .ro), (0, 0, .rw)]
def rdlLevelRow : RegRow := reg1 0x01C 0 [(31, 31, .w1s), (28, 0, .rw)]

theorem rowOf_rdlCtrl : rowOf (rdlR 0x000) = some rdlCtrlRow := by decide
theorem rowOf_rdlLevel : rowOf (rdlR 0x01C) = some rdlLevelRow := by decide

/-- RDL_CTRL takes ENABLE and FULLBRIDGE (Table 5-9). -/
theorem softTake_rdlCtrl (cur val : Word) : softTake cur rdlCtrlRow val = (cur &&& ~~~5#32) ||| (val &&& 5#32) := by
  have h5 : 5#32 = maskOf 2 2 ||| maskOf 0 0 := by decide
  show ((cur &&& ~~~maskOf 2 2 ||| val &&& maskOf 2 2) &&& ~~~maskOf 0 0) ||| val &&& maskOf 0 0 = _
  rw [h5]
  refine BitVec.eq_of_getLsbD_eq fun i hi => ?_
  simp only [BitVec.getLsbD_or, BitVec.getLsbD_and, BitVec.getLsbD_not, hi, decide_true, Bool.true_and]
  cases cur.getLsbD i <;> cases val.getLsbD i <;> cases (maskOf 2 2).getLsbD i <;> cases (maskOf 0 0).getLsbD i <;> rfl

/-- 1 to ENABLE at an ARM part starts the Riddle (R147). -/
theorem rdlCtrlWrite_starts (s : State) (o : Origin) (v : Word) (hrole : roleOf s = .arm) (hv : bitOf v 0 = true) :
    rdlCtrlWrite s o v = modRdl (setReg s (rdlR 0x000) ((reg s (rdlR 0x000) &&& ~~~5#32) ||| (v &&& 5#32))) fun r => { r with first := true } := by
  have hw : v &&& accMask rdlCtrlRow (· == .w1s) = 0 := by
    rw [show accMask rdlCtrlRow (· == .w1s) = 0 by decide]
    exact BitVec.and_zero
  rw [rdlCtrlWrite, genWrite_soft_only s o _ v rdlCtrlRow rowOf_rdlCtrl (by decide) hw, softTake_rdlCtrl, if_pos hv, rdlStart]
  exact if_pos hrole

/-- A bit of RDL_LEVEL after a write: GO is set by a 1, the others are taken (Table 5-9). -/
theorem getLsbD_softTake_rdlLevel (cur val : Word) (i : Nat) (hi : i < 32) :
    (softTake cur rdlLevelRow val).getLsbD i = if i ≤ 28 then val.getLsbD i else cur.getLsbD i || (decide (i = 31) && val.getLsbD i) := by
  show ((cur ||| (val &&& maskOf 31 31)) &&& ~~~maskOf 28 0 ||| val &&& maskOf 28 0).getLsbD i = _
  simp only [BitVec.getLsbD_or, BitVec.getLsbD_and, BitVec.getLsbD_not, getLsbD_maskOf, hi, decide_true, Bool.true_and, Nat.zero_le]
  by_cases h : i ≤ 28
  · rw [decide_eq_true h, if_pos h]
    simp
  · have h31 : (decide (31 ≤ i) && decide (i ≤ 31)) = decide (i = 31) := by rw [← Bool.decide_and]; exact decide_eq_decide.mpr (by omega)
    rw [decide_eq_false h, if_neg h, h31, Bool.and_comm (val.getLsbD i)]
    simp

/-- A field of N or FDUTY takes the value written. -/
theorem fld_softTake_rdlLevel (cur val : Word) (hi lo : Nat) (h : hi ≤ 28) : fld (softTake cur rdlLevelRow val) hi lo = fld val hi lo := by
  refine Nat.eq_of_testBit_eq fun i => ?_
  rw [testBit_fld, testBit_fld]
  by_cases hl : i < hi + 1 - lo
  · rw [getLsbD_softTake_rdlLevel _ _ _ (by omega), if_pos (by omega)]
  · rw [decide_eq_false hl, Bool.false_and, Bool.false_and]

theorem reg_swMarked (s : State) (a : Nat) (v x : Word) (b : Nat) : reg (whenB (x != 0) (fun t => { t with swSet := (a, x) :: t.swSet }) (setReg s a v)) b =
    reg (setReg s a v) b := by
  unfold whenB
  split <;> rfl

theorem frame_swMarked (s : State) (a : Nat) (v x : Word) :
    { whenB (x != 0) (fun t => { t with swSet := (a, x) :: t.swSet }) (setReg s a v) with regs := s.regs, swSet := s.swSet } = s := by
  unfold whenB
  split <;> rfl

/-- A write of RDL_LEVEL with GO, not after LEVEL_DL (R153). -/
theorem levelWrite_sets (s : State) (o : Origin) (v : Word) (hv : bitOf v 31 = true) (hp : phaseOf s ≤ rf s (rdlR 0x028) 30 16) :
    let t := levelWrite s o v
    rb t (rdlR 0x01C) 31 = true ∧ (levelN t, levelF t) = (sext 13 (fld v 28 16), fld v 15 0) ∧ (∀ a, a ≠ rdlR 0x01C → reg t a = reg s a) ∧
      { t with regs := s.regs, swSet := s.swSet } = s := by
  have hw : levelWrite s o v = genWrite s o (rdlR 0x01C) v := by rw [levelWrite, if_neg (Nat.not_lt.mpr hp)]
  have h31 : bitOf (softTake (reg s (rdlR 0x01C)) rdlLevelRow v) 31 = true := by
    rw [bitOf_eq, getLsbD_softTake_rdlLevel _ _ _ (by decide), if_neg (by decide), ← bitOf_eq v, hv]
    simp
  intro t
  have ht : t = _ := hw.trans (genWrite_soft s o _ v rdlLevelRow rowOf_rdlLevel (by decide))
  have hreg : reg t (rdlR 0x01C) = softTake (reg s (rdlR 0x01C)) rdlLevelRow v := by rw [ht, reg_swMarked, reg_setReg_same]
  refine ⟨by rw [rb, hreg, h31], ?_, fun a ha => by rw [ht, reg_swMarked, reg_setReg_other _ _ _ _ ha], by rw [ht]; exact frame_swMarked ..⟩
  rw [levelN, levelF, rf, rf, hreg, fld_softTake_rdlLevel _ _ _ _ (by decide), fld_softTake_rdlLevel _ _ _ _ (by decide)]

/-! When it runs. -/

theorem selectTry_waits (s : State) (hs : s.rdl.hist = none ∨ s.rdl.selDone = true ∨ (rb s (rdlR 0x01C) 31 = false ∧ s.rdl.late = false)) :
    selectTry s = s := by
  unfold selectTry
  split
  · rfl
  · next hn =>
    obtain ⟨-, hd, hh⟩ := not_or.mp hn |>.imp_right not_or.mp
    rcases hs with h | h | ⟨h, hl⟩
    · exact absurd (by rw [h]; rfl) hh
    · exact absurd h hd
    · rw [hl, h, if_neg (by decide), if_neg (by decide)]

section

variable {s : State} {h : Hist} (hrole : roleOf s = .arm) (hd : s.rdl.selDone = false) (hh : s.rdl.hist = some h)

include hrole hd hh

theorem selectTry_late (hl : s.rdl.late = true) : selectTry s = selectRun s s.rdl.lastN s.rdl.lastF := by
  rw [selectTry, if_neg (by rw [hrole, hd, hh]; simp), if_pos hl]

theorem selectTry_go (hl : s.rdl.late = false) (hg : rb s (rdlR 0x01C) 31 = true) : selectTry s = selectRun s (levelN s) (levelF s) := by
  rw [selectTry, if_neg (by rw [hrole, hd, hh]; simp), if_neg (by rw [hl]; decide), if_pos hg]

end

/-- LEVEL_DL passes without GO (R153). -/
def levelMissed (s : State) : State := modRdl (rdlFlag s 2 .levelLate) fun r => { r with late := true }

theorem levelLate_misses (s : State) (hrole : roleOf s = .arm) (hd : s.rdl.selDone = false) (hl : s.rdl.late = false) (hg : rb s (rdlR 0x01C) 31 = false)
    (hp : rf s (rdlR 0x028) 30 16 ≤ phaseOf s) : levelLate s = selectTry (levelMissed s) := if_pos ⟨hrole, hd, hl, hg, hp⟩

theorem levelLate_waits (s : State) (h : s.rdl.selDone = true ∨ s.rdl.late = true ∨ rb s (rdlR 0x01C) 31 = true ∨ phaseOf s < rf s (rdlR 0x028) 30 16) :
    levelLate s = s := by
  refine if_neg ?_
  rintro ⟨-, hd, hl, hg, hp⟩
  rcases h with h | h | h | h
  · rw [hd] at h; exact absurd h (by decide)
  · rw [hl] at h; exact absurd h (by decide)
  · rw [hg] at h; exact absurd h (by decide)
  · omega

theorem levelMissed_rdl (s : State) (hq : notInjecting s = true) : (levelMissed s).rdl = { s.rdl with late := true } := by
  rw [levelMissed, modRdl_rdl, (selNoted_rdlFlag s 2 .levelLate hq).rdl]

theorem riddleOnly_levelMissed (s : State) (hq : notInjecting s = true) : RiddleOnly s (levelMissed s) :=
  (selNoted_rdlFlag s 2 .levelLate hq).only.trans (riddleOnly_modRdl _ _)

theorem levelMissed_reg (s : State) (hq : notInjecting s = true) (o : Nat) (h1 : o ≠ 0x004) (h2 : o ≠ 0x038) :
    reg (levelMissed s) (rdlR o) = reg s (rdlR o) := (selNoted_rdlFlag s 2 .levelLate hq).regs o h1 h2

/-- It is flagged and reported (R153). -/
theorem levelMissed_reports (s : State) (hq : notInjecting s = true) :
    rb (levelMissed s) rdlStat 2 = true ∧ Reports s (levelMissed s) 128 .levelLate rdlStat := by
  have hflag : notInjecting (flag s rdlStat (2 ^ 2)) = true := (riddleOnly_flag s 0x004 (2 ^ 2) (by decide)).quiet hq
  have he : levelMissed s = modRdl (modFlt (flag s rdlStat (2 ^ 2)) fun f => { f with bus := f.bus ++ [(now s, faultMsg 128 .levelLate rdlStat false)] })
      fun r => { r with late := true } := by rw [levelMissed, rdlFlag, report_quiet _ _ _ _ hflag]; rfl
  rw [he]
  exact ⟨(rb_flag s rdlStat (2 ^ 2) 2 (by decide)).trans (Bool.or_eq_true_iff.mpr (.inr (by decide))), rfl⟩

/-- What LEVEL_LATE touches has no part in the selection. -/
theorem selTaken_congr {s t : State} (h : armPlane t = armPlane s) (h1 : reg t (rdlR 0x024) = reg s (rdlR 0x024)) (h2 : t.rdl.iArm = s.rdl.iArm) (g : Hist)
    (n : Int) (f : Nat) : selTaken t g n f = selTaken s g n f ∧ iDir t t.rdl.iArm = iDir s s.rdl.iArm := by
  have hd : iDir t t.rdl.iArm = iDir s s.rdl.iArm := by rw [iDir, iDir, rf, rf, rb, rb, h1, h2]
  exact ⟨by rw [selTaken, selTaken, hd, selectQuota_congr h], hd⟩

theorem selTaken_plane (s : State) (h : Hist) (n : Int) (f : Nat) : (selTaken s h n f).1.plane = armPlane s := by
  have hk := quotaAt_keeps (quotaBase s (iDir s s.rdl.iArm) h n f) (boundaryOf (orderCounts (quotaBase s (iDir s s.rdl.iArm) h n f).dir h) (takenOf h n f))
  simp only [Prod.mk.injEq] at hk
  obtain ⟨-, -, hplane, -⟩ := hk
  rw [selTaken, selectQuota_eq]
  exact hplane

/-- A selection that LEVEL_DL brings is the one of the state before (R153). -/
theorem selRan_missed (s : State) (h : Hist) (hq : notInjecting s = true) (hrole : roleOf s = .arm) (hd : s.rdl.selDone = false) (hh : s.rdl.hist = some h)
    (hn : 0 ≤ s.rdl.lastN ∨ fullBridge s = true) :
    SelRan s h s.rdl.lastN s.rdl.lastF (selectTry (levelMissed s)) ∧ rb (selectTry (levelMissed s)) rdlStat 2 = true ∧
      (now s, faultMsg 128 .levelLate rdlStat false) ∈ (selectTry (levelMissed s)).flt.bus := by
  have hmiss := riddleOnly_levelMissed s hq
  have hrdl := levelMissed_rdl s hq
  obtain ⟨hstat, hrep⟩ := levelMissed_reports s hq
  have hh' : (levelMissed s).rdl.hist = some h := by rw [hrdl]; exact hh
  have hn' : 0 ≤ s.rdl.lastN ∨ fullBridge (levelMissed s) = true := by
    rw [fullBridge, rb, levelMissed_reg s hq 0x000 (by decide) (by decide)]
    exact hn
  have hq' := hmiss.quiet hq
  have hrun : selectTry (levelMissed s) = selectRun (levelMissed s) s.rdl.lastN s.rdl.lastF := by
    have := selectTry_late (hmiss.role.trans hrole) (by rw [hrdl]; exact hd) hh' (by rw [hrdl])
    rwa [hrdl] at this
  obtain ⟨htaken, hdir⟩ := selTaken_congr hmiss.armPlane (levelMissed_reg s hq 0x024 (by decide) (by decide)) (by rw [hrdl]) h s.rdl.lastN s.rdl.lastF
  obtain ⟨hbus, hkeep⟩ := selectRun_keeps (levelMissed s) h s.rdl.lastN s.rdl.lastF hq' hh' hn'
  have hran := selectRun_ran (levelMissed s) h s.rdl.lastN s.rdl.lastF hq' hh' hn'
  rw [SelRan, htaken, hdir, hmiss.swg, hmiss.mem, hmiss.sys] at hran
  rw [hrun]
  exact ⟨hran, hkeep 2 (by decide) hstat, hbus (by rw [hrep]; exact List.mem_append_right _ (List.mem_singleton_self _))⟩

/-- The share of one port, as the quota and its boundary give it. -/
theorem share_eq_countAt (q : Quota) (g : Hist) (own : Nat)
    (h1 : ∀ n, orderPos q.dir q.cb q.bin = some n → own = if q.cb = 3 then 0 else Nat.min q.q ((orderCounts q.dir g).getD n 0))
    (h2 : orderPos q.dir q.cb q.bin = none → own = 0) : own = Nat.min q.q (countAt q g) := by
  unfold countAt
  cases hp : orderPos q.dir q.cb q.bin with
  | none => rw [ite_self, h2 hp]; exact (Nat.min_zero _).symm
  | some n =>
    rw [h1 n hp]
    by_cases h3 : q.cb = 3
    · rw [if_pos h3, if_pos h3]; exact (Nat.min_zero _).symm
    · rw [if_neg h3, if_neg h3]

section

variable {s : State} {h : Hist} {n : Int} {f : Nat} (hq : notInjecting s = true) (hh : s.rdl.hist = some h) (hn : 0 ≤ n ∨ fullBridge s = true)

include hq hh hn

/-- A standby part's ports stand. -/
theorem selectRun_standby (ha : s.sys.pair.active = false) (hg : s.sys.pair.gap = false) : (selectRun s n f).ports = s.ports := by
  have hsel := riddleOnly_selected s h n f hq
  rw [selectRun_eq s h n f hh hn, selSends_standby _ _ (by rw [hsel.sys]; exact ha) (by rw [hsel.sys]; exact hg), binsKept_ports]
  exact hsel.ports

variable {p : Nat} (ha : s.sys.pair.active = true) (hf : s.rdl.first = false) (hd : downPorts s = [p]) (hact : isActive s p = true)
  (hp : partnerPort s = none)

include ha hf hd hact hp

/-- Outside RUN and DEGRADED a selection sends BINS. -/
theorem selectRun_bins (hr : running s = false) : (portOf (selectRun s n f) p).q1 = (portOf s p).q1 ++ [binsPacket s] := by
  have hsel := riddleOnly_selected s h n f hq
  have hact' := (hsel.active (downPorts_lt (by rw [hd]; exact List.mem_singleton_self p))).trans hact
  rw [selectRun_eq s h n f hh hn, selSends_bins _ _ p (by rw [hsel.sys]; exact ha) (hsel.running.trans hr) (hsel.downs.trans hd) hact' (hsel.partner.trans hp),
    hsel.portOf, binsPacket_selected s h n f hq hf]

/-- In RUN and DEGRADED it sends a DESCENT before them. -/
theorem selectRun_both (hc : isCell s = false) (hr : running s = true) (hheld : s.rdl.heldNow = []) {g : Hist}
    (hg : kget none s.rdl.inp (ppKey (armPlane s) p) = some g) :
    (portOf (selectRun s n f) p).q1 = (portOf s p).q1 ++
      [hopPacket s 0x12 (tt8 s) (quotaWords (loneQuota (selTaken s h n f).1 (countAt (selTaken s h n f).1 g))), binsPacket s] := by
  have hsel := riddleOnly_selected s h n f hq
  have hact' := (hsel.active (downPorts_lt (by rw [hd]; exact List.mem_singleton_self p))).trans hact
  have hrdl := selected_rdl s h n f hq
  rw [selectRun_eq s h n f hh hn, selSends_both _ _ p g (hsel.cell.trans hc) (by rw [hsel.sys]; exact ha) (hsel.running.trans hr) (hsel.downs.trans hd) hact'
    (hsel.partner.trans hp) (by rw [hrdl]; exact hheld) (by rw [hrdl, selTaken_plane]; exact hg),
    hsel.portOf, binsPacket_selected s h n f hq hf, hsel.hopPacket, hsel.tt8]

end

/-- Settles O41: each selection is `selectRun` on N and FDUTY, over the state that `selected` gives and the packets sent from it. -/
theorem selectionRuns : Obligations.SelectionRuns := by
  unfold Obligations.SelectionRuns
  intro o v p g h s hr hrole hq gated pos ready q word ran x own bins fr desc
  have hc : isCell s = false := by rw [isCell, hrole]; rfl
  refine ⟨fun hreach hv => answers_live rfl hr ?_, fun hreach hv hp => answers_live rfl hr ?_, fun ⟨hd, hh⟩ hg hl hn hs => answers_live rfl hr ?_,
    fun ⟨hd, hh⟩ hl hn => answers_live rfl hr ?_, fun hw => answers_live rfl hr (selectTry_waits s hw), fun hd hl hh hg hp => answers_live rfl hr ?_,
    fun hw => answers_live rfl hr (levelLate_waits s hw), fun ⟨hd, hh⟩ hl hg hp hn => answers_live rfl hr ?_⟩
  · -- RDL_CTRL
    rw [gate_of_reachable _ _ _ hreach, rdlCtrlWrite_starts s o v hrole hv]
    exact ⟨rfl, reg_setReg_same s _ _, rfl⟩
  · -- RDL_LEVEL
    rw [gate_of_reachable _ _ _ hreach]
    exact levelWrite_sets s o v hv hp
  · -- the selection at GO
    rw [selectTry_go hrole hd hh hl hg]
    refine ⟨selectRun_ran s h _ _ hq hh hn, selectRun_go s h _ _ hq hh hn hs, selectRun_standby hq hh hn,
      fun ha hf hdn hact hpn hrun => selectRun_bins hq hh hn ha hf hdn hact hpn hrun, fun ha hf hdn hact hpn hheld hin hrun => ?_⟩
    have hown : own = Nat.min x.q (countAt x g) := share_eq_countAt x g own (fun n hn => by simp only [own, hn]) (fun hn => by simp only [own, hn])
    have hdesc : desc = hopPacket s 0x12 (tt8 s) (quotaWords (loneQuota x (countAt x g))) := by
      simp only [desc, fr, hown]
      rfl
    rw [hdesc]
    exact selectRun_both hq hh hn ha hf hdn hact hpn hc hrun hheld hin
  · -- the selection that LEVEL_DL has left to the histogram
    rw [selectTry_late hrole hd hh hl]
    exact selectRun_ran s h _ _ hq hh hn
  · -- LEVEL_DL without a histogram
    have hmiss := riddleOnly_levelMissed s hq
    have hrdl := levelMissed_rdl s hq
    rw [levelLate_misses s hrole hd hl hg hp, selectTry_waits _ (.inl (by rw [hrdl]; exact hh))]
    obtain ⟨hstat, hrep⟩ := levelMissed_reports s hq
    exact ⟨hrdl, hstat, hrep, by rw [hmiss.ports, hmiss.sys]⟩
  · -- LEVEL_DL with one
    rw [levelLate_misses s hrole hd hl hg hp]
    exact selRan_missed s h hq hrole hd hh hn

end Sys2Proof.Machine
end

section
/-! SUPPORT. A cell's BINS, DESCENT and hold: the state it takes from a quota by rank and share (R159, R162, R165, R167), and deblocking (Table 17-5). -/

namespace Sys2Proof.Machine

open Sys2Proof

/-! BINS. -/

/-- The bins that a packet gives the next tick. -/
def binsTaken (k : Packet) (r : Rdl) : Rdl :=
  { r with binsNew := some ⟨fld (k.payload.getD 0 0) 31 16, fld (k.payload.getD 0 0) 15 0, fld (k.payload.getD 1 0) 31 28⟩ }

/-- BINS of the next tick from an ACTIVE UP port are kept and go on to the one DOWN port (R146, R150). -/
theorem binsIn_takes (s : State) (p d : Nat) (k : Packet) (hc : isCell s = true) (ha : isActive s p = true) (hp : dirOf s p = 1 ∨ dirOf s p = 2)
    (hseq : k.seq.toNat = (tt8 s + 1) % 256) (hd : downPorts s = [d]) (had : isActive s d = true) :
    binsIn s p k = enqueue (modRdl s (binsTaken k)) d (hopPacket s 0x11 k.seq.toNat k.payload) false := by
  have hok : (isCell s && isActive s p && (dirOf s p == 1 || dirOf s p == 2) && k.seq.toNat == (tt8 s + 1) % 256) = true := by
    simp only [hc, ha, hseq, Bool.true_and, Bool.and_true, beq_self_eq_true, Bool.or_eq_true, beq_iff_eq]
    exact hp
  unfold binsIn
  dsimp only
  rw [if_pos hok]
  show (downPorts s).foldl _ (modRdl s (binsTaken k)) = _
  rw [hd]
  exact if_pos had

/-! Whose DESCENT it is. -/

/-- The DESCENT of this tick on an ACTIVE UP port, the first one and in time (R160, R165). -/
def DescentMine (s : State) (p : Nat) (k : Packet) : Prop :=
  k.typ = 0x12 ∧ packetOk k = true ∧ isActive s p = true ∧ (dirOf s p = 1 ∨ dirOf s p = 2) ∧ k.seq.toNat = tt8 s ∧ s.rdl.gotDesc = false ∧
    phaseOf s ≤ firstEdge s

/-- The conditions under which a cell takes a DESCENT. -/
theorem descentOk_iff (s : State) (p : Nat) (k : Packet) (hc : isCell s = true) :
    (isCell s && isActive s p && (dirOf s p == 1 || dirOf s p == 2) && k.seq.toNat == tt8 s && !s.rdl.gotDesc && decide (phaseOf s ≤ firstEdge s)) = true ↔
      isActive s p = true ∧ (dirOf s p = 1 ∨ dirOf s p = 2) ∧ k.seq.toNat = tt8 s ∧ s.rdl.gotDesc = false ∧ phaseOf s ≤ firstEdge s := by
  simp only [hc, Bool.true_and, Bool.and_eq_true, Bool.or_eq_true, beq_iff_eq, Bool.not_eq_true', decide_eq_true_eq, and_assoc]

/-- The record of a DESCENT that has been taken. -/
def descentGot (r : Rdl) : Rdl := { r with gotDesc := true, holdRun := 0 }

/-- The record of the state that it gives. -/
def stateTaken (d : Decision) (r : Rdl) : Rdl := { r with dec := if r.state = .bypassed then none else some d }

theorem stateTaken_dec (d : Decision) (r : Rdl) (h : r.state ≠ .bypassed) : (stateTaken d r).dec = some d := if_neg h

/-- The state after the split of a quota, before the cell takes its own part. -/
def descentStored (s : State) (q : Quota) : State := modRdl (splitSend s q).1 descentGot

/-- A quota that asks for -1 of a cell without FULLBRIDGE is flagged and reported (R502). -/
def rangeNote (s : State) (q : Quota) (share : Nat) (fr : Bool) : State :=
  if q.neg && !fullBridge s && (cellState s { q with neg := false } share fr).st != .zero then report (flag s rdlStat 8) 129 .levelRange rdlStat else s

/-- The cell takes its state from its share. -/
def stateTake (s : State) (q : Quota) (share : Nat) (fr : Bool) : State :=
  modRdl (rangeNote s q share fr) (stateTaken (cellState (rangeNote s q share fr) q share fr))

/-- What a cell does with a DESCENT that carries its own quota. -/
def descentTaken (s : State) (q : Quota) : State :=
  if !running (descentStored s q) then descentStored s q else stateTake (descentStored s q) q (splitSend s q).2.1 (splitSend s q).2.2

/-- What it does with one that says HOLD. -/
def descentHeld (s : State) (q : Quota) : State :=
  ((downPorts s).filter fun d => (kget none s.rdl.inp (ppKey q.plane d)).isSome || s.rdl.heldNow.contains (ppKey q.plane d)).foldl
    (fun s d => descSend s d q) (holdTick s)

theorem descentIn_mine {s : State} {p : Nat} {k : Packet} (hc : isCell s = true) (h : DescentMine s p k) :
    hopIn s 0x12 k (fun s => descentIn s p k) =
      if (quotaOf k.payload).hold then descentHeld s (quotaOf k.payload) else descentTaken (deblock s) (quotaOf k.payload) := by
  obtain ⟨ht, hk, hm⟩ := h
  rw [hopIn_takes s 0x12 k _ (by rw [ht]; rfl) hk]
  unfold descentIn
  dsimp only
  rw [(descentOk_iff s p k hc).mpr hm]
  rfl

theorem descentIn_other {s : State} {p : Nat} {k : Packet} (hc : isCell s = true) (h : ¬ DescentMine s p k) :
    hopIn s 0x12 k (fun s => descentIn s p k) = s := by
  unfold hopIn
  split
  next hin =>
    rw [Bool.and_eq_true, beq_iff_eq] at hin
    obtain ⟨ht, hk⟩ := hin
    have hok := (descentOk_iff s p k hc).not.mpr fun hm => h ⟨BitVec.eq_of_toNat_eq ht, hk, hm⟩
    rw [Bool.not_eq_true] at hok
    unfold descentIn
    dsimp only
    rw [hok]
    rfl
  next => rfl

/-! The state by rank and share. -/

/-- The counts of a histogram by their position in the order. -/
theorem getD_orderCounts (high : Bool) (h : Hist) (n : Nat) : (orderCounts high h).getD n 0 =
    if n < 32 then kget 0 h.cnt (orderBin high n) else if n < 64 then kget 0 h.cnt (32 + orderBin high (n - 32)) else if n = 64 then h.c2r else 0 := by
  have hmap : ∀ (f : Nat → Nat) (i : Nat), i < 32 → ((List.range 32).map f).getD i 0 = f i := fun f i hi => by
    rw [List.getD_eq_getElem _ _ (by simpa using hi)]
    simp
  have hlen : ∀ f : Nat → Nat, ((List.range 32).map f).length = 32 := fun f => by simp
  unfold orderCounts
  by_cases h0 : n < 32
  · rw [if_pos h0, List.append_assoc, List.getD_append _ _ _ _ (by rw [hlen]; exact h0), hmap _ _ h0]
  · rw [if_neg h0, List.append_assoc, List.getD_append_right _ _ _ _ (by rw [hlen]; omega), hlen]
    by_cases h1 : n < 64
    · rw [if_pos h1, List.getD_append _ _ _ _ (by rw [hlen]; omega), hmap _ _ (by omega)]
    · rw [if_neg h1, List.getD_append_right _ _ _ _ (by rw [hlen]; omega), hlen]
      by_cases h2 : n = 64
      · subst h2; rfl
      · rw [if_neg h2]
        exact List.getD_eq_default _ _ (by simp; omega)

/-- A cell's own report counts one at its rank and none elsewhere. -/
theorem getD_ownHist (s : State) (high : Bool) (n : Nat) (hbin : s.rdl.bin < 32) :
    (orderCounts high (ownHist s)).getD n 0 = if orderPos high s.rdl.cls s.rdl.bin = some n then 1 else 0 := by
  have hlt := orderBin_lt high hbin
  have hnlt : n < 32 → orderBin high n < 32 := orderBin_lt high
  have hrank : ∀ j, j < 32 → (s.rdl.bin = orderBin high j ↔ orderBin high s.rdl.bin = j) := fun j hj =>
    ⟨fun e => by rw [e, orderBin_twice high hj], fun e => by rw [← e, orderBin_twice high hbin]⟩
  have h0 := hrank n
  have h1 := hrank (n - 32)
  rw [getD_orderCounts]
  rcases hcls : s.rdl.cls with _ | _ | _ | c <;> simp only [ownHist, hcls, orderPos, kget, Nat.mod_eq_of_lt hbin, Option.some.injEq, reduceCtorEq, if_false]
  case zero => split_ifs <;> omega
  case succ.zero => split_ifs <;> omega
  case succ.succ.zero => split_ifs <;> omega
  case succ.succ.succ => simp only [ite_self]

/-- The boundary of a quota, as a position in the order. -/
def boundaryPos (q : Quota) : Option Nat := if q.cb = 3 then none else orderPos q.dir q.cb q.bin

/-- The state before the boundary (R171, R502). -/
def fullState (s : State) (q : Quota) : Cell := if q.neg then (if fullBridge s then .minus else .zero) else .plus

/-- The state of a cell that has a quota for itself alone (R159, R162). -/
def leafState (s : State) (q : Quota) : Decision :=
  match orderPos q.dir s.rdl.cls s.rdl.bin, boundaryPos q with
  | some m, some b =>
    if m < b then ⟨fullState s q, false, 0⟩
    else if m = b ∧ 0 < q.q then
      (if q.frac = true ∧ q.q = 1 ∧ fullState s q ≠ .zero then ⟨fullState s q, true, tOn s q.fduty⟩ else ⟨fullState s q, false, 0⟩)
    else ⟨.zero, false, 0⟩
  | _, _ => ⟨.zero, false, 0⟩

/-- At the boundary such a cell is one, elsewhere none. -/
theorem countAt_ownHist (s : State) (q : Quota) (hbin : s.rdl.bin < 32) {m b : Nat} (hm : orderPos q.dir s.rdl.cls s.rdl.bin = some m)
    (hb : boundaryPos q = some b) : countAt q (ownHist s) = if m = b then 1 else 0 := by
  unfold boundaryPos at hb
  unfold countAt
  rw [hb]
  dsimp only
  rw [getD_ownHist s q.dir b hbin, hm]
  simp only [Option.some.injEq]

/-- The state of a cell at rank m from a boundary at b. -/
theorem cellState_ranked (s : State) (q : Quota) (share : Nat) (fr : Bool) {m b : Nat} (hm : orderPos q.dir s.rdl.cls s.rdl.bin = some m)
    (hb : boundaryPos q = some b) : cellState s q share fr =
      if m < b ∨ (m = b ∧ 0 < share) then
        if m = b ∧ fr = true then (if fullState s q = .zero then ⟨.zero, false, 0⟩ else ⟨fullState s q, true, tOn s q.fduty⟩) else ⟨fullState s q, false, 0⟩
      else ⟨.zero, false, 0⟩ := by
  unfold boundaryPos at hb
  unfold cellState
  rw [hb, hm]
  simp only [Bool.not_eq_true', ← Bool.not_eq_true, Bool.or_eq_true, Bool.and_eq_true, decide_eq_true_eq, beq_iff_eq, ite_not]
  rfl

/-- Without a rank or a boundary it is 0. -/
theorem cellState_unranked (s : State) (q : Quota) (share : Nat) (fr : Bool) (h : orderPos q.dir s.rdl.cls s.rdl.bin = none ∨ boundaryPos q = none) :
    cellState s q share fr = ⟨.zero, false, 0⟩ := by
  unfold boundaryPos at h
  unfold cellState
  rcases h with h | h
  · rw [h]
    cases (if q.cb = 3 then none else orderPos q.dir q.cb q.bin) <;> rfl
  · rw [h]
    rfl

/-- The one unit of a quota is the fraction when it carries FRAC (R162). -/
theorem loneFrac_one (q : Quota) (h : 0 < q.q) : loneFrac q 1 = true ↔ q.frac = true ∧ q.q = 1 := by
  have hmin : Nat.min q.q 1 = 1 := Nat.min_eq_right h
  rw [loneFrac, hmin, decide_eq_true (by decide), Bool.and_true, Bool.and_eq_true, beq_iff_eq]
  exact and_congr_right fun _ => eq_comm

/-- The one participant of a split takes its state by its rank, and by the quota at the boundary. -/
theorem cellState_lone (s : State) (q : Quota) (hbin : s.rdl.bin < 32) :
    cellState s q (Nat.min q.q (countAt q (ownHist s))) (loneFrac q (countAt q (ownHist s))) = leafState s q := by
  unfold leafState
  cases hm : orderPos q.dir s.rdl.cls s.rdl.bin with
  | none => exact cellState_unranked s q _ _ (.inl hm)
  | some m =>
    cases hb : boundaryPos q with
    | none => exact cellState_unranked s q _ _ (.inr hb)
    | some b =>
      rw [cellState_ranked s q _ _ hm hb, countAt_ownHist s q hbin hm hb]
      dsimp only
      by_cases hlt : m < b
      · rw [if_pos (.inl hlt), if_pos hlt, if_neg (fun h => absurd h.1 (by omega))]
      · by_cases heq : m = b
        · subst heq
          rw [if_pos rfl, if_neg hlt]
          by_cases h0 : 0 < q.q
          · have hfr := loneFrac_one q h0
            have hmin : Nat.min q.q 1 = 1 := Nat.min_eq_right h0
            have hin : m < m ∨ m = m ∧ 0 < Nat.min q.q 1 := .inr ⟨rfl, by rw [hmin]; decide⟩
            rw [if_pos hin, if_pos (show m = m ∧ 0 < q.q from ⟨rfl, h0⟩)]
            by_cases hf : loneFrac q 1 = true
            · obtain ⟨h1, h2⟩ := hfr.mp hf
              rw [if_pos (show m = m ∧ loneFrac q 1 = true from ⟨rfl, hf⟩)]
              by_cases hz : fullState s q = .zero
              · rw [if_pos hz, if_neg (fun h => h.2.2 hz), hz]
              · rw [if_neg hz, if_pos ⟨h1, h2, hz⟩]
            · rw [if_neg (show ¬ (m = m ∧ loneFrac q 1 = true) from fun h => hf h.2), if_neg fun h => hf (hfr.mpr ⟨h.1, h.2.1⟩)]
          · have hmin : Nat.min q.q 1 = 0 := by rw [Nat.eq_zero_of_not_pos h0]; rfl
            rw [if_neg (by rw [hmin]; omega), if_neg fun h => h0 h.2]
        · rw [if_neg (by omega), if_neg hlt, if_neg fun h => heq h.1]

/-! What deblocking and a DESCENT leave. -/

/-- The state of a cell reads its rank, FULLBRIDGE and the period. -/
theorem cellState_congr {s t : State} (q : Quota) (share : Nat) (fr : Bool) (h0 : reg t (rdlR 0x000) = reg s (rdlR 0x000)) (ht : t.tmk = s.tmk)
    (hc : t.rdl.cls = s.rdl.cls) (hb : t.rdl.bin = s.rdl.bin) : cellState t q share fr = cellState s q share fr := by
  have hfb : fullBridge t = fullBridge s := by rw [fullBridge, fullBridge, rb, rb, h0]
  have hton : tOn t q.fduty = tOn s q.fduty := by rw [tOn, tOn, periodLt, periodLt, ht]
  unfold cellState
  rw [hfb, hton, hc, hb]


theorem selNoted_rangeNote (s : State) (q : Quota) (share : Nat) (fr : Bool) (hq : notInjecting s = true) : SelNoted s (rangeNote s q share fr) := by
  unfold rangeNote
  split
  · exact (selNoted_flag s 8).trans (selNoted_report _ _ ((selNoted_flag s 8).only.quiet hq))
  · exact SelNoted.refl s

/-- A cell with FULLBRIDGE, or a quota that does not ask for -1, has nothing to note. -/
theorem rangeNote_allowed (s : State) (q : Quota) (share : Nat) (fr : Bool) (h : q.neg = false ∨ fullBridge s = true) : rangeNote s q share fr = s := by
  unfold rangeNote
  rcases h with h | h <;> rw [h]
  · rfl
  · rw [Bool.not_true, Bool.and_false]; rfl

theorem stateTake_mode (s : State) (q : Quota) (share : Nat) (fr : Bool) : modeOf (stateTake s q share fr) = modeOf s := by
  have hnote : modeOf (rangeNote s q share fr) = modeOf s := by
    unfold rangeNote
    split
    · rw [report_mode, modeOf_flag]
    · rfl
  rw [stateTake, modeOf_modRdl, hnote]

theorem SendsOnly.mode {s t : State} (h : SendsOnly s t) : modeOf t = modeOf s := by
  obtain ⟨l, c, b, rfl⟩ := h.frame
  rfl

theorem descentStored_mode (s : State) (q : Quota) : modeOf (descentStored s q) = modeOf s := (sendsOnly_splitSend s q).mode

/-- A DESCENT leaves the mode that deblocking has given. -/
theorem descentTaken_mode (s : State) (q : Quota) : modeOf (descentTaken s q) = modeOf s := by
  unfold descentTaken
  split
  · exact descentStored_mode s q
  · exact (stateTake_mode ..).trans (descentStored_mode s q)

/-- A leaf has its quota for itself alone. -/
theorem splitSend_leaf (s : State) (q : Quota) (hc : isCell s = true) (hd : downPorts s = []) :
    splitSend s q = (s, Nat.min q.q (countAt q (ownHist s)), loneFrac q (countAt q (ownHist s))) := by
  have hparts : splitParts s q = [(6, ownHist s)] := by
    rw [splitParts, hc, hd]
    rfl
  have hheld : holdSend s q = s := by
    rw [holdSend, hd]
    rfl
  rw [splitSend_eq, shareOf_alone s q 6 _ hparts, hparts, List.foldl_cons, List.foldl_nil, splitTo, if_pos rfl, hheld]

/-- What stands once a cell has taken its state. -/
theorem stateTake_takes (s : State) (q : Quota) (share : Nat) (fr : Bool) (hq : notInjecting s = true) :
    (stateTake s q share fr).rdl = stateTaken (cellState s q share fr) s.rdl ∧ RiddleOnly s (stateTake s q share fr) ∧
      (q.neg = false ∨ fullBridge s = true → ((stateTake s q share fr).regs, (stateTake s q share fr).flt) = (s.regs, s.flt)) := by
  have hnote := selNoted_rangeNote s q share fr hq
  have hcell : cellState (rangeNote s q share fr) q share fr = cellState s q share fr :=
    cellState_congr q share fr (hnote.regs 0x000 (by decide) (by decide)) hnote.only.tmk (by rw [hnote.rdl]) (by rw [hnote.rdl])
  refine ⟨?_, hnote.only.trans (riddleOnly_modRdl _ _), fun h => ?_⟩
  · rw [stateTake, modRdl_rdl, hnote.rdl, hcell]
  · rw [stateTake, rangeNote_allowed s q share fr h]
    rfl

/-- A leaf in RUN or DEGRADED takes its state by rank and quota. -/
theorem descentTaken_leaf (s : State) (q : Quota) (hq : notInjecting s = true) (hc : isCell s = true) (hd : downPorts s = []) (hr : running s = true)
    (hbin : s.rdl.bin < 32) :
    (descentTaken s q).rdl = stateTaken (leafState s q) (descentGot s.rdl) ∧ RiddleOnly s (descentTaken s q) ∧
      (q.neg = false ∨ fullBridge s = true → ((descentTaken s q).regs, (descentTaken s q).flt) = (s.regs, s.flt)) := by
  have hstored : descentStored s q = modRdl s descentGot := by rw [descentStored, splitSend_leaf s q hc hd]
  have htaken : descentTaken s q = stateTake (modRdl s descentGot) q (Nat.min q.q (countAt q (ownHist s))) (loneFrac q (countAt q (ownHist s))) := by
    rw [descentTaken, hstored, splitSend_leaf s q hc hd, running_modRdl, hr]
    rfl
  obtain ⟨hrdl, honly, hkeep⟩ := stateTake_takes (modRdl s descentGot) q (Nat.min q.q (countAt q (ownHist s))) (loneFrac q (countAt q (ownHist s))) hq
  have hcell : cellState (modRdl s descentGot) q (Nat.min q.q (countAt q (ownHist s))) (loneFrac q (countAt q (ownHist s))) = leafState s q :=
    (cellState_congr q _ _ rfl rfl rfl rfl).trans (cellState_lone s q hbin)
  rw [hcell] at hrdl
  rw [htaken]
  exact ⟨hrdl, (riddleOnly_modRdl s _).trans honly, hkeep⟩

/-! Deblocking. -/

theorem deblock_running (s : State) (h : running s = true) : deblock s = s := by
  refine if_pos fun hm => ?_
  rw [running, hm] at h
  exact absurd h (by decide)

theorem deblock_admits (s : State) (hm : modeOf s = .ready) (hq : quarHeld s = false) (ha : deblockAdmit s (enChans s) = true) : deblock s = setMode s .run := by
  rw [deblock, if_neg (not_not.mpr hm), if_neg (by rw [hq]; decide), if_pos ha]

theorem deblock_refuses (s : State) (hm : modeOf s = .ready) (hq : quarHeld s = false) (ha : deblockAdmit s (enChans s) = false) :
    deblock s = ledgerRefuse s := by
  rw [deblock, if_neg (not_not.mpr hm), if_neg (by rw [hq]; decide), if_neg (by rw [ha]; decide)]

/-- READY turns into RUN. -/
theorem setMode_run_mode (s : State) (h : modeOf s = .ready) : modeOf (setMode s .run) = .run := by
  obtain ⟨u, e⟩ := setMode_run s h
  rw [e]
  have hend := forcedEnd_frame (entered s .run u)
  dsimp only
  generalize forcedEnd (entered s .run u) = v at hend
  have hlock := (safLock_locks v (nodeId v)).1
  generalize safLock v (nodeId v) = w at hlock
  have hall := settleAll_offLoop w
  generalize settleAll w = x at hall
  have hx : x.sys = w.sys := congrArg (fun t => t.sys) hall
  have hw : w.sys = v.sys := congrArg (fun t => t.sys) hlock
  have hv : v.sys.mode = .run := congrArg (fun t => t.sys.mode) hend
  rw [modeOf, hx, hw, hv]

/-- A refusal of the ledger is flagged and reported, and the mode stands. -/
theorem ledgerRefuse_refuses (s : State) (hq : notInjecting s = true) : modeOf (ledgerRefuse s) = modeOf s ∧ rb (ledgerRefuse s) (supR 0x128) 2 = true ∧
    Reports s (ledgerRefuse s) 387 .ledgerRefuse (supR 0x128) := by
  have hflag : notInjecting (flag s (supR 0x128) 4) = true := notInjecting_of_reg (reg_flag_other _ _ _ _ (by decide)) hq
  rw [ledgerRefuse, report_quiet _ _ _ _ hflag]
  exact ⟨rfl, (rb_flag s (supR 0x128) 4 2 (by decide)).trans (Bool.or_eq_true_iff.mpr (.inr (by decide))), rfl⟩

/-- Outside RUN and DEGRADED a DESCENT leaves the other blocks' registers and the reports. -/
theorem descentTaken_idle (s : State) (q : Quota) (h : running s = false) :
    (∀ a, reg (descentTaken s q) a = reg s a) ∧ (descentTaken s q).flt = s.flt := by
  have hsends := sendsOnly_splitSend s q
  have hs := hsends.selection.2
  simp only [Prod.mk.injEq] at hs
  obtain ⟨-, -, -, hflt⟩ := hs
  have hrun : running (descentStored s q) = false := by rw [running, descentStored_mode]; exact h
  rw [descentTaken, hrun, Bool.not_false, if_pos rfl]
  exact ⟨hsends.reg, hflt⟩

/-! Holding. -/

/-- A leaf that holds holds for itself alone. -/
theorem descentHeld_leaf (s : State) (q : Quota) (hd : downPorts s = []) : descentHeld s q = holdTick s := by
  rw [descentHeld, hd]
  rfl

/-- What stands in a tick that is held. -/
theorem holdTick_holds (s : State) : (holdTick s).rdl.dec = (if running s then holdState s else none) ∧ (holdTick s).rdl.gotDesc = true ∧
    (holdTick s).rdl.holdRun = Nat.min 15 (s.rdl.holdRun + 1) ∧ { holdTick s with rdl := s.rdl } = s := ⟨rfl, rfl, rfl, rfl⟩

/-- The conditions under which a DESCENT is missing. -/
theorem descentMissed_eq (s : State) (hc : isCell s = true) : descentMissed s =
    if s.tmk.ticked = true ∧ s.rdl.gotDesc = false ∧ firstEdge s ≤ phaseOf s then report (flag (holdTick s) rdlStat 0x100) 129 .descentMissing rdlStat else s := by
  simp only [descentMissed, hc, Bool.true_and, Bool.and_eq_true, Bool.not_eq_true', decide_eq_true_eq, and_assoc]

/-- A missing DESCENT is held, flagged and reported (R165). -/
theorem descentMissed_holds (s : State) (hc : isCell s = true) (hq : notInjecting s = true) (ht : s.tmk.ticked = true) (hg : s.rdl.gotDesc = false)
    (hp : firstEdge s ≤ phaseOf s) :
    Reports s (descentMissed s) 129 .descentMissing rdlStat ∧ rb (descentMissed s) rdlStat 8 = true ∧ (descentMissed s).rdl = (holdTick s).rdl ∧
      RiddleOnly s (descentMissed s) := by
  have hflag : RiddleOnly s (flag (holdTick s) rdlStat 0x100) := (riddleOnly_modRdl s _).trans (riddleOnly_flag _ 0x004 0x100 (by decide))
  have honly := hflag.trans (riddleOnly_report _ 129 .descentMissing rdlStat (hflag.quiet hq))
  rw [descentMissed_eq s hc, if_pos ⟨ht, hg, hp⟩]
  refine ⟨?_, ?_, ?_, honly⟩ <;> rw [report_quiet _ _ _ _ (hflag.quiet hq)]
  · rfl
  · exact (rb_flag (holdTick s) rdlStat 0x100 8 (by decide)).trans (Bool.or_eq_true_iff.mpr (.inr (by decide)))
  · rfl

theorem descentMissed_waits (s : State) (hc : isCell s = true) (h : s.tmk.ticked = false ∨ s.rdl.gotDesc = true ∨ phaseOf s < firstEdge s) :
    descentMissed s = s := by
  rw [descentMissed_eq s hc, if_neg]
  rintro ⟨ht, hg, hp⟩
  rcases h with h | h | h
  · rw [ht] at h; exact absurd h (by decide)
  · rw [hg] at h; exact absurd h (by decide)
  · omega

/-- Settles O42: `descentTaken` and `descentHeld` are what a cell does with its DESCENT, and `cellState_lone` is the state that a leaf takes. -/
theorem cellTakesBinsAndShare : Obligations.CellTakesBinsAndShare := by
  unfold Obligations.CellTakesBinsAndShare
  intro p k s hr hc hq q m b full took mine
  refine ⟨fun d ht hk ha hp hseq hd had => answers_live rfl hr ?_, fun hm hd hrun hh hst _ hbin => answers_live rfl hr ?_,
    fun hm hd hh => answers_live rfl hr ?_, fun hm => answers_live rfl hr (descentIn_other hc hm), fun hm hh hmode hquar hadm => answers_live rfl hr ?_,
    fun hm hh hmode hquar hadm => answers_live rfl hr ?_, fun ht hg hp => answers_live rfl hr ?_, fun h => answers_live rfl hr (descentMissed_waits s hc h)⟩
  · -- BINS
    rw [hopIn_takes s 0x11 k _ (by rw [ht]; rfl) hk, binsIn_takes s p d k hc ha hp hseq hd had]
    exact ⟨rfl, (queued_enqueue_c1 _ d _ _ rfl).of_port rfl, fun r hne => portOf_enqueue_other _ _ _ _ _ hne, frame_enqueue_modRdl ..⟩
  · -- a leaf in RUN or DEGRADED
    rw [descentIn_mine hc hm, if_neg (by rw [show (quotaOf k.payload).hold = false from hh]; decide), deblock_running s hrun]
    obtain ⟨hrdl, honly, hkeep⟩ := descentTaken_leaf s q hq hc hd hrun hbin
    rw [show quotaOf k.payload = q from rfl, hrdl, honly.swg, honly.ports, honly.mem, honly.sys]
    exact ⟨stateTaken_dec _ _ hst, rfl, rfl, hkeep⟩
  · -- HOLD
    rw [descentIn_mine hc hm, if_pos hh, descentHeld_leaf s _ hd]
    exact holdTick_holds s
  · -- deblocking
    rw [descentIn_mine hc hm, if_neg (by rw [show (quotaOf k.payload).hold = false from hh]; decide), descentTaken_mode, deblock_admits s hmode hquar hadm]
    exact setMode_run_mode s hmode
  · -- a refusal of the ledger
    obtain ⟨hstay, hflag, hrep⟩ := ledgerRefuse_refuses s hq
    have hidle : running (ledgerRefuse s) = false := by rw [running, hstay, hmode]; rfl
    obtain ⟨hreg, hflt⟩ := descentTaken_idle (ledgerRefuse s) q hidle
    rw [descentIn_mine hc hm, if_neg (by rw [show (quotaOf k.payload).hold = false from hh]; decide), deblock_refuses s hmode hquar hadm, descentTaken_mode,
      rb, hreg, hflt, hrep]
    exact ⟨hstay.trans hmode, hflag, List.mem_append_right _ (List.mem_singleton_self _)⟩
  · -- a missing DESCENT
    obtain ⟨hrep, hflag, hrdl, honly⟩ := descentMissed_holds s hc hq ht hg hp
    obtain ⟨hdec, hgot, hrunc, -⟩ := holdTick_holds s
    rw [hrdl, honly.swg, honly.ports, honly.mem, honly.sys]
    exact ⟨hrep, hflag, hdec, hgot, hrunc, rfl⟩

end Sys2Proof.Machine
end

section
/-! SUPPORT. The gate commands of a leg: what a rise, a fall and the command of a leg change, and when an asked switch rises at once (R193 to R195). -/

namespace Sys2Proof.Machine

open Sys2Proof

/-! Sets of eight channels. -/

theorem has8_set8 (b : BitVec 8) (m n : Nat) (v : Bool) (hm : m < 8) : has8 (set8 b m v) n = if n = m then v else has8 b n := by
  have hbit : (1#8 <<< m).getLsbD n = decide (m = n) := by
    rw [show 1#8 <<< m = BitVec.twoPow 8 m from rfl, BitVec.getLsbD_twoPow, decide_eq_true hm, Bool.true_and]
  show (set8 b m v).getLsbD n = if n = m then v else b.getLsbD n
  by_cases hn : n < 8
  · have hne : decide (m = n) = decide (n = m) := decide_eq_decide.mpr eq_comm
    cases v with
    | true =>
      rw [set8, if_pos rfl, BitVec.getLsbD_or, hbit, hne]
      by_cases e : n = m <;> simp [e]
    | false =>
      rw [set8, if_neg (by decide), BitVec.getLsbD_and, BitVec.getLsbD_not, hbit, hne, decide_eq_true hn]
      by_cases e : n = m <;> simp [e]
  · rw [BitVec.getLsbD_of_ge _ _ (by omega), BitVec.getLsbD_of_ge _ _ (by omega), if_neg (by omega)]

theorem has8_set8_same (b : BitVec 8) (m : Nat) (v : Bool) (hm : m < 8) : has8 (set8 b m v) m = v := by
  rw [has8_set8 b m m v hm, if_pos rfl]

/-! One channel. -/

theorem gcmdFall_gcmd (g : Swg) (t d m : Nat) : (gcmdFall g t d m).gcmd = set8 g.gcmd m false := gcmdFall_low g t d m

theorem gcmdFall_want (g : Swg) (t d m : Nat) : (gcmdFall g t d m).want = g.want := by
  unfold gcmdFall
  split <;> rfl

/-- A channel that is low stays as it is. -/
theorem chFall_of_low (s : State) (m : Nat) (h : has8 s.swg.gcmd m = false) : chFall s m = s := by
  rw [chFall, modSwg, gcmdFall, if_neg (by rw [show s.swg.gcmd.toNat.testBit m = false from h]; decide)]

theorem chRise_gcmd (s : State) (m n : Nat) (hm : m < 8) : has8 (chRise s m).swg.gcmd n = (decide (n = m) || has8 s.swg.gcmd n) := by
  unfold chRise
  split
  next hhigh =>
    show has8 s.swg.gcmd n = _
    by_cases e : n = m
    · rw [e, hhigh, Bool.or_true]
    · rw [decide_eq_false e, Bool.false_or]
  next =>
    refine (has8_set8 _ m n true hm).trans ?_
    by_cases e : n = m <;> simp [e]

theorem chRise_frame (s : State) (m : Nat) : { chRise s m with swg := s.swg } = s := by
  unfold chRise
  split <;> rfl

theorem chRise_want (s : State) (m : Nat) : (chRise s m).swg.want = s.swg.want := by
  unfold chRise
  split <;> rfl

/-! One leg. -/

/-- What the command of a leg asks for, before a switch moves. -/
def legAsked (l : Nat) (up lo : Bool) (g : Swg) : Swg :=
  { g with shoot := g.shoot &&& ~~~ BitVec.ofNat 4 (2 ^ l), want := set8 (set8 g.want (2 * l) up) (2 * l + 1) lo
           waitOn := set8 (set8 g.waitOn (2 * l) up) (2 * l + 1) lo
           own := set8 (set8 g.own (2 * l + 1) (has8 g.own (2 * l + 1) || (has8 g.waitOn (2 * l) && !up))) (2 * l)
             (has8 g.own (2 * l) || (has8 g.waitOn (2 * l + 1) && !lo)) }

/-- A switch that is no longer asked for falls. -/
def fallUnless (on : Bool) (m : Nat) (s : State) : State := if on then s else chFall s m

/-- A switch that is asked for rises where R194 lets it. -/
def riseIf (on : Bool) (m : Nat) (s : State) : State := if on && mayRiseCh s m then chRise s m else s

/-- A leg of which at most one switch is asked first lets the other fall. -/
theorem legSet_eq (s : State) (l : Nat) (up lo : Bool) (h : (up && lo) = false) : legSet s l up lo =
    riseIf lo (2 * l + 1) (riseIf up (2 * l) (fallUnless lo (2 * l + 1) (fallUnless up (2 * l) (modSwg s (legAsked l up lo))))) := by
  unfold legSet
  dsimp only
  rw [h]
  rfl

/-- From s to t only the guard's own state has changed, and not what is asked of the switches. -/
structure ChannelMoved (s t : State) : Prop where
  frame : { t with swg := s.swg } = s
  want : t.swg.want = s.swg.want

theorem channelMoved_fallUnless (on : Bool) (m : Nat) (s : State) : ChannelMoved s (fallUnless on m s) := by
  unfold fallUnless
  split
  · exact ⟨rfl, rfl⟩
  · exact ⟨rfl, gcmdFall_want ..⟩

theorem channelMoved_riseIf (on : Bool) (m : Nat) (s : State) : ChannelMoved s (riseIf on m s) := by
  unfold riseIf
  split
  · exact ⟨chRise_frame s m, chRise_want s m⟩
  · exact ⟨rfl, rfl⟩

theorem ChannelMoved.trans {s t u : State} (a : ChannelMoved s t) (b : ChannelMoved t u) : ChannelMoved s u := by
  refine ⟨?_, b.want.trans a.want⟩
  calc { u with swg := s.swg } = { { u with swg := t.swg } with swg := s.swg } := rfl
    _ = { t with swg := s.swg } := by rw [b.frame]
    _ = s := a.frame

theorem fallUnless_gcmd (on : Bool) (m n : Nat) (s : State) (hm : m < 8) :
    has8 (fallUnless on m s).swg.gcmd n = if n = m then on && has8 s.swg.gcmd n else has8 s.swg.gcmd n := by
  unfold fallUnless
  cases on with
  | true => exact (ite_self _).symm
  | false =>
    show has8 (gcmdFall s.swg (now s) (fbTmo s) m).gcmd n = _
    rw [gcmdFall_gcmd, has8_set8 _ _ _ _ hm, Bool.false_and]

/-- A switch that is not asked for does not rise. -/
theorem riseIf_false (m : Nat) (s : State) : riseIf false m s = s := rfl

theorem riseIf_gcmd_other (on : Bool) (m n : Nat) (s : State) (hm : m < 8) (h : n ≠ m) : has8 (riseIf on m s).swg.gcmd n = has8 s.swg.gcmd n := by
  unfold riseIf
  split
  · rw [chRise_gcmd s m n hm, decide_eq_false h, Bool.false_or]
  · rfl

/-- What the command of a leg leaves: the switches it asks for, the others low, the other legs as they were (R193). -/
structure LegFollows (s t : State) (l : Nat) (up lo : Bool) : Prop where
  frame : { t with swg := s.swg } = s
  want : ∀ n, has8 t.swg.want n = if n = 2 * l + 1 then lo else if n = 2 * l then up else has8 s.swg.want n
  others : ∀ n, n ≠ 2 * l → n ≠ 2 * l + 1 → has8 t.swg.gcmd n = has8 s.swg.gcmd n
  upLow : up = false → has8 t.swg.gcmd (2 * l) = false
  loLow : lo = false → has8 t.swg.gcmd (2 * l + 1) = false

theorem legSet_follows (s : State) (l : Nat) (up lo : Bool) (hl : l < 4) (h : (up && lo) = false) : LegFollows s (legSet s l up lo) l up lo := by
  have ha : 2 * l < 8 := by omega
  have hb : 2 * l + 1 < 8 := by omega
  have hmoved : ChannelMoved (modSwg s (legAsked l up lo)) (legSet s l up lo) := by
    rw [legSet_eq s l up lo h]
    exact ((channelMoved_fallUnless ..).trans (channelMoved_fallUnless ..)).trans ((channelMoved_riseIf ..).trans (channelMoved_riseIf ..))
  refine ⟨?_, fun n => ?_, fun n hna hnb => ?_, fun hup => ?_, fun hlo => ?_⟩
  · exact congrArg (fun t => { t with swg := s.swg }) hmoved.frame
  · rw [hmoved.want]
    show has8 (set8 (set8 s.swg.want (2 * l) up) (2 * l + 1) lo) n = _
    rw [has8_set8 _ _ _ _ hb, has8_set8 _ _ _ _ ha]
  · rw [legSet_eq s l up lo h, riseIf_gcmd_other _ _ _ _ hb hnb, riseIf_gcmd_other _ _ _ _ ha hna, fallUnless_gcmd _ _ _ _ hb, if_neg hnb,
      fallUnless_gcmd _ _ _ _ ha, if_neg hna]
    rfl
  · rw [legSet_eq s l up lo h, hup, riseIf_gcmd_other _ _ _ _ hb (by omega), riseIf_false, fallUnless_gcmd _ _ _ _ hb, if_neg (by omega),
      fallUnless_gcmd _ _ _ _ ha, if_pos rfl, Bool.false_and]
  · rw [legSet_eq s l up lo h, hlo, riseIf_false, riseIf_gcmd_other _ _ _ _ ha (by omega), fallUnless_gcmd _ _ _ _ hb, if_pos rfl, Bool.false_and]

/-! The rise. -/

/-- Where no turn-on of the partner waits, the command of a leg leaves whether its upper switch may rise. -/
theorem mayRiseCh_legAsked (s : State) (l : Nat) (hl : l < 4) (hw : has8 s.swg.waitOn (2 * l + 1) = false) (h : mayRiseCh s (2 * l) = true) :
    mayRiseCh (modSwg s (legAsked l true false)) (2 * l) = true := by
  have hown : has8 (legAsked l true false s.swg).own (2 * l) = has8 s.swg.own (2 * l) := by
    rw [legAsked, has8_set8_same _ _ _ (by omega), hw, Bool.false_and, Bool.or_false]
  have hshoot : (legAsked l true false s.swg).shoot.toNat.testBit l = false := by
    show (s.swg.shoot &&& ~~~ BitVec.ofNat 4 (2 ^ l)).getLsbD l = false
    rw [BitVec.getLsbD_and, BitVec.getLsbD_not, BitVec.getLsbD_ofNat, Nat.testBit_two_pow_self, decide_eq_true hl]
    exact Bool.and_false _
  have hhalf : 2 * l / 2 = l := by omega
  unfold mayRiseCh at h ⊢
  simp only [Bool.and_eq_true, hhalf] at h ⊢
  obtain ⟨⟨⟨⟨hon, -⟩, hdead⟩, hwait⟩, hoff⟩ := h
  refine ⟨⟨⟨⟨hon, ?_⟩, hdead⟩, ?_⟩, hoff⟩
  · rw [modSwg_swg, hshoot]; rfl
  · rw [modSwg_swg, hown]; exact hwait

/-- Where R194 lets it, an asked upper switch rises at once. -/
theorem legSet_rises (s : State) (l : Nat) (hl : l < 4) (hw : has8 s.swg.waitOn (2 * l + 1) = false) (h : mayRiseCh s (2 * l) = true) :
    has8 (legSet s l true false).swg.gcmd (2 * l) = true := by
  have hpartner : partnerCh (2 * l) = 2 * l + 1 := if_pos (by omega)
  have hlow : has8 s.swg.gcmd (2 * l + 1) = false := by
    unfold mayRiseCh at h
    simp only [Bool.and_eq_true, Bool.not_eq_true', hpartner] at h
    obtain ⟨⟨⟨⟨⟨-, hlow⟩, -⟩, -⟩, -⟩, -⟩ := h
    exact hlow
  rw [legSet_eq s l true false rfl, riseIf_false]
  have hstay : fallUnless false (2 * l + 1) (fallUnless true (2 * l) (modSwg s (legAsked l true false))) = modSwg s (legAsked l true false) :=
    chFall_of_low _ _ hlow
  rw [hstay, riseIf, mayRiseCh_legAsked s l hl hw h, Bool.and_self, if_pos rfl, chRise_gcmd _ _ _ (by omega), decide_eq_true rfl, Bool.true_or]

end Sys2Proof.Machine
end

section
/-! SUPPORT. A state that a cell takes: the legs, and the edge of a decision (R177 to R182). -/

namespace Sys2Proof.Machine

open Sys2Proof

/-! The switches of a state. -/

/-- No state asks for both switches of leg A, and none for both of leg B (Table 6-1). -/
theorem legA_apart (full : Bool) (c : Cell) : ((legA full c).1 && (legA full c).2) = false := by
  cases c <;> cases full <;> rfl

theorem legB_apart (full : Bool) (c : Cell) : ((legB full c).1 && (legB full c).2) = false := by
  cases c <;> cases full <;> rfl

theorem LegFollows.legWant {s t : State} {l : Nat} {up lo : Bool} (h : LegFollows s t l up lo) : legWant t l = (up, lo) := by
  rw [Machine.legWant, h.want, h.want, if_neg (by omega), if_pos rfl, if_pos rfl]

theorem LegFollows.legWant_other {s t : State} {l : Nat} {up lo : Bool} (h : LegFollows s t l up lo) {k : Nat} (hk : k ≠ l) :
    Machine.legWant t k = Machine.legWant s k := by
  rw [Machine.legWant, h.want, h.want, if_neg (by omega), if_neg (by omega), if_neg (by omega), if_neg (by omega)]
  rfl

theorem LegFollows.rdl {s t : State} {l : Nat} {up lo : Bool} (h : LegFollows s t l up lo) : t.rdl = s.rdl := (congrArg State.rdl h.frame :)

/-! A state is taken. -/

/-- What an edge leaves as it was, besides registers. -/
def edgePart (s : State) := (s.mem, s.ports, s.sys, s.flt, s.saf)

/-- The record of a state that the cell takes. -/
def cellTaken (c : Cell) (fr : Bool) (r : Rdl) : Rdl := { r with state := c, fracNow := fr, legB := none }

/-- A cell with its state on leg A. -/
def legATaken (s : State) (c : Cell) (fr : Bool) : State := legSet (modRdl s (cellTaken c fr)) 0 (legA (fullBridge s) c).1 (legA (fullBridge s) c).2

/-- Leg B waits where both legs move and LEG_GAP is not 0, else it follows at once (R178). -/
theorem cellTake_eq (s : State) (c : Cell) (fr : Bool) : cellTake s c fr =
    if (legWant s 0 != legA (fullBridge s) c && legWant s 1 != legB (fullBridge s) c) && legGap (legATaken s c fr) != 0 then
      modRdl (legATaken s c fr) fun r => { r with legB := some c }
    else legSet (legATaken s c fr) 1 (legB (fullBridge s) c).1 (legB (fullBridge s) c).2 := rfl

theorem legATaken_follows (s : State) (c : Cell) (fr : Bool) :
    LegFollows (modRdl s (cellTaken c fr)) (legATaken s c fr) 0 (legA (fullBridge s) c).1 (legA (fullBridge s) c).2 :=
  legSet_follows _ 0 _ _ (by decide) (legA_apart _ _)

/-- The cell holds a state: its record and leg A say so, and nothing but leg B has still to move. -/
structure Takes (s t : State) (c : Cell) (fr : Bool) : Prop where
  frame : { t with rdl := s.rdl, swg := s.swg } = s
  rdl : ∃ b, t.rdl = { s.rdl with state := c, fracNow := fr, legB := b }
  want : legWant t 0 = legA (fullBridge s) c
  gcmd : ∀ m, m < 2 → has8 t.swg.gcmd m = has8 (legATaken s c fr).swg.gcmd m

theorem cellTake_takes (s : State) (c : Cell) (fr : Bool) : Takes s (cellTake s c fr) c fr := by
  have hA := legATaken_follows s c fr
  have hB : LegFollows (legATaken s c fr) (legSet (legATaken s c fr) 1 (legB (fullBridge s) c).1 (legB (fullBridge s) c).2) 1 _ _ :=
    legSet_follows _ 1 _ _ (by decide) (legB_apart _ _)
  have hframe : { legATaken s c fr with rdl := s.rdl, swg := s.swg } = s := (congrArg (fun t => { t with rdl := s.rdl }) hA.frame :)
  rw [cellTake_eq]
  split
  · -- leg B waits
    refine ⟨hframe, ⟨some c, ?_⟩, hA.legWant, fun m _ => rfl⟩
    rw [modRdl_rdl, hA.rdl]
    rfl
  · -- leg B follows at once
    refine ⟨?_, ⟨none, hB.rdl.trans hA.rdl⟩, (hB.legWant_other (by decide)).trans hA.legWant, fun m hm => hB.others m (by omega) (by omega)⟩
    exact (congrArg (fun t => { t with rdl := s.rdl, swg := s.swg }) hB.frame :).trans hframe

theorem Takes.part {s t : State} {c : Cell} {fr : Bool} (h : Takes s t c fr) : edgePart t = edgePart s := (congrArg edgePart h.frame :)

theorem Takes.regs {s t : State} {c : Cell} {fr : Bool} (h : Takes s t c fr) : t.regs = s.regs := (congrArg State.regs h.frame :)

theorem Takes.reg {s t : State} {c : Cell} {fr : Bool} (h : Takes s t c fr) (a : Nat) : reg t a = reg s a := (congrArg (fun u => Machine.reg u a) h.frame :)

theorem Takes.tickStart {s t : State} {c : Cell} {fr : Bool} (h : Takes s t c fr) : now t - phaseOf t = now s - phaseOf s :=
  (congrArg (fun u => now u - phaseOf u) h.frame :)

/-- A switch of leg A that the state does not ask for is low. -/
theorem cellTake_upLow (s : State) (c : Cell) (fr : Bool) (h : (legA (fullBridge s) c).1 = false) : has8 (cellTake s c fr).swg.gcmd 0 = false :=
  ((cellTake_takes s c fr).gcmd 0 (by decide)).trans ((legATaken_follows s c fr).upLow h)

theorem cellTake_loLow (s : State) (c : Cell) (fr : Bool) (h : (legA (fullBridge s) c).2 = false) : has8 (cellTake s c fr).swg.gcmd 1 = false :=
  ((cellTake_takes s c fr).gcmd 1 (by decide)).trans ((legATaken_follows s c fr).loLow h)

/-- The upper switch of leg A rises with +1 where R194 lets it. -/
theorem cellTake_rises (s : State) (fr : Bool) (hw : has8 s.swg.waitOn 1 = false) (h : mayRiseCh s 0 = true) :
    has8 (cellTake s .plus fr).swg.gcmd 0 = true :=
  ((cellTake_takes s .plus fr).gcmd 0 (by decide)).trans (legSet_rises (modRdl s (cellTaken .plus fr)) 0 (by decide) hw h)

/-! The edge of a decision. -/

/-- The record without a pulse. -/
def pulseNone (r : Rdl) : Rdl := { r with pulse := none }

theorem edgeTake_whole (s : State) (c : Cell) (ton : Nat) : edgeTake s ⟨c, false, ton⟩ = cellTake (modRdl s pulseNone) c false := rfl

/-- A fraction too short for a pulse is 0 and is marked (R181). -/
theorem edgeTake_short (s : State) (c : Cell) (ton : Nat) (h : pulseShape s (edgePhase s) ton = none) :
    edgeTake s ⟨c, true, ton⟩ = cellTake (flag (modRdl s pulseNone) edgeStat 2) .zero false := by
  have hshape : pulseShape (modRdl s pulseNone) (edgePhase (modRdl s pulseNone)) ton = none := h
  unfold edgeTake
  dsimp only
  rw [show modRdl s (fun r => { r with pulse := none }) = modRdl s pulseNone from rfl, hshape]
  rfl

/-- A fraction with a pulse takes its state, and the off edge is set (R180 to R182). -/
theorem edgeTake_pulse (s : State) (c : Cell) (ton len : Nat) (clip dfr : Bool) (h : pulseShape s (edgePhase s) ton = some (len, clip, dfr)) :
    edgeTake s ⟨c, true, ton⟩ =
      modRdl (cellTake (modRdl s pulseNone) c true) fun r => { r with pulse := some ⟨now s - phaseOf s + edgePhase s + len, len, clip, dfr⟩ } := by
  have hshape : pulseShape (modRdl s pulseNone) (edgePhase (modRdl s pulseNone)) ton = some (len, clip, dfr) := h
  have hstart := (cellTake_takes (modRdl s pulseNone) c true).tickStart
  unfold edgeTake
  dsimp only
  rw [show modRdl s (fun r => { r with pulse := none }) = modRdl s pulseNone from rfl, hshape]
  dsimp only [Bool.not_true, Bool.false_eq_true, if_false]
  rw [hstart]
  rfl

end Sys2Proof.Machine
end

section
/-! SUPPORT. What the edge instant, leg B, the off edge and an INSERT do, and the shape of a pulse (R177 to R189). -/

namespace Sys2Proof.Machine

open Sys2Proof

/-! The edge instant. -/

/-- The edge of this tick has been placed. -/
def edgePlaced (r : Rdl) : Rdl := { r with edgeDone := true }

/-- The decision has been taken. -/
def edgeDecided (r : Rdl) : Rdl := { r with dec := none }

/-- What the edge instant does once the edge is placed: the decision in RUN and DEGRADED, a forced state in READY. -/
def edgeAct (s : State) : State :=
  if running s then
    match s.rdl.dec with
    | some d => modRdl (edgeTake s d) edgeDecided
    | none => s
  else if modeOf s = .ready then forcedEdge s
  else s

theorem edgeInstant_waits (s : State) (h : s.rdl.edgeDone = true ∨ phaseOf s < edgePhase s) : edgeInstant s = s := by
  unfold edgeInstant
  rw [if_pos]
  rcases h with h | h <;> simp [h]

theorem edgeInstant_due (s : State) (hc : isCell s = true) (he : s.rdl.edgeDone = false) (hp : edgePhase s ≤ phaseOf s) :
    edgeInstant s = edgeAct (modRdl (descentMissed s) edgePlaced) := by
  have hdue : (!isCell s || s.rdl.edgeDone || decide (phaseOf s < edgePhase s)) = false := by simp [hc, he, hp]
  unfold edgeInstant
  rw [hdue]
  rfl

/-- With its DESCENT in, nothing is missing. -/
theorem edgeInstant_got (s : State) (hc : isCell s = true) (he : s.rdl.edgeDone = false) (hp : edgePhase s ≤ phaseOf s) (hg : s.rdl.gotDesc = true) :
    edgeInstant s = edgeAct (modRdl s edgePlaced) := by
  rw [edgeInstant_due s hc he hp, descentMissed_waits s hc (.inr (.inl hg))]

theorem edgeAct_decides (s : State) (d : Decision) (hr : running s = true) (hd : s.rdl.dec = some d) :
    edgeAct s = modRdl (edgeTake s d) edgeDecided := by
  rw [edgeAct, if_pos hr, hd]

theorem edgeAct_ready (s : State) (hm : modeOf s = .ready) : edgeAct s = forcedEdge s := by
  rw [edgeAct, if_neg (by rw [running, hm]; decide), if_pos hm]

/-! What an edge leaves. -/

/-- From s to t an edge may change RDL_EDGE_STAT, the guard and the cell's own record, and the edge instant stays placed. -/
structure EdgeOnly (s t : State) : Prop where
  part : edgePart t = edgePart s
  regs : ∀ a, a ≠ edgeStat → reg t a = reg s a
  tick : (t.rdl.edgeDone, t.rdl.gotDesc) = (s.rdl.edgeDone, s.rdl.gotDesc)

theorem EdgeOnly.trans {s t u : State} (a : EdgeOnly s t) (b : EdgeOnly t u) : EdgeOnly s u :=
  ⟨b.part.trans a.part, fun x hx => (b.regs x hx).trans (a.regs x hx), b.tick.trans a.tick⟩

theorem edgeOnly_modRdl (s : State) (f : Rdl → Rdl) (h : ((f s.rdl).edgeDone, (f s.rdl).gotDesc) = (s.rdl.edgeDone, s.rdl.gotDesc)) :
    EdgeOnly s (modRdl s f) := ⟨rfl, fun _ _ => rfl, h⟩

theorem edgeOnly_flag (s : State) (m : Nat) : EdgeOnly s (flag s edgeStat m) := ⟨rfl, fun a ha => reg_flag_other s _ m a ha, rfl⟩

theorem edgeOnly_cellTake (s : State) (c : Cell) (fr : Bool) : EdgeOnly s (cellTake s c fr) := by
  have ht := cellTake_takes s c fr
  obtain ⟨b, hrdl⟩ := ht.rdl
  exact ⟨ht.part, fun a _ => ht.reg a, by rw [hrdl]⟩

theorem edgeOnly_edgeTake (s : State) (d : Decision) : EdgeOnly s (edgeTake s d) := by
  obtain ⟨c, fr, ton⟩ := d
  have hnone : EdgeOnly s (modRdl s pulseNone) := edgeOnly_modRdl s _ rfl
  cases fr with
  | false => exact hnone.trans (edgeOnly_cellTake ..)
  | true =>
    cases hshape : pulseShape s (edgePhase s) ton with
    | none =>
      rw [edgeTake_short s c ton hshape]
      exact (hnone.trans (edgeOnly_flag ..)).trans (edgeOnly_cellTake ..)
    | some p =>
      obtain ⟨len, clip, dfr⟩ := p
      rw [edgeTake_pulse s c ton len clip dfr hshape]
      exact (hnone.trans (edgeOnly_cellTake ..)).trans (edgeOnly_modRdl _ _ rfl)

/-! Forced states. -/

/-- The record of a forced state that starts or goes on for one edge instant less. -/
def forcedGoes (f : Forced) (r : Rdl) : Rdl := { r with forced := some ⟨f.st, f.left - 1⟩ }

/-- The record of one that starts. -/
def forcedStarts (f : Forced) (r : Rdl) : Rdl := { r with forced := some ⟨f.st, f.left - 1⟩, forceNow := none }

/-- The record of one that ends. -/
def forcedEnds (r : Rdl) : Rdl := { r with forced := none }

theorem forcedEdge_starts (s : State) (f : Forced) (h : s.rdl.forceNow = some f) :
    forcedEdge s = cellTake (modRdl s (forcedStarts f)) f.st false := by
  rw [forcedEdge, h]
  rfl

theorem forcedEdge_goes (s : State) (f : Forced) (hn : s.rdl.forceNow = none) (h : s.rdl.forced = some f) (hl : f.left ≠ 0) :
    forcedEdge s = cellTake (modRdl s (forcedGoes f)) f.st false := by
  rw [forcedEdge, hn, h]
  exact if_neg hl

theorem forcedEdge_ends (s : State) (f : Forced) (hn : s.rdl.forceNow = none) (h : s.rdl.forced = some f) (hl : f.left = 0) :
    forcedEdge s = cellTake (modRdl s forcedEnds) .blocked false := by
  rw [forcedEdge, hn, h]
  exact if_pos hl

theorem forcedEdge_none (s : State) (hn : s.rdl.forceNow = none) (h : s.rdl.forced = none) : forcedEdge s = s := by
  rw [forcedEdge, hn, h]

theorem edgeOnly_forcedEdge (s : State) : EdgeOnly s (forcedEdge s) := by
  cases hn : s.rdl.forceNow with
  | some f =>
    rw [forcedEdge_starts s f hn]
    exact (edgeOnly_modRdl s _ rfl).trans (edgeOnly_cellTake ..)
  | none =>
    cases h : s.rdl.forced with
    | none =>
      rw [forcedEdge_none s hn h]
      exact ⟨rfl, fun _ _ => rfl, rfl⟩
    | some f =>
      by_cases hl : f.left = 0
      · rw [forcedEdge_ends s f hn h hl]
        exact (edgeOnly_modRdl s _ rfl).trans (edgeOnly_cellTake ..)
      · rw [forcedEdge_goes s f hn h hl]
        exact (edgeOnly_modRdl s _ rfl).trans (edgeOnly_cellTake ..)

theorem edgeOnly_edgeAct (s : State) : EdgeOnly s (edgeAct s) := by
  have hrefl : EdgeOnly s s := ⟨rfl, fun _ _ => rfl, rfl⟩
  unfold edgeAct
  split
  · split
    · exact (edgeOnly_edgeTake s _).trans (edgeOnly_modRdl _ _ rfl)
    · exact hrefl
  · split
    · exact edgeOnly_forcedEdge s
    · exact hrefl

/-! Leg B. -/

/-- The record once leg B has followed. -/
def legBGone (r : Rdl) : Rdl := { r with legB := none }

/-- Leg B follows a state. -/
def legBFollow (s : State) (c : Cell) : State := legSet (modRdl s legBGone) 1 (legB (fullBridge s) c).1 (legB (fullBridge s) c).2

theorem legBFollow_follows (s : State) (c : Cell) :
    LegFollows (modRdl s legBGone) (legBFollow s c) 1 (legB (fullBridge s) c).1 (legB (fullBridge s) c).2 :=
  legSet_follows _ 1 _ _ (by decide) (legB_apart _ _)

/-- LEG_GAP after the edge instant leg B moves to the state it waits for, else nothing happens (R178). -/
theorem execLegBEdge_follows (s : State) (c : Cell) (hr : s.sys.inReset = false) (hb : s.rdl.legB = some c)
    (hp : edgePhase s + legGap s ≤ phaseOf s) : execLegBEdge s = .next (legBFollow s c) := by
  rw [execLegBEdge, live_of_run s _ hr, hb]
  dsimp only
  rw [if_pos hp]
  rfl

theorem execLegBEdge_waits (s : State) (hr : s.sys.inReset = false) (h : s.rdl.legB = none ∨ phaseOf s < edgePhase s + legGap s) :
    execLegBEdge s = .next s := by
  rw [execLegBEdge, live_of_run s _ hr]
  cases hb : s.rdl.legB with
  | none => rfl
  | some c =>
    dsimp only
    rw [if_neg]
    exact Nat.not_le.mpr (h.resolve_left (by rw [hb]; exact Option.some_ne_none c))

/-! The off edge of a pulse. -/

/-- Bits of RDL_EDGE_STAT are set on a condition. -/
def edgeMark (on : Bool) (m : Nat) (s : State) : State := whenB on (fun s => flag s edgeStat m) s

/-- A pulse that was limited or moved is marked. -/
def pulseMarked (s : State) (p : Pulse) : State := edgeMark p.defer 4 (edgeMark p.clip 2 s)

/-- The end of a pulse: the state 0, its marks and T_ON_LAST. -/
def pulseEnd (s : State) (p : Pulse) : State := setRf (pulseMarked (cellTake (modRdl s pulseNone) .zero false) p) edgeStat 31 16 p.ton

theorem execFracOffEdge_ends (s : State) (p : Pulse) (hr : s.sys.inReset = false) (h : s.rdl.pulse = some p) (hp : p.offAt ≤ now s) :
    execFracOffEdge s = .next (pulseEnd s p) := by
  rw [execFracOffEdge, live_of_run s _ hr, h]
  dsimp only
  rw [if_pos hp]
  rfl

theorem execFracOffEdge_waits (s : State) (hr : s.sys.inReset = false) (h : ∀ p, s.rdl.pulse = some p → now s < p.offAt) :
    execFracOffEdge s = .next s := by
  rw [execFracOffEdge, live_of_run s _ hr]
  cases hp : s.rdl.pulse with
  | none => rfl
  | some p =>
    dsimp only
    rw [if_neg (Nat.not_le.mpr (h p hp))]

theorem edgeMark_keeps (on : Bool) (m : Nat) (s : State) :
    edgePart (edgeMark on m s) = edgePart s ∧ (edgeMark on m s).rdl = s.rdl ∧ (edgeMark on m s).swg = s.swg := by
  cases on <;> exact ⟨rfl, rfl, rfl⟩

theorem rb_edgeMark (on : Bool) (m i : Nat) (s : State) (hi : i < 32) : rb (edgeMark on m s) edgeStat i = (rb s edgeStat i || (on && m.testBit i)) := by
  cases on with
  | true => exact rb_flag s edgeStat m i hi
  | false => exact (Bool.or_false _).symm

/-- The marks of a pulse set bits of RDL_EDGE_STAT and change nothing else. -/
theorem pulseMarked_marks (s : State) (p : Pulse) : edgePart (pulseMarked s p) = edgePart s ∧ (pulseMarked s p).rdl = s.rdl ∧ (pulseMarked s p).swg = s.swg ∧
    (p.clip = true → rb (pulseMarked s p) edgeStat 1 = true) ∧ (p.defer = true → rb (pulseMarked s p) edgeStat 2 = true) := by
  obtain ⟨hpart, hrdl, hswg⟩ := edgeMark_keeps p.clip 2 s
  obtain ⟨hpart', hrdl', hswg'⟩ := edgeMark_keeps p.defer 4 (edgeMark p.clip 2 s)
  refine ⟨hpart'.trans hpart, hrdl'.trans hrdl, hswg'.trans hswg, fun h => ?_, fun h => ?_⟩
  · rw [pulseMarked, rb_edgeMark _ _ _ _ (by decide), rb_edgeMark _ _ _ _ (by decide), h, Bool.true_and, show Nat.testBit 2 1 = true from rfl,
      Bool.or_true, Bool.true_or]
  · rw [pulseMarked, rb_edgeMark _ _ _ _ (by decide), h, Bool.true_and, show Nat.testBit 4 2 = true from rfl, Bool.or_true]

/-! The shape of a pulse. -/

/-- The starts of the edge windows, one period late (R182). -/
def windowStarts (s : State) : List Nat :=
  (List.range (nSlot s)).flatMap fun k => (if legGap s = 0 then [0] else [0, legGap s]).map fun g => firstEdge s + k * stagger s + g + periodLt s - 10

theorem mem_windowStarts (s : State) (w : Nat) : w ∈ windowStarts s ↔
    ∃ k g, k < nSlot s ∧ (g = 0 ∨ g = legGap s) ∧ w = firstEdge s + k * stagger s + g + periodLt s - 10 := by
  have hgaps : ∀ g, g ∈ (if legGap s = 0 then [0] else [0, legGap s]) ↔ g = 0 ∨ g = legGap s := fun g => by
    split
    next h => rw [h, or_self, List.mem_singleton]
    next => rw [List.mem_cons, List.mem_singleton]
  simp only [windowStarts, List.mem_flatMap, List.mem_range, List.mem_map, hgaps, ← exists_and_left, eq_comm (a := w)]

/-- How far an edge at a phase lies in the window from a start. -/
def intoWindow (s : State) (at_ w : Nat) : Nat := (at_ + periodLt s * 4 - w) % periodLt s

/-- The first window that an off edge falls in. -/
def windowHit (s : State) (at_ : Nat) : Option Nat := (windowStarts s).find? fun w => decide (intoWindow s at_ w ≤ edgeSpan s + 20)

/-- A pulse of at least MIN_ON is limited, and moved to the end of a window that its off edge would fall in. -/
theorem pulseShape_eq (s : State) (te t : Nat) : pulseShape s te t =
    if t < minOn s then none
    else
      let t1 := Nat.min t (periodLt s - minOff s)
      match windowHit s (te + t1) with
      | some w => some (t1 + (edgeSpan s + 20 - intoWindow s (te + t1) w), decide (periodLt s - minOff s < t), true)
      | none => some (t1, decide (periodLt s - minOff s < t), false) := rfl

theorem windowHit_none (s : State) (at_ : Nat) (h : windowHit s at_ = none) (w : Nat) (hw : w ∈ windowStarts s) : edgeSpan s + 20 < intoWindow s at_ w := by
  have hno := List.find?_eq_none.mp h w hw
  rw [decide_eq_true_eq] at hno
  exact Nat.not_le.mp hno

theorem windowHit_some (s : State) (at_ w : Nat) (h : windowHit s at_ = some w) : w ∈ windowStarts s ∧ intoWindow s at_ w ≤ edgeSpan s + 20 :=
  ⟨List.mem_of_find?_eq_some h, of_decide_eq_true (List.find?_some h :)⟩

/-- There is no pulse exactly below MIN_ON (R181). -/
theorem pulseShape_none (s : State) (te t : Nat) : t < minOn s ↔ pulseShape s te t = none := by
  rw [pulseShape_eq]
  by_cases h : t < minOn s
  · rw [if_pos h]
    exact iff_of_true h rfl
  · rw [if_neg h]
    refine iff_of_false h ?_
    dsimp only
    split <;> exact Option.some_ne_none _

/-- A pulse keeps its limited length outside the windows, or ends with one of them (R181, R182). -/
theorem pulseShape_some (s : State) (te t x : Nat) (clip dfr : Bool) (h : pulseShape s te t = some (x, clip, dfr)) :
    clip = decide (periodLt s - minOff s < t) ∧
      (dfr = false → x = Nat.min t (periodLt s - minOff s) ∧
        ∀ w ∈ windowStarts s, edgeSpan s + 20 < intoWindow s (te + Nat.min t (periodLt s - minOff s)) w) ∧
      (dfr = true → ∃ w ∈ windowStarts s, intoWindow s (te + Nat.min t (periodLt s - minOff s)) w ≤ edgeSpan s + 20 ∧
        x = Nat.min t (periodLt s - minOff s) + (edgeSpan s + 20 - intoWindow s (te + Nat.min t (periodLt s - minOff s)) w)) := by
  have hlong : ¬ t < minOn s := fun hlt => by
    rw [(pulseShape_none s te t).mp hlt] at h
    exact Option.some_ne_none _ h.symm
  rw [pulseShape_eq, if_neg hlong] at h
  dsimp only at h
  split at h
  next w hhit =>
    simp only [Option.some.injEq, Prod.mk.injEq] at h
    obtain ⟨rfl, rfl, rfl⟩ := h
    obtain ⟨hw, hin⟩ := windowHit_some s _ w hhit
    exact ⟨rfl, fun hf => absurd hf (by decide), fun _ => ⟨w, hw, hin, rfl⟩⟩
  next hmiss =>
    simp only [Option.some.injEq, Prod.mk.injEq] at h
    obtain ⟨rfl, rfl, rfl⟩ := h
    exact ⟨rfl, fun _ => ⟨rfl, windowHit_none s _ hmiss⟩, fun hf => absurd hf (by decide)⟩

/-! INSERT. -/

/-- An INSERT for index 0 of this node. -/
def InsertMine (s : State) (k : Packet) : Prop := isOwn s k.dest = true ∧ k.typ = 0x13 ∧ packetOk k = true ∧ epOf k.dest = 0

/-- What an INSERT does here. -/
def insertHere (s : State) (k : Packet) : State := ownIn s [0x13] k fun s => if epOf k.dest = 0 then insertIn s k else s

theorem insertHere_mine (s : State) (k : Packet) (h : InsertMine s k) : insertHere s k = insertIn s k := by
  obtain ⟨ho, ht, hk, he⟩ := h
  rw [insertHere, ownIn_takes s [0x13] k _ ho (by rw [ht]; rfl) hk, if_pos he]

theorem insertHere_other (s : State) (k : Packet) (h : ¬ InsertMine s k) : insertHere s k = s := by
  unfold insertHere ownIn
  split
  next hin =>
    simp only [Bool.and_eq_true, List.contains_cons, List.contains_nil, Bool.or_false, beq_iff_eq] at hin
    obtain ⟨⟨ho, ht⟩, hk⟩ := hin
    exact if_neg fun he => h ⟨ho, BitVec.eq_of_toNat_eq ht, hk, he⟩
  next => rfl

/-- The conditions under which an INSERT that names a state is considered (R187). -/
def InsertAllowed (s : State) (k : Packet) (c : Cell) : Prop :=
  modeOf s = .ready ∧ rb s (rdlR 0x054) 0 = true ∧ fld (k.payload.getD 0 0) 15 8 ≠ 0 ∧ (c ≠ .minus ∨ fullBridge s = true)

/-- The channels that a state needs, and that are enabled. -/
def insertChans (s : State) (c : Cell) : List Nat := (stateChans (fullBridge s) c).filter (chOn s)

/-- The record of an INSERT that is accepted. -/
def insertKept (c : Cell) (k : Packet) (r : Rdl) : Rdl := { r with forceNew := some ⟨c, fld (k.payload.getD 0 0) 15 8⟩ }

theorem insertIn_allowed (s : State) (k : Packet) (c : Cell) (hc : isCell s = true) (hn : insertCell (fld (k.payload.getD 0 0) 31 29) = some c)
    (ha : InsertAllowed s k c) :
    insertIn s k = if deblockAdmit s (insertChans s c) then modRdl s (insertKept c k) else insertRefuse (ledgerRefuse s) := by
  unfold insertIn
  dsimp only
  rw [hc, hn]
  exact if_pos ha

theorem insertIn_refused (s : State) (k : Packet) (hc : isCell s = true)
    (h : ∀ c, insertCell (fld (k.payload.getD 0 0) 31 29) = some c → ¬ InsertAllowed s k c) : insertIn s k = insertRefuse s := by
  unfold insertIn
  dsimp only
  rw [hc]
  cases hn : insertCell (fld (k.payload.getD 0 0) 31 29) with
  | none => rfl
  | some c => exact if_neg (h c hn)

/-- A refused INSERT is flagged and reported, and the cell's record and the guard stand (R187). -/
theorem insertRefuse_refuses (s : State) (hq : notInjecting s = true) : Reports s (insertRefuse s) 130 .insertRefused (rdlR 0x058) ∧
    rb (insertRefuse s) (rdlR 0x058) 0 = true ∧ (insertRefuse s).rdl = s.rdl ∧ (insertRefuse s).swg = s.swg := by
  have hflag : notInjecting (flag s edgeStat 1) = true := notInjecting_of_reg (reg_flag_other _ _ _ _ (by decide)) hq
  rw [insertRefuse, report_quiet _ _ _ _ hflag]
  exact ⟨rfl, (rb_flag s edgeStat 1 0 (by decide)).trans (Bool.or_eq_true_iff.mpr (.inr (by decide))), rfl, rfl⟩

theorem ledgerRefuse_cell (s : State) (hq : notInjecting s = true) : (ledgerRefuse s).rdl = s.rdl ∧ (ledgerRefuse s).swg = s.swg ∧
    now (ledgerRefuse s) = now s ∧ notInjecting (ledgerRefuse s) = true := by
  have hflag : notInjecting (flag s (supR 0x128) 4) = true := notInjecting_of_reg (reg_flag_other _ _ _ _ (by decide)) hq
  rw [ledgerRefuse, report_quiet _ _ _ _ hflag]
  exact ⟨rfl, rfl, rfl, hflag⟩

end Sys2Proof.Machine
end

section
/-! SUPPORT. The rows of the edge instant, leg B, the off edge and INSERT, and O43 (R177 to R189). -/

namespace Sys2Proof.Machine

open Sys2Proof

/-! The decision of the tick. -/

/-- The edge of this tick is due, with its DESCENT in. -/
structure EdgeDue (s : State) : Prop where
  cell : isCell s = true
  waits : s.rdl.edgeDone = false
  phase : edgePhase s ≤ phaseOf s
  got : s.rdl.gotDesc = true

/-- The cell as a decision finds it: the edge is placed, and no pulse is left. -/
def edgeStart (s : State) : State := modRdl (modRdl s edgePlaced) pulseNone

theorem edgeInstant_whole (s : State) (c : Cell) (ton : Nat) (h : EdgeDue s) (hr : running s = true) (hd : s.rdl.dec = some ⟨c, false, ton⟩) :
    edgeInstant s = modRdl (cellTake (edgeStart s) c false) edgeDecided := by
  rw [edgeInstant_got s h.cell h.waits h.phase h.got, edgeAct_decides (modRdl s edgePlaced) _ hr hd, edgeTake_whole]
  rfl

theorem edgeInstant_short (s : State) (c : Cell) (ton : Nat) (h : EdgeDue s) (hr : running s = true) (hd : s.rdl.dec = some ⟨c, true, ton⟩)
    (hs : pulseShape s (edgePhase s) ton = none) :
    edgeInstant s = modRdl (cellTake (flag (edgeStart s) edgeStat 2) .zero false) edgeDecided := by
  rw [edgeInstant_got s h.cell h.waits h.phase h.got, edgeAct_decides (modRdl s edgePlaced) _ hr hd, edgeTake_short (modRdl s edgePlaced) c ton hs]
  rfl

theorem edgeInstant_pulse (s : State) (c : Cell) (ton len : Nat) (clip dfr : Bool) (h : EdgeDue s) (hr : running s = true)
    (hd : s.rdl.dec = some ⟨c, true, ton⟩) (hs : pulseShape s (edgePhase s) ton = some (len, clip, dfr)) :
    edgeInstant s = modRdl (modRdl (cellTake (edgeStart s) c true) fun r => { r with pulse := some ⟨now s - phaseOf s + edgePhase s + len, len, clip, dfr⟩ })
      edgeDecided := by
  rw [edgeInstant_got s h.cell h.waits h.phase h.got, edgeAct_decides (modRdl s edgePlaced) _ hr hd, edgeTake_pulse (modRdl s edgePlaced) c ton len clip dfr hs]
  rfl

/-- In READY the forced state takes the place of a decision. -/
theorem edgeInstant_forced (s : State) (h : EdgeDue s) (hm : modeOf s = .ready) : edgeInstant s = forcedEdge (modRdl s edgePlaced) := by
  rw [edgeInstant_got s h.cell h.waits h.phase h.got, edgeAct_ready (modRdl s edgePlaced) hm]

/-- A missing DESCENT is reported at the edge instant at the latest. -/
theorem edgeInstant_missing (s : State) (hc : isCell s = true) (hq : notInjecting s = true) (he : s.rdl.edgeDone = false) (hp : edgePhase s ≤ phaseOf s)
    (ht : s.tmk.ticked = true) (hg : s.rdl.gotDesc = false) :
    (now s, faultMsg 129 .descentMissing (rdlR 0x004) false) ∈ (edgeInstant s).flt.bus ∧ rb (edgeInstant s) (rdlR 0x004) 8 = true ∧
      ((edgeInstant s).rdl.edgeDone, (edgeInstant s).rdl.gotDesc) = (true, true) := by
  have hfirst : firstEdge s ≤ phaseOf s := le_trans (by rw [edgePhase]; omega) hp
  obtain ⟨hrep, hflag, hrdl, -⟩ := descentMissed_holds s hc hq ht hg hfirst
  obtain ⟨hpart, hreg, htick⟩ := edgeOnly_edgeAct (modRdl (descentMissed s) edgePlaced)
  have hflt : (edgeAct (modRdl (descentMissed s) edgePlaced)).flt = (descentMissed s).flt := congrArg (fun p => p.2.2.2.1) hpart
  rw [edgeInstant_due s hc he hp]
  refine ⟨?_, ?_, htick.trans ?_⟩
  · rw [hflt, hrep]
    exact List.mem_append_right _ (List.mem_singleton_self _)
  · rw [rb, hreg _ (by decide)]
    exact hflag
  · rw [modRdl_rdl, hrdl]
    rfl

/-! The parts of O43. -/

/-- A whole state at the edge instant: leg A follows the decision. -/
theorem edgeInstant_whole_leaves (s : State) (c : Cell) (h : EdgeDue s) (hr : running s = true) (hd : s.rdl.dec = some ⟨c, false, 0⟩) (hst : c = .zero ∨ c = .plus) :
    let t := edgeInstant s
    (t.rdl.state, t.rdl.fracNow, t.rdl.dec, t.rdl.edgeDone, t.rdl.pulse) = (c, false, none, true, none) ∧ legWant t 0 = (c == .plus, c == .zero) ∧
      t.regs = s.regs ∧ edgePart t = edgePart s ∧ (has8 t.swg.gcmd 0 = true → c = .plus) ∧ (has8 t.swg.gcmd 1 = true → c = .zero) ∧
      (s.swg.gcmd = 0 → has8 s.swg.waitOn 1 = false → c = .plus → mayRiseCh s 0 = true → has8 t.swg.gcmd 0 = true) := by
  have hlow : ∀ {m : Nat}, has8 (cellTake (edgeStart s) c false).swg.gcmd m = false → ¬ has8 (cellTake (edgeStart s) c false).swg.gcmd m = true :=
    fun hf ht => Bool.false_ne_true (hf.symm.trans ht)
  have htakes := cellTake_takes (edgeStart s) c false
  obtain ⟨b, hrdl⟩ := htakes.rdl
  have hrise := cellTake_rises (edgeStart s) false
  have hup := cellTake_upLow (edgeStart s) c false
  have hlo := cellTake_loLow (edgeStart s) c false
  dsimp only
  rw [edgeInstant_whole s c 0 h hr hd]
  refine ⟨by rw [modRdl_rdl, hrdl]; rfl, htakes.want.trans ?_, htakes.regs, htakes.part, fun hg => ?_, fun hg => ?_, fun _ hw hp hm => ?_⟩
  · rcases hst with rfl | rfl <;> rfl
  · exact hst.resolve_left fun e => hlow (hup (by rw [e]; rfl)) hg
  · exact hst.resolve_right fun e => hlow (hlo (by rw [e]; rfl)) hg
  · subst hp
    exact hrise hw hm

/-- A fraction below MIN_ON leaves the cell in 0, and is marked (R181). -/
theorem edgeInstant_short_leaves (s : State) (ton : Nat) (h : EdgeDue s) (hr : running s = true) (hd : s.rdl.dec = some ⟨.plus, true, ton⟩) (hlt : ton < minOn s) :
    let t := edgeInstant s
    (t.rdl.state, t.rdl.fracNow, t.rdl.pulse) = (.zero, false, none) ∧ rb t (rdlR 0x058) 1 = true ∧ edgePart t = edgePart s := by
  have htakes := cellTake_takes (flag (edgeStart s) edgeStat 2) .zero false
  obtain ⟨b, hrdl⟩ := htakes.rdl
  dsimp only
  rw [edgeInstant_short s .plus ton h hr hd ((pulseShape_none s _ ton).mp hlt)]
  generalize cellTake (flag (edgeStart s) edgeStat 2) .zero false = t at htakes hrdl ⊢
  refine ⟨by rw [modRdl_rdl, hrdl]; rfl, (congrArg (bitOf · 1) (htakes.reg edgeStat)).trans ?_, htakes.part⟩
  exact (rb_flag (edgeStart s) edgeStat 2 1 (by decide)).trans (Bool.or_eq_true_iff.mpr (.inr (by decide)))

/-- The end of a pulse: the cell is in 0, and T_ON_LAST and the marks stand in RDL_EDGE_STAT (R180 to R182). -/
theorem pulseEnd_leaves (s : State) (p : Pulse) :
    let t := pulseEnd s p
    (t.rdl.state, t.rdl.fracNow, t.rdl.pulse) = (.zero, false, none) ∧ legWant t 0 = (false, true) ∧ has8 t.swg.gcmd 0 = false ∧
      rf t (rdlR 0x058) 31 16 = p.ton % 65536 ∧ (p.clip = true → rb t (rdlR 0x058) 1 = true) ∧ (p.defer = true → rb t (rdlR 0x058) 2 = true) ∧
      edgePart t = edgePart s := by
  have htakes := cellTake_takes (modRdl s pulseNone) .zero false
  obtain ⟨b, hrdl⟩ := htakes.rdl
  obtain ⟨hpart, hmrdl, hmswg, hclip, hdefer⟩ := pulseMarked_marks (cellTake (modRdl s pulseNone) .zero false) p
  have hrdl' : (pulseEnd s p).rdl = _ := hmrdl.trans hrdl
  have hswg' : (pulseEnd s p).swg = _ := hmswg
  have hbit : ∀ i, i < 16 → rb (pulseEnd s p) edgeStat i = rb (pulseMarked (cellTake (modRdl s pulseNone) .zero false) p) edgeStat i :=
    fun i hi => rb_setRf_apart _ _ _ _ _ _ (.inl hi)
  refine ⟨by rw [hrdl']; rfl, ?_, ?_, ?_, fun h => (hbit 1 (by decide)).trans (hclip h), fun h => (hbit 2 (by decide)).trans (hdefer h), hpart.trans htakes.part⟩
  · rw [legWant, hswg']
    exact htakes.want
  · rw [hswg']
    exact cellTake_upLow _ _ _ rfl
  · show rf (setRf _ edgeStat 31 16 p.ton) edgeStat 31 16 = _
    rw [rf, setRf, reg_setReg_same]
    exact fld_setFld_mod _ 31 16 p.ton (by decide)

/-- Outside READY, without INSERT_EN, LEN or a state of Table 6-3, and for -1 without FULLBRIDGE, no state is considered (R187). -/
theorem insertNotAllowed (s : State) (k : Packet) (h : modeOf s ≠ .ready ∨ rb s (rdlR 0x054) 0 = false ∨ fld (k.payload.getD 0 0) 15 8 = 0 ∨
      insertCell (fld (k.payload.getD 0 0) 31 29) = none ∨ (insertCell (fld (k.payload.getD 0 0) 31 29) = some .minus ∧ fullBridge s = false))
    (c : Cell) (hn : insertCell (fld (k.payload.getD 0 0) 31 29) = some c) : ¬ InsertAllowed s k c := by
  rintro ⟨hmode, hen, hlen, hneg⟩
  rcases h with h | h | h | h | ⟨h, hhalf⟩
  · exact h hmode
  · exact Bool.false_ne_true (h.symm.trans hen)
  · exact hlen h
  · exact Option.some_ne_none c (hn.symm.trans h)
  · rcases hneg with hne | hfull
    · exact hne (Option.some.inj (hn.symm.trans h))
    · exact Bool.false_ne_true (hhalf.symm.trans hfull)

/-- A refusal for the ledger's sake is reported twice: by the ledger and as a refused INSERT (R187, R213). -/
theorem insertRefuse_ledger (s : State) (hq : notInjecting s = true) :
    let t := insertRefuse (ledgerRefuse s)
    t.rdl = s.rdl ∧ t.swg = s.swg ∧ rb t (rdlR 0x058) 0 = true ∧
      t.flt.bus = s.flt.bus ++ [(now s, faultMsg 387 .ledgerRefuse (supR 0x128) false), (now s, faultMsg 130 .insertRefused (rdlR 0x058) false)] := by
  obtain ⟨hrdl, hswg, hnow, hquiet⟩ := ledgerRefuse_cell s hq
  obtain ⟨-, -, hledger⟩ := ledgerRefuse_refuses s hq
  obtain ⟨hinsert, hflag, hrdl', hswg'⟩ := insertRefuse_refuses (ledgerRefuse s) hquiet
  refine ⟨hrdl'.trans hrdl, hswg'.trans hswg, hflag, ?_⟩
  rw [hinsert, hledger, hnow, List.append_assoc]
  rfl

/-- Settles O43: `cellTake_takes` is what a state asks of the legs, `pulseShape_some` the limits and windows of a pulse. -/
theorem edgesOfACell : Obligations.EdgesOfACell := by
  unfold Obligations.EdgesOfACell
  refine ⟨?_, fun s te ton => ⟨pulseShape_none s te ton, fun x clip dfr h => ?_⟩⟩
  · intro k s hr hc hq te mine others
    refine ⟨fun st he hp hrun hg hd hst => answers_live rfl hr ?_, fun ton he hp hrun hg hd => ⟨fun hlt => answers_live rfl hr ?_,
        fun len clip dfr hs => answers_live rfl hr ?_⟩,
      fun h => answers_live rfl hr (edgeInstant_waits s h), fun he hp ht hg => answers_live rfl hr (edgeInstant_missing s hc hq he hp ht hg),
      fun f he hp hm hg hn => answers_live rfl hr ?_, fun f he hp hm hg hn hf hl => answers_live rfl hr ?_,
      fun f he hp hm hg hn hf hl => answers_live rfl hr ?_, fun c hb hp => ⟨_, execLegBEdge_follows s c hr hb hp, ?_⟩,
      fun h => ⟨s, execLegBEdge_waits s hr h, rfl⟩, fun p hp hoff => ⟨_, execFracOffEdge_ends s p hr hp hoff, pulseEnd_leaves s p⟩,
      fun h => ⟨s, execFracOffEdge_waits s hr h, rfl⟩, fun c hm hn hmode hen hlen hneg hadm => answers_live rfl hr ?_,
      fun c hm hn hmode hen hlen hneg hadm => answers_live rfl hr ?_, fun hm => answers_live rfl hr (insertHere_other s k hm),
      fun hm href => answers_live rfl hr ?_⟩
    · -- a whole state
      obtain ⟨hrec, hwant, hregs, hpart, hrest⟩ := edgeInstant_whole_leaves s st ⟨hc, he, hp, hg⟩ hrun hd hst
      exact ⟨hrec, hwant, hregs, hpart, hrest⟩
    · exact edgeInstant_short_leaves s ton ⟨hc, he, hp, hg⟩ hrun hd hlt
    · -- a fraction with its pulse
      have htakes := cellTake_takes (edgeStart s) .plus true
      obtain ⟨b, hrdl⟩ := htakes.rdl
      rw [edgeInstant_pulse s .plus ton len clip dfr ⟨hc, he, hp, hg⟩ hrun hd hs]
      generalize cellTake (edgeStart s) .plus true = t at htakes hrdl ⊢
      exact ⟨by rw [modRdl_rdl, modRdl_rdl, hrdl]; rfl, rfl, htakes.want, htakes.regs, htakes.part⟩
    · -- a forced state starts
      have htakes := cellTake_takes (modRdl (modRdl s edgePlaced) (forcedStarts f)) f.st false
      obtain ⟨b, hrdl⟩ := htakes.rdl
      rw [edgeInstant_forced s ⟨hc, he, hp, hg⟩ hm, forcedEdge_starts (modRdl s edgePlaced) f hn, hrdl]
      exact ⟨rfl, rfl, rfl, htakes.regs, htakes.part⟩
    · -- it goes on
      have htakes := cellTake_takes (modRdl (modRdl s edgePlaced) (forcedGoes f)) f.st false
      obtain ⟨b, hrdl⟩ := htakes.rdl
      rw [edgeInstant_forced s ⟨hc, he, hp, hg⟩ hm, forcedEdge_goes (modRdl s edgePlaced) f hn hf hl, hrdl]
      exact ⟨rfl, rfl, htakes.regs, htakes.part⟩
    · -- it ends in B
      have htakes := cellTake_takes (modRdl (modRdl s edgePlaced) forcedEnds) .blocked false
      obtain ⟨b, hrdl⟩ := htakes.rdl
      rw [edgeInstant_forced s ⟨hc, he, hp, hg⟩ hm, forcedEdge_ends (modRdl s edgePlaced) f hn hf hl, hrdl]
      exact ⟨rfl, rfl, htakes.want, cellTake_upLow _ _ _ rfl, cellTake_loLow _ _ _ rfl, htakes.part⟩
    · -- leg B
      have hB := legBFollow_follows s c
      exact ⟨hB.rdl, hB.legWant, hB.legWant_other (by decide), fun m hm => hB.others m (by omega) (by omega), (congrArg State.regs hB.frame :),
        (congrArg edgePart hB.frame :)⟩
    · -- an INSERT that the ledger admits
      have hins : insertHere s k = modRdl s (insertKept c k) := by
        rw [insertHere_mine s k hm, insertIn_allowed s k c hc hn ⟨hmode, hen, hlen, hneg⟩]
        exact if_pos hadm
      show (insertHere s k).rdl = _ ∧ { insertHere s k with rdl := s.rdl } = s
      rw [hins]
      exact ⟨rfl, rfl⟩
    · -- one that it does not
      have hins : insertHere s k = insertRefuse (ledgerRefuse s) := by
        rw [insertHere_mine s k hm, insertIn_allowed s k c hc hn ⟨hmode, hen, hlen, hneg⟩]
        exact if_neg (by rw [show deblockAdmit s (insertChans s c) = false from hadm]; decide)
      have hleaves := insertRefuse_ledger s hq
      rw [← hins] at hleaves
      exact hleaves
    · -- one that is refused
      have hnot := insertNotAllowed s k href
      have hleaves := insertRefuse_refuses s hq
      rw [← insertIn_refused s k hc hnot, ← insertHere_mine s k hm] at hleaves
      exact hleaves
  · obtain ⟨hclip, hkept, hmoved⟩ := pulseShape_some s te ton x clip dfr h
    refine ⟨hclip, fun hf => ⟨(hkept hf).1, fun w hw => (hkept hf).2 w ((mem_windowStarts s w).mpr hw)⟩, fun hf => ?_⟩
    obtain ⟨w, hw, hin, hx⟩ := hmoved hf
    exact ⟨w, (mem_windowStarts s w).mp hw, hin, hx⟩

end Sys2Proof.Machine
end
